-- ==== Sys2Proof/Word.lean ====
section
/-! DEFINITION. The word types of the XF5120: bytes, 32-bit instruction words, 64-bit integers, 128-bit capability
bits, and a capability with its out-of-band tag (R44, R45, R115); the names of the I3C codes (R458) and of DRAM requests (R521); what the outside world does to a
command. -/

namespace Sys2Proof

/-- One byte. -/
abbrev Byte := BitVec 8

/-- One instruction word (R115). -/
abbrev IWord := BitVec 32

/-- One 64-bit integer. -/
abbrev Word := BitVec 64

/-- The 128 bits of a register-store entry or of a 16-byte granule. -/
abbrev Quad := BitVec 128

/-- The I3C common command codes that the target serves (R458). -/
inductive Ccc where
  | entdaa | setdasa | rstdaa | setnewda | getpid | getbcr | getdcr | getstatus | enec | disec | getmwl | getmrl | setmwl | setmrl
deriving DecidableEq, Repr

/-- An insert that Chandler makes (R352, R355): key, control word, and whether it replaces a host's entry. -/
structure FlowIns where
  key : List (BitVec 8)
  ctl : Nat
  replace : Bool
deriving DecidableEq, Repr

/-- The commit of half `half`'s update unit, or an insert that Chandler hands to it (R352, R355). -/
structure UpdTurn where
  half : Nat
  ins : Option FlowIns
deriving DecidableEq, Repr

/-- How a read of host memory ends (R456, R522, R568): with its data, not at all, or with data marked poisoned. -/
inductive ReadEnd where
  | good | failed | poisoned
deriving DecidableEq, Repr

/-- A read of a buffer in host memory: how it ends, and its bytes. -/
structure HostRead where
  how : ReadEnd
  bytes : List (BitVec 8)
deriving DecidableEq, Repr

/-- Where a request of the host goes (R417): through BAR0, else BAR2, and the address in it. -/
structure BarAddr where
  bar0 : Bool
  off : Nat
deriving DecidableEq, Repr

/-- A request of the host: a read of `n` bytes, or a write, which may be marked poisoned (R568). -/
inductive Inbound where
  | read (n : Nat) | write (b : List (BitVec 8)) (poisoned : Bool)
deriving DecidableEq, Repr

/-- What the slots of an STM or LDM meet: whether they hit L1, and the number of the slot whose DRAM request expires (R105, R521). -/
structure SlotLuck where
  hits : Bool
  ue : Option Nat
deriving DecidableEq, Repr

/-- The codewords that a port's FEC has corrected, and those that it could not correct (R561). -/
structure FecSeen where
  corr : Nat
  unc : Nat
deriving DecidableEq, Repr

/-- A core, and those of its tasks that R173 holds now. -/
structure CoreView where
  core : Nat
  stalled : List Nat
deriving DecidableEq, Repr

/-- Whose DRAM request expires (R521): a core's long operation or buffered store (`i` the element of a vector operation, or of the
pieces of a remote one), a task's fetch, a flow engine's bucket read for the `n`-th
waiting frame of half `h`, a walker's read of a line, or another master's read or write of a line. -/
inductive DramReq where
  | op (t id i : Nat) | fetch (t : Nat) | bucket (h n : Nat) | walk (pa : Nat) | other (pa : Nat)
deriving DecidableEq, Repr

namespace Machine

/-- A 128-bit value with its tag bit (R45): a capability when the tag is 1, plain data when it is 0. -/
structure Cap where
  tag : Bool
  bits : Quad
deriving DecidableEq, Repr

end Machine

end Sys2Proof
end

