-- ==== Sys2Proof/Syntax.lean ====
section
/-! DEFINITION. The commands of the block: one constructor for each row of the operation table. Numbers name a half
(0, 1), a cluster (half * 16 + cluster), a core (half * 256 + cluster * 16 + core, 512 + half for a service core) or a
task (core * 64 + task), as each docstring says. -/

namespace Sys2Proof

/-- One command. -/
inductive Instr where
  /-- ALU_OP (R120). Task `t` issues the word `w`. -/
  | aluOp (t : Nat) (w : IWord)
  /-- ALU_IMMEDIATE (R122). Task `t` issues the word `w`. -/
  | aluImmediate (t : Nat) (w : IWord)
  /-- SHIFT_IMMEDIATE (R122). Task `t` issues the word `w`. -/
  | shiftImmediate (t : Nat) (w : IWord)
  /-- MOVI (R122). Task `t` issues the word `w`. -/
  | movi (t : Nat) (w : IWord)
  /-- MOVSH (R122). Task `t` issues the word `w`. -/
  | movsh (t : Nat) (w : IWord)
  /-- MUL (R123). Task `t` issues the word `w`. -/
  | mul (t : Nat) (w : IWord)
  /-- DIV (R123). Task `t` issues the word `w`. -/
  | div (t : Nat) (w : IWord)
  /-- DIVIDE_COMPLETE (R182). Divide `id` of task `t` completes. -/
  | divideComplete (t id : Nat)
  /-- COMPARE (R124). Task `t` issues the word `w`. -/
  | compare (t : Nat) (w : IWord)
  /-- CMPI (R124). Task `t` issues the word `w`. -/
  | cmpi (t : Nat) (w : IWord)
  /-- PREDICATE_LOGIC (R124). Task `t` issues the word `w`. -/
  | predicateLogic (t : Nat) (w : IWord)
  /-- UNARY_BIT_OP (R125). Task `t` issues the word `w`. -/
  | unaryBitOp (t : Nat) (w : IWord)
  /-- CRC_STEP (R126). Task `t` issues the word `w`. -/
  | crcStep (t : Nat) (w : IWord)
  /-- CPOS (R127). Task `t` issues the word `w`. -/
  | cpos (t : Nat) (w : IWord)
  /-- CADV (R127). Task `t` issues the word `w`. -/
  | cadv (t : Nat) (w : IWord)
  /-- CCUT (R127). Task `t` issues the word `w`. -/
  | ccut (t : Nat) (w : IWord)
  /-- CFIT (R127). Task `t` issues the word `w`. -/
  | cfit (t : Nat) (w : IWord)
  /-- CDROP (R127). Task `t` issues the word `w`. -/
  | cdrop (t : Nat) (w : IWord)
  /-- CTINT (R127). Task `t` issues the word `w`. -/
  | ctint (t : Nat) (w : IWord)
  /-- CWRAP (R58). Task `t` issues the word `w`. -/
  | cwrap (t : Nat) (w : IWord)
  /-- CUNWRAP (R58). Task `t` issues the word `w`. -/
  | cunwrap (t : Nat) (w : IWord)
  /-- CGATE (R59). Task `t` issues the word `w`. -/
  | cgate (t : Nat) (w : IWord)
  /-- CCOPY (R55). Task `t` issues the word `w`. -/
  | ccopy (t : Nat) (w : IWord)
  /-- CROUND (R127). Task `t` issues the word `w`. -/
  | cround (t : Nat) (w : IWord)
  /-- CAMASK (R127). Task `t` issues the word `w`. -/
  | camask (t : Nat) (w : IWord)
  /-- CPAINT (R130). Task `t` issues the word `w`. -/
  | cpaint (t : Nat) (w : IWord)
  /-- CDIFF (R127). Task `t` issues the word `w`. -/
  | cdiff (t : Nat) (w : IWord)
  /-- CAP_INSPECT (R128). Task `t` issues the word `w`. -/
  | capInspect (t : Nat) (w : IWord)
  /-- CADVI (R129). Task `t` issues the word `w`. -/
  | cadvi (t : Nat) (w : IWord)
  /-- CCUTI (R129). Task `t` issues the word `w`. -/
  | ccuti (t : Nat) (w : IWord)
  /-- CPCREL (R129). Task `t` issues the word `w`. -/
  | cpcrel (t : Nat) (w : IWord)
  /-- LOAD (R132). Task `t` issues the word `w`; `hit` says whether the access hits its core's L1 data cache. -/
  | load (t : Nat) (w : IWord) (hit : Bool)
  /-- LCAP (R65). Task `t` issues the word `w`; `hit` says whether the access hits its core's L1 data cache. -/
  | lcap (t : Nat) (w : IWord) (hit : Bool)
  /-- STORE (R132). Task `t` issues the word `w`; `hit` says whether the access hits its core's L1 data cache. -/
  | store (t : Nat) (w : IWord) (hit : Bool)
  /-- SCAP (R64). Task `t` issues the word `w`; `hit` says whether the access hits its core's L1 data cache. -/
  | scap (t : Nat) (w : IWord) (hit : Bool)
  /-- AMOADD (R133). Task `t` issues the word `w`. -/
  | amoadd (t : Nat) (w : IWord)
  /-- AMOSWP (R133). Task `t` issues the word `w`. -/
  | amoswp (t : Nat) (w : IWord)
  /-- CAS (R133). Task `t` issues the word `w`. -/
  | cas (t : Nat) (w : IWord)
  /-- STM (R103). The task and the word; the number of registers after which an event is pending, and what the slots meet. -/
  | stm (t : Nat) (w : IWord) (stop : Option Nat) (luck : SlotLuck)
  /-- LDM (R103). The task and the word; the number of registers after which an event is pending, and what the slots meet. -/
  | ldm (t : Nat) (w : IWord) (stop : Option Nat) (luck : SlotLuck)
  /-- B (R135). Task `t` issues the word `w`. -/
  | b (t : Nat) (w : IWord)
  /-- CALL (R135). Task `t` issues the word `w`. -/
  | call (t : Nat) (w : IWord)
  /-- JR (R135). Task `t` issues the word `w`. -/
  | jr (t : Nat) (w : IWord)
  /-- CALLR (R135). Task `t` issues the word `w`. -/
  | callr (t : Nat) (w : IWord)
  /-- RET (R96). Task `t` issues the word `w`. -/
  | ret (t : Nat) (w : IWord)
  /-- LOOP (R137). Task `t` issues the word `w`. -/
  | loop (t : Nat) (w : IWord)
  /-- REP (R144). Task `t` issues the prefix `w` with the operation word `w2`. -/
  | rep (t : Nat) (w w2 : IWord)
  /-- BLOCK_ELEMENT (R144). The task, and whether a DRAM request of the element expires. -/
  | blockElement (t : Nat) (ue : Bool)
  /-- GCALL (R232). Task `t` issues the word `w`. -/
  | gcall (t : Nat) (w : IWord)
  /-- GRET (R235). Task `t` issues the word `w`. -/
  | gret (t : Nat) (w : IWord)
  /-- POST (R245). Task `t` issues the word `w`. -/
  | post (t : Nat) (w : IWord)
  /-- WAITQ (R151). Task `t` issues the word `w`. -/
  | waitq (t : Nat) (w : IWord)
  /-- WAITQ_N (R151). Task `t` issues the word `w`. -/
  | waitqN (t : Nat) (w : IWord)
  /-- WAITQ_WAKE (R253). Task `t`, yielded in WAITQ, is woken by an event. -/
  | waitqWake (t : Nat)
  /-- SYNC (R177). Task `t` issues the word `w`. -/
  | sync (t : Nat) (w : IWord)
  /-- SYNC_M (R178). Task `t` issues the word `w`. -/
  | syncM (t : Nat) (w : IWord)
  /-- SYNC_P (R179). Task `t` issues the word `w`. -/
  | syncP (t : Nat) (w : IWord)
  /-- IFLUSH (R153). Task `t` issues the word `w`. -/
  | iflush (t : Nat) (w : IWord)
  /-- DFLUSH_I (R153). Task `t` issues the word `w`. -/
  | dflushI (t : Nat) (w : IWord)
  /-- DFLUSH_C (R153). Task `t` issues the word `w`. -/
  | dflushC (t : Nat) (w : IWord)
  /-- DFLUSH_CI (R153). Task `t` issues the word `w`. -/
  | dflushCi (t : Nat) (w : IWord)
  /-- TLBI_VA (R291). Task `t` issues the word `w`. -/
  | tlbiVa (t : Nat) (w : IWord)
  /-- TLBI_TAG (R291). Task `t` issues the word `w`. -/
  | tlbiTag (t : Nat) (w : IWord)
  /-- TLBI_ALL (R291). Task `t` issues the word `w`. -/
  | tlbiAll (t : Nat) (w : IWord)
  /-- WCI (R291). Task `t` issues the word `w`. -/
  | wci (t : Nat) (w : IWord)
  /-- WCI_IPA (R291). Task `t` issues the word `w`. -/
  | wciIpa (t : Nat) (w : IWord)
  /-- INVALIDATION_COMPLETE (R292). Operation `id` of task `t`, an invalidation, completes. -/
  | invalidationComplete (t id : Nat)
  /-- NOP (R155). Task `t` issues the word `w`. -/
  | nop (t : Nat) (w : IWord)
  /-- MFS (R155). Task `t` issues the word `w`. -/
  | mfs (t : Nat) (w : IWord)
  /-- MTS (R106). Task `t` issues the word `w`. -/
  | mts (t : Nat) (w : IWord)
  /-- XGET (R91). Task `t` issues the word `w`. -/
  | xget (t : Nat) (w : IWord)
  /-- XPUT (R91). Task `t` issues the word `w`. -/
  | xput (t : Nat) (w : IWord)
  /-- ERET (R227). Task `t` issues the word `w`. -/
  | eret (t : Nat) (w : IWord)
  /-- FENCE (R277). Task `t` issues the word `w`. -/
  | fence (t : Nat) (w : IWord)
  /-- FENCE_ST (R277). Task `t` issues the word `w`. -/
  | fenceSt (t : Nat) (w : IWord)
  /-- FENCE_LD (R277). Task `t` issues the word `w`. -/
  | fenceLd (t : Nat) (w : IWord)
  /-- TRAP (R155). Task `t` issues the word `w`. -/
  | trap (t : Nat) (w : IWord)
  /-- BRK (R155). Task `t` issues the word `w`. -/
  | brk (t : Nat) (w : IWord)
  /-- VSETVL (R205). Task `t` issues the word `w`. -/
  | vsetvl (t : Nat) (w : IWord)
  /-- VECTOR_VV_OP (R203). Task `t` issues the word `w`. -/
  | vectorVvOp (t : Nat) (w : IWord)
  /-- VECTOR_VS_OP (R204). Task `t` issues the word `w`. -/
  | vectorVsOp (t : Nat) (w : IWord)
  /-- VECTOR_REDUCTION (R205). Task `t` issues the word `w`. -/
  | vectorReduction (t : Nat) (w : IWord)
  /-- VPERM (R205). Task `t` issues the word `w`. -/
  | vperm (t : Nat) (w : IWord)
  /-- VRELEASE (R197). Task `t` issues the word `w`. -/
  | vrelease (t : Nat) (w : IWord)
  /-- VLD (R209). Task `t` issues the word `w`. -/
  | vld (t : Nat) (w : IWord)
  /-- VST (R209). Task `t` issues the word `w`. -/
  | vst (t : Nat) (w : IWord)
  /-- VLDFF (R212). Task `t` issues the word `w`. -/
  | vldff (t : Nat) (w : IWord)
  /-- VECTOR_CONTEXT_ACQUIRE (R195). Task `t`, which waits for a vector context, acquires one. -/
  | vectorContextAcquire (t : Nat)
  /-- VECTOR_CONTEXT_RECLAIM (R196). A vector context of core `k` is reclaimed. -/
  | vectorContextReclaim (k : Nat)
  /-- FETCH_FILL (R163). The fetch queue of task `t` takes its next word; with `stale` from the core's L1 instruction
  cache if it holds the line. -/
  | fetchFill (t : Nat) (stale : Bool)
  /-- LONG_OP_COMPLETE (R175). The task and the operation's number. -/
  | longOpComplete (t id : Nat)
  /-- STORE_DRAIN (R183). The core. -/
  | storeDrain (k : Nat)
  /-- SWITCH_POINT (R256). Core `k`; `stalled` are its tasks that R173 holds now. -/
  | switchPoint (k : Nat) (stalled : List Nat)
  /-- SLICE_END (R255). Core `k`; `stalled` are its tasks that R173 holds now. -/
  | sliceEnd (k : Nat) (stalled : List Nat)
  /-- BUDGET_KILL (R260). Task `t`. -/
  | budgetKill (t : Nat)
  /-- BIND (R252). Cluster `c` binds its oldest pending compartment. -/
  | bind (c : Nat)
  /-- UNBIND (R250). Task `t`. -/
  | unbind (t : Nat)
  /-- EVENT_ARRIVAL (R245). Event `n` of outbound buffer `src` (a cluster, or 32 + half for a service core), or the
  oldest EVENT message that Wick delivered to half `src` - 64. -/
  | eventArrival (src n : Nat)
  /-- BALANCE_EPOCH_END (R261). Half `h`. -/
  | balanceEpochEnd (h : Nat)
  /-- COMPARTMENT_MOVE (R263). Compartment `id`. -/
  | compartmentMove (id : Nat)
  /-- WICK_FLIT_RECEIVE (R26). Half `h` takes the oldest flit on its wire, with the bits of `noise` flipped on the
  way. -/
  | wickFlitReceive (h noise : Nat)
  /-- WICK_REPLAY_TIMEOUT (R26). Half `h`. -/
  | wickReplayTimeout (h : Nat)
  /-- WICK_RETRAIN (R26). Half `h`. -/
  | wickRetrain (h : Nat)
  /-- WICK_TRAINING_COMPLETE (R29). Training of the link ends, with success or not. -/
  | wickTrainingComplete (ok : Bool)
  /-- WICK_REQUEST_TIMEOUT (R27). Half `h`. -/
  | wickRequestTimeout (h : Nat)
  /-- WICK_DOWN (R28). -/
  | wickDown
  /-- WICK_RETRAIN_WRITE (R29). Half `h`. -/
  | wickRetrainWrite (h : Nat)
  /-- WICK_ENABLE_WRITE (R28). The ENABLE bit written in half `h`. -/
  | wickEnableWrite (h : Nat) (en : Bool)
  /-- REMOTE_ACCESS_ARRIVAL (R272). The half that performs it, and which of the requests it has received. -/
  | remoteAccessArrival (h n : Nat)
  /-- FORWARDED_COMMAND_ARRIVAL (R427). Half `h`. -/
  | forwardedCommandArrival (h : Nat)
  /-- FORWARDED_COMPLETION_ARRIVAL (R427). Half `h`. -/
  | forwardedCompletionArrival (h : Nat)
  /-- DMA_TAIL_WRITE (R302). Engine `e` of half `h`: the index written. -/
  | dmaTailWrite (h e v : Nat)
  /-- DMA_DESCRIPTOR_START (R304). Engine `e` of half `h`. -/
  | dmaDescriptorStart (h e : Nat)
  /-- DMA_PIECE (R305). The half and engine; whether a DRAM request of the read and of the write expires. -/
  | dmaPiece (h e : Nat) (rdLate wrLate : Bool)
  /-- DMA_DESCRIPTOR_DONE (R306). Engine `e` of half `h`. -/
  | dmaDescriptorDone (h e : Nat)
  /-- DMA_RESUME (R306). Engine `e` of half `h`. -/
  | dmaResume (h e : Nat)
  /-- DMA_ABORT (R306). Engine `e` of half `h`. -/
  | dmaAbort (h e : Nat)
  /-- AD_REQUEST (R298). Operation `id` of task `t`, or its block repeat for 0. -/
  | adRequest (t id : Nat)
  /-- XLT_ADREQ_READ (R309). Half `h`. -/
  | xltAdreqRead (h : Nat)
  /-- XLT_ADACK_WRITE (R309). Half `h`, request ID `id`. -/
  | xltAdackWrite (h id : Nat)
  /-- AD_WAIT_EXPIRY (R298). Operation `id` of task `t`, or its block repeat for 0. -/
  | adWaitExpiry (t id : Nat)
  /-- TRANSLATION_WALK_DONE (R289). The prefetch of task `t` of core `k` of cluster `c`: the next fetch line (`kind` 0), or line `i`
  ahead of the block repeat's source (1) or destination (2). -/
  | translationWalkDone (c k t kind i : Nat)
  /-- GRD_VINFO_CLEAR (R319). Guard `m` of half `h`. -/
  | grdVinfoClear (h m : Nat)
  /-- FRAME_RECEIVE (R39). Port `p` of half `h` receives `bytes`, FCS included; `fec` is what its FEC has met since the last frame,
  and `pick` the buffer the engine would take. -/
  | frameReceive (h p : Nat) (bytes : List Byte) (fec : FecSeen) (pick : Nat)
  /-- MISDIRECTED_FRAME_ARRIVAL (R335). Half `h`; the buffers the engine would take, `pick` before `alt`. -/
  | misdirectedFrameArrival (h pick alt : Nat)
  /-- OWNMAP_HOLD_RELEASE (R336). Half `h`, owner-map entry `j`; the oldest held frame and `n` more are steered. -/
  | ownmapHoldRelease (h j n : Nat)
  /-- FLOW_BUCKET_READ_DONE (R341). The `n`-th that waits in half `h`. -/
  | flowBucketReadDone (h n : Nat)
  /-- DELIVERY_WAIT_TIMEOUT (R346). The `n`-th that waits in half `h`. -/
  | deliveryWaitTimeout (h n : Nat)
  /-- LEARN_COMMIT (R354). Half `h`. -/
  | learnCommit (h : Nat)
  /-- TABLE_UPDATE_COMMIT (R355). The half's turn, or an insert that Chandler makes. -/
  | tableUpdateCommit (u : UpdTurn)
  /-- AGING_SCAN (R358). Half `h`, bucket `b`. -/
  | agingScan (h b : Nat)
  /-- HAND_BACK (R350). Half `h`. -/
  | handBack (h : Nat)
  /-- FRAME_TRANSMIT_DONE (R351). Half `h`, port `p`. -/
  | frameTransmitDone (h p : Nat)
  /-- RUN_RECLAIM (R361). Half `h`, the run that begins at buffer `first`. -/
  | runReclaim (h first : Nat)
  /-- PARSE_GRAPH_SWAP (R331). Half `h`. -/
  | parseGraphSwap (h : Nat)
  /-- POLICER_CONFIG_WRITE (R371). Half `h`, tenant, policer: `x` is written to MTR_POLBURST, else to MTR_POLCFG. -/
  | policerConfigWrite (h ten p : Nat) (burst : Bool) (x : Nat)
  /-- METER_INCREMENT_ARRIVAL (R369). Half, parity, tenant and counter index. -/
  | meterIncrementArrival (h par ten j : Nat)
  /-- GAUGE_TICK (R368). Half `h`. -/
  | gaugeTick (h : Nat)
  /-- MINUTE_BOUNDARY (R377). -/
  | minuteBoundary
  /-- HALF1_TOTALS_ARRIVAL (R378). -/
  | half1TotalsArrival
  /-- PARTIAL_SEAL_TIMEOUT (R380). -/
  | partialSealTimeout
  /-- SEAL_RECORDS_FORMED (R384). -/
  | sealRecordsFormed
  /-- ROOT_SIGNED (R386). -/
  | rootSigned
  /-- FLASH_SLOT_WRITTEN (R381). The oldest program ends; the bits of `stuck` fail to clear. -/
  | flashSlotWritten (stuck : Nat)
  /-- LEDGER_SECTOR_ERASE (R389). The erase under way ends, verified or not. -/
  | ledgerSectorErase (ok : Bool)
  /-- COUNTERSIGN_TIMEOUT (R391). -/
  | countersignTimeout
  /-- TOD_MESSAGE (R375). The bytes of a message on TOD_RX. -/
  | todMessage (b : List Byte)
  /-- PPS_EDGE (R375). -/
  | ppsEdge
  /-- HOLDOVER_TIMEOUT (R374). -/
  | holdoverTimeout
  /-- SLEW_END (R376). -/
  | slewEnd
  /-- HEARTBEAT_SEND (R404). -/
  | heartbeatSend
  /-- MIRROR_CELL_RECEIVE (R400). Half `h`, the 64 bytes of a cell. -/
  | mirrorCellReceive (h : Nat) (cell : List Byte)
  /-- PEER_ALIVE_EDGE (R405). The ball's new level. -/
  | peerAliveEdge (level : Bool)
  /-- PATH_TIMEOUT (R405). -/
  | pathTimeout
  /-- TAKEOVER (R408). -/
  | takeover
  /-- FALLBACK_TIMEOUT (R406). -/
  | fallbackTimeout
  /-- YIELD (R404). The reason code of R404 and the half that meets it. -/
  | yield (reason half : Nat)
  /-- MIRROR_REPLAY_TIMEOUT (R402). Half `h`. -/
  | mirrorReplayTimeout (h : Nat)
  /-- MIRROR_LINK_DOWN (R402). Half `h`. -/
  | mirrorLinkDown (h : Nat)
  /-- METER_DELTA_SEND (R403). Half `h`; `fin` for the FINAL deltas of the closed minute. -/
  | meterDeltaSend (h : Nat) (fin : Bool)
  /-- PEER_FLOW_COMMIT_APPLY (R403). Half `h`. -/
  | peerFlowCommitApply (h : Nat)
  /-- PEER_METER_DELTA_APPLY (R411). Half `h`. -/
  | peerMeterDeltaApply (h : Nat)
  /-- PEER_LEDGER_BLOCK_APPLY (R403). Half `h`. -/
  | peerLedgerBlockApply (h : Nat)
  /-- MIRROR_WRITER (R409). Half `h`. -/
  | mirrorWriter (h : Nat)
  /-- RESYNC_START (R414). -/
  | resyncStart
  /-- RESYNC_BUCKET_COPY (R414). Half `h`. -/
  | resyncBucketCopy (h : Nat)
  /-- RESYNC_DONE (R414). -/
  | resyncDone
  /-- RESYNC_ABANDON (R415). -/
  | resyncAbandon
  /-- SQ_DOORBELL (R419). `x` is written to the doorbell of pair `q` of half `h`. -/
  | sqDoorbell (h q x : Nat)
  /-- CQ_DOORBELL (R419). `x` is written to the doorbell of pair `q` of half `h`. -/
  | cqDoorbell (h q x : Nat)
  /-- RING_DOORBELL (R445). `x` is written to CMD_RINGH_k of half `h`. -/
  | ringDoorbell (h k x : Nat)
  /-- Q0_ENABLE_WRITE (R461). `x` is written to CMD_Q0CFG of half `h`. -/
  | q0EnableWrite (h x : Nat)
  /-- COMMAND_FETCH (R420). Half `h`. -/
  | commandFetch (h : Nat)
  /-- SQ_READ_DONE (R456). Half, pair, how the read ended, and the 64 bytes read. -/
  | sqReadDone (h q : Nat) (how : ReadEnd) (entry : List Byte)
  /-- COMPLETION_POST (R425). The `n`-th completion that waits in half `h`; the host takes or refuses the write. -/
  | completionPost (h n : Nat) (ok : Bool)
  /-- MSIX_COALESCE_TIMER (R454). Half and pair. -/
  | msixCoalesceTimer (h q : Nat)
  /-- COMMAND_TIMEOUT (R455). Half and fetched command. -/
  | commandTimeout (h id : Nat)
  /-- PCIE_COMPLETION_TIMEOUT (R522). Half; the pair whose entry was read, or the command whose buffer was read. -/
  | pcieCompletionTimeout (h q : Nat) (id : Option Nat)
  /-- PCIE_LINK_RESET (R567). The half. -/
  | pcieLinkReset (h : Nat)
  /-- ADRUS_NOP (R432). The half that executes it and the fetched command. -/
  | adrusNop (h id : Nat)
  /-- IDENTIFY (R432). The half that executes it and the fetched command. -/
  | identify (h id : Nat)
  /-- CREATE_QUEUE (R432). The half that executes it and the fetched command. -/
  | createQueue (h id : Nat)
  /-- DELETE_QUEUE (R432). The half that executes it and the fetched command. -/
  | deleteQueue (h id : Nat)
  /-- GET_HEALTH (R433). The half that executes it and the fetched command. -/
  | getHealth (h id : Nat)
  /-- GET_EVENT (R434). The half that executes it and the fetched command. -/
  | getEvent (h id : Nat)
  /-- RESET (R435). The half that executes it and the fetched command; where the search for new places begins. -/
  | reset (h id pick : Nat)
  /-- CSR_READ (R432). The half that executes it and the fetched command. -/
  | csrRead (h id : Nat)
  /-- CSR_WRITE (R432). The half that executes it and the fetched command. -/
  | csrWrite (h id : Nat)
  /-- TENANT_CREATE (R436). The half and the fetched command; the window and the bitmaps that Chandler chooses. -/
  | tenantCreate (h id rvBase rvLen rb0 rb1 : Nat)
  /-- TENANT_DESTROY (R436). The half that executes it and the fetched command. -/
  | tenantDestroy (h id : Nat)
  /-- TENANT_SET (R436). The half that executes it and the fetched command. -/
  | tenantSet (h id : Nat)
  /-- COMP_CREATE (R438). The half and the fetched command; the buffer read, and the addresses that Chandler chooses. -/
  | compCreate (h id : Nat) (data : HostRead) (rsc save : Nat)
  /-- COMP_DESTROY (R439). The half that executes it and the fetched command. -/
  | compDestroy (h id : Nat)
  /-- COMP_PAUSE (R439). The half that executes it and the fetched command. -/
  | compPause (h id : Nat)
  /-- COMP_RESUME (R439). The half that executes it and the fetched command. -/
  | compResume (h id : Nat)
  /-- COMP_RESTART (R439). The half that executes it and the fetched command. -/
  | compRestart (h id : Nat)
  /-- COMP_MOVE (R439). The half that executes it and the fetched command. -/
  | compMove (h id : Nat)
  /-- COMP_SETFRONT (R436). The half that executes it and the fetched command. -/
  | compSetfront (h id : Nat)
  /-- COMP_SET (R436). The half that executes it and the fetched command. -/
  | compSet (h id : Nat)
  /-- COMP_QUERY (R436). The half that executes it and the fetched command. -/
  | compQuery (h id : Nat)
  /-- TASKCFG (R436). The half that executes it and the fetched command. -/
  | taskcfg (h id : Nat)
  /-- MEM_ALLOC (R440). The half and the fetched command; the address that Chandler chooses. -/
  | memAlloc (h id addr : Nat)
  /-- MEM_FREE (R440). The half that executes it and the fetched command. -/
  | memFree (h id : Nat)
  /-- S1_SET (R440). The half that executes it and the fetched command. -/
  | s1Set (h id : Nat)
  /-- XLT_INVAL (R440). The half that executes it and the fetched command. -/
  | xltInval (h id : Nat)
  /-- REVOKE (R440). The half that executes it and the fetched command. -/
  | revoke (h id : Nat)
  /-- SWEEP (R440). The half that executes it and the fetched command. -/
  | sweep (h id : Nat)
  /-- AD_RESOLVE (R442). The half that executes it and the fetched command. -/
  | adResolve (h id : Nat)
  /-- MEM_READ (R441). The half that executes it and the fetched command. -/
  | memRead (h id : Nat)
  /-- MEM_WRITE (R441). The half and the fetched command; the buffer read. -/
  | memWrite (h id : Nat) (data : HostRead)
  /-- FLOW_INSERT (R444). The half that executes it and the fetched command. -/
  | flowInsert (h id : Nat)
  /-- FLOW_DELETE (R443). The half that executes it and the fetched command. -/
  | flowDelete (h id : Nat)
  /-- FLOW_QUERY (R443). The half that executes it and the fetched command. -/
  | flowQuery (h id : Nat)
  /-- FLOW_FLUSH (R443). The half that executes it and the fetched command. -/
  | flowFlush (h id : Nat)
  /-- TEMPLATE_SET (R443). The half and the fetched command; the buffer read. -/
  | templateSet (h id : Nat) (data : HostRead)
  /-- SLOT_SET (R443). The half that executes it and the fetched command. -/
  | slotSet (h id : Nat)
  /-- RULE_SET (R443). The half and the fetched command; the buffer read. -/
  | ruleSet (h id : Nat) (data : HostRead)
  /-- PARSE_LOAD (R443). The half and the fetched command; the buffer read. -/
  | parseLoad (h id : Nat) (data : HostRead)
  /-- KPROF_SET (R443). The half that executes it and the fetched command. -/
  | kprofSet (h id : Nat)
  /-- OWNMAP_SET (R336). The half that executes it and the fetched command. -/
  | ownmapSet (h id : Nat)
  /-- PORT_SET (R443). The half that executes it and the fetched command. -/
  | portSet (h id : Nat)
  /-- TABLE_CONFIG (R339). The half that executes it and the fetched command. -/
  | tableConfig (h id : Nat)
  /-- RING_SET (R445). The half that executes it and the fetched command. -/
  | ringSet (h id : Nat)
  /-- FRAME_INJECT (R446). The half and the fetched command; how the read of its buffer ends, and the bytes; `pick` as
  for a received frame. -/
  | frameInject (h id : Nat) (how : ReadEnd) (data : List Byte) (pick : Nat)
  /-- CNT_READ (R447). The half that executes it and the fetched command. -/
  | cntRead (h id : Nat)
  /-- POLICER_SET (R447). The half that executes it and the fetched command. -/
  | policerSet (h id : Nat)
  /-- SET_TIME (R447). The half that executes it and the fetched command. -/
  | setTime (h id : Nat)
  /-- LEDGER_FETCH (R447). The half that executes it and the fetched command. -/
  | ledgerFetch (h id : Nat)
  /-- HOSTKEY_SET (R447). The half that executes it and the fetched command. -/
  | hostkeySet (h id : Nat)
  /-- COUNTERSIGN (R391). The half and the fetched command; the buffer read. -/
  | countersign (h id : Nat) (data : HostRead)
  /-- LEDGER_STATUS (R447). The half that executes it and the fetched command. -/
  | ledgerStatus (h id : Nat)
  /-- ANCHOR_READ (R447). The half that executes it and the fetched command. -/
  | anchorRead (h id : Nat)
  /-- PAIR_BIND (R395). The half that executes it and the fetched command. -/
  | pairBind (h id : Nat)
  /-- PAIR_UNBIND (R395). The half that executes it and the fetched command. -/
  | pairUnbind (h id : Nat)
  /-- PAIR_TAKEOVER (R449). The half that executes it and the fetched command. -/
  | pairTakeover (h id : Nat)
  /-- PAIR_YIELD (R449). The half that executes it and the fetched command. -/
  | pairYield (h id : Nat)
  /-- PAIR_RESYNC (R449). The half that executes it and the fetched command. -/
  | pairResync (h id : Nat)
  /-- PAIR_STATUS (R449). The half that executes it and the fetched command. -/
  | pairStatus (h id : Nat)
  /-- PAIR_CFGTAG (R449). The half that executes it and the fetched command. -/
  | pairCfgtag (h id : Nat)
  /-- MODE_SET (R451). The half that executes it and the fetched command. -/
  | modeSet (h id : Nat)
  /-- MODE_GET (R451). The half that executes it and the fetched command. -/
  | modeGet (h id : Nat)
  /-- SCRUB_SET (R464). The half that executes it and the fetched command. -/
  | scrubSet (h id : Nat)
  /-- CLOCK_SET (R472). The half that executes it and the fetched command. -/
  | clockSet (h id : Nat)
  /-- RETRAIN_GRANT (R468). The half that executes it and the fetched command. -/
  | retrainGrant (h id : Nat)
  /-- SELFTEST_SET (R452). The half that executes it and the fetched command. -/
  | selftestSet (h id : Nat)
  /-- TELEMETRY_READ (R483). The half that executes it and the fetched command. -/
  | telemetryRead (h id : Nat)
  /-- LC_STATUS (R453). The half that executes it and the fetched command. -/
  | lcStatus (h id : Nat)
  /-- LC_ADVANCE (R513). The half that executes it and the fetched command. -/
  | lcAdvance (h id : Nat)
  /-- IDENTITY_READ (R453). The half that executes it and the fetched command. -/
  | identityRead (h id : Nat)
  /-- DBGKEY_SET (R453). The half that executes it and the fetched command. -/
  | dbgkeySet (h id : Nat)
  /-- DBG_REVOKE (R453). The half that executes it and the fetched command. -/
  | dbgRevoke (h id : Nat)
  /-- I3C_COMMAND (R458). The bytes of the private write. -/
  | i3cCommand (b : List Byte)
  /-- I3C_HEALTH_READ (R460). The write of 0x80 and the read. -/
  | i3cHealthRead
  /-- COUNTER_READ_CLEAR (R364). The device physical address at which the register begins. -/
  | counterReadClear (pa : Nat)
  /-- REGISTER_WRITE (R8). The device physical address at which the register begins, the value, and whether the writer
  is at Machine privilege. -/
  | registerWrite (pa x : Nat) (mach : Bool)
  /-- TRIMMER_PATROL (R462). Half `h`; the line read has no error (0), a corrected one (1) or an uncorrectable one. -/
  | trimmerPatrol (h err : Nat)
  /-- SCRUB_LEVEL_ADJUST (R463). Half `h`. -/
  | scrubLevelAdjust (h : Nat)
  /-- SRAM_SCRUB (R466). A register-store entry, or a device physical address; no error (0), a corrected one (1) or an
  uncorrectable one (2). -/
  | sramScrub (reg : Bool) (a err : Nat)
  /-- RETRAIN_DUE (R467). Half, channel; `temp` when its temperature has moved 10 degrees C. -/
  | retrainDue (h c : Nat) (temp : Bool)
  /-- RETRAIN_STEP (R467). Half and channel. -/
  | retrainStep (h c : Nat)
  /-- RETRAIN_FORCE (R468). Half and channel. -/
  | retrainForce (h c : Nat)
  /-- RETRAIN_COMPLETE (R469). Half, channel, and whether the retraining succeeded. -/
  | retrainComplete (h c : Nat) (ok : Bool)
  /-- ISLAND_CLOCK_STEP (R472). The cluster (16 × half + cluster); the monitor reports margin at the next step, and at
  the present frequency. -/
  | islandClockStep (c : Nat) (up here : Bool)
  /-- DROOP (R31). The cluster, and the steps it falls by. -/
  | droop (c n : Nat)
  /-- CLOCK_CALIBRATION_END (R32). The cluster. -/
  | clockCalibrationEnd (c : Nat)
  /-- THERMAL_CAP_STEP (R473). Half `h`. -/
  | thermalCapStep (h : Nat)
  /-- VOLTAGE_STEP (R474). Half, direction, and whether the regulator answered. -/
  | voltageStep (h : Nat) (up ok : Bool)
  /-- AVSBUS_RETRY (R553). Half, and whether the regulator answered. -/
  | avsbusRetry (h : Nat) (ok : Bool)
  /-- SWEEP_QUEUE (R477). The tenant. -/
  | sweepQueue (t : Nat)
  /-- SWEEP_START (R478). -/
  | sweepStart
  /-- SNUFFER_GRANULE (R478). Half `h`. -/
  | snufferGranule (h : Nat)
  /-- SWEEP_COMPLETE (R478). -/
  | sweepComplete
  /-- TELEMETRY_PAGE (R483). Half `h`. -/
  | telemetryPage (h : Nat)
  /-- SLICE_START (R484). Half, and whether clock and voltage allow the test. -/
  | sliceStart (h : Nat) (cond : Bool)
  /-- SLICE_DRAIN_TIMEOUT (R486). Half `h`. -/
  | sliceDrainTimeout (h : Nat)
  /-- SLICE_TEST_END (R488). Half, and whether MISR and completion bit are as stored. -/
  | sliceTestEnd (h : Nat) (pass : Bool)
  /-- SLICE_ABANDON (R487). Half `h`. -/
  | sliceAbandon (h : Nat)
  /-- POWER_ON_RESET (R495). The bits that fail to clear in the ledger slot being programmed, if one is. -/
  | powerOnReset (torn : Option Nat)
  /-- RESET_N (R495). The bits that fail to clear in the ledger slot being programmed, if one is. -/
  | resetN (torn : Option Nat)
  /-- HALF_RESET (R495). Half `h`. -/
  | halfReset (h : Nat)
  /-- SERVICE_CORE_RESET (R523). Half `h`. -/
  | serviceCoreReset (h : Nat)
  /-- CLUSTER_RESET (R498). The cluster (16 × half + cluster), and the lines not written back in time. -/
  | clusterReset (c : Nat) (dirty : List Nat)
  /-- CORE_RESET (R499). The core. -/
  | coreReset (k : Nat)
  /-- RESET_RELEASE (R500). 0: RESET_N, with the strap balls; 1: half `u`; 2: cluster `u`; 3: core `u`; 4: the service
  core of half `u`. -/
  | resetRelease (kind u straps : Nat)
  /-- DDR_INIT_DONE (R559). Half, density code of every channel (0 when they differ), and a bit for each channel that
  failed. -/
  | ddrInitDone (h dens fail : Nat)
  /-- TAG_REGION_ZEROED (R502). Half `h`. -/
  | tagRegionZeroed (h : Nat)
  /-- ZERO_PASS_LINE (R502). Half `h`. -/
  | zeroPassLine (h : Nat)
  /-- ZERO_PASS_DONE (R502). Half `h`. -/
  | zeroPassDone (h : Nat)
  /-- SUMMARY_BLOCK_FIRST_WRITE (R503). A device physical address in the block. -/
  | summaryBlockFirstWrite (a : Nat)
  /-- BOOT_TASK_START (R507). Half `h`. -/
  | bootTaskStart (h : Nat)
  /-- IMAGE_VERIFY (R507). Half, and the image and signature in the boot flash. -/
  | imageVerify (h : Nat) (img sig : List Byte)
  /-- VIGIL_LEDGER_RECOVERY (R390). The ledger flash has `sectors` sectors of 64 KiB. -/
  | vigilLedgerRecovery (sectors : Nat)
  /-- CORE_WATCHDOG (R518). The core, and those of its tasks that R173 holds. -/
  | coreWatchdog (v : CoreView)
  /-- CLUSTER_WATCHDOG (R519). The cluster, whether its local memory answers, and where the search for new places
  begins. -/
  | clusterWatchdog (c : Nat) (answers : Bool) (pick : Nat)
  /-- CLUSTER_PROBE (R519). The cluster, and whether it answers. -/
  | clusterProbe (c : Nat) (ok : Bool)
  /-- DRAM_REQUEST_TIMEOUT (R521). Whose request. -/
  | dramRequestTimeout (r : DramReq)
  /-- SWDOG_EXPIRY (R523). Half `h`. -/
  | swdogExpiry (h : Nat)
  /-- SWDOG_KICK (R523). Half `h`. -/
  | swdogKick (h : Nat)
  /-- THERMAL_TRIP (R524). -/
  | thermalTrip
  /-- ETH_QMODE_WRITE (R562). The half, and the value written to ETH_CFG. -/
  | ethQmodeWrite (h x : Nat)
  /-- PORT_LINK_CHANGE (R563). The half, the port, and whether its receiver is aligned. -/
  | portLinkChange (h p : Nat) (up : Bool)
  /-- TAPER_STATUS (R536). SEQ and payload of the request; repeated, the request that waits goes on. -/
  | taperStatus (seq : Nat) (p : List Byte)
  /-- TAPER_ATTN (R537). SEQ and payload of the request; repeated, the request that waits goes on. -/
  | taperAttn (seq : Nat) (p : List Byte)
  /-- TAPER_CHALLENGE (R532). SEQ and payload of the request; repeated, the request that waits goes on. -/
  | taperChallenge (seq : Nat) (p : List Byte)
  /-- SESSION_OPEN (R533). SEQ and payload of the request; repeated, the request that waits goes on. -/
  | sessionOpen (seq : Nat) (p : List Byte)
  /-- SESSION_CLOSE (R536). SEQ and payload of the request; repeated, the request that waits goes on. -/
  | sessionClose (seq : Nat) (p : List Byte)
  /-- SESSION_EXPIRY (R536). NOTAFTER has passed. -/
  | sessionExpiry
  /-- TAPER_HALT (R538). SEQ and payload of the request; repeated, the request that waits goes on. -/
  | taperHalt (seq : Nat) (p : List Byte)
  /-- HALT_TAKEN (R538). The task. -/
  | haltTaken (t : Nat)
  /-- TAPER_RESUME (R541). SEQ and payload of the request; repeated, the request that waits goes on. -/
  | taperResume (seq : Nat) (p : List Byte)
  /-- TAPER_STEP (R541). SEQ and payload of the request; repeated, the request that waits goes on. -/
  | taperStep (seq : Nat) (p : List Byte)
  /-- TAPER_DRAIN (R539). SEQ and payload of the request; repeated, the request that waits goes on. -/
  | taperDrain (seq : Nat) (p : List Byte)
  /-- REG_READ (R540). SEQ and payload of the request; repeated, the request that waits goes on. -/
  | regRead (seq : Nat) (p : List Byte)
  /-- REG_WRITE (R540). SEQ and payload of the request; repeated, the request that waits goes on. -/
  | regWrite (seq : Nat) (p : List Byte)
  /-- REG_SETADDR (R540). SEQ and payload of the request; repeated, the request that waits goes on. -/
  | regSetaddr (seq : Nat) (p : List Byte)
  /-- DBG_WRITE (R543). SEQ and payload of the request; repeated, the request that waits goes on. -/
  | dbgWrite (seq : Nat) (p : List Byte)
  /-- DBG_READ (R532). SEQ and payload of the request; repeated, the request that waits goes on. -/
  | dbgRead (seq : Nat) (p : List Byte)
  /-- TAPER_MEM_READ (R535). SEQ and payload of the request; repeated, the request that waits goes on. -/
  | taperMemRead (seq : Nat) (p : List Byte)
  /-- TAPER_MEM_WRITE (R535). SEQ and payload of the request; repeated, the request that waits goes on. -/
  | taperMemWrite (seq : Nat) (p : List Byte)
  /-- TAPER_RESPONSE_TIMEOUT (R530). The request that waits. -/
  | taperResponseTimeout
  /-- BAD_PACKET (R530). The bytes of the request. -/
  | badPacket (b : List Byte)
  /-- BYPASS (R547). What is shifted in. -/
  | bypass (x : Nat)
  /-- IDCODE (R547). No operand. -/
  | idcode
  /-- SAMPLE_PRELOAD (R547). What the balls carry, and what is shifted in. -/
  | samplePreload (balls x : Nat)
  /-- EXTEST (R547). What the balls carry, and what is shifted in. -/
  | extest (balls x : Nat)
  /-- CLAMP (R547). What is shifted in. -/
  | clamp (x : Nat)
  /-- HIGHZ (R547). What is shifted in. -/
  | highz (x : Nat)
  /-- MIRROR_LINK_UP (R402). Half `h`. -/
  | mirrorLinkUp (h : Nat)
  /-- PCIE_LINK_UP (R567). The half, the speed code of PCIE_STAT and the number of lanes. -/
  | pcieLinkUp (h speed width : Nat)
  /-- PCIE_INBOUND_ACCESS (R417). The half whose endpoint it comes through, where the request goes, what it is, and whether a DRAM
  request of it expires. -/
  | pcieInboundAccess (h : Nat) (at_ : BarAddr) (r : Inbound) (late : Bool)
  /-- PCIE_CONFIG_WRITE (R566). The half, whether it is the power state or the completion-timeout value, and the
  value. -/
  | pcieConfigWrite (h : Nat) (power : Bool) (x : Nat)
  /-- I3C_CCC (R458). The code, and the address, event bits or length it carries. -/
  | i3cCcc (c : Ccc) (x : Nat)
  /-- WICK_FLIT_SEND (R23). Half `h`. -/
  | wickFlitSend (h : Nat)
  /-- MIRROR_CELL_SEND (R401). Half `h`. -/
  | mirrorCellSend (h : Nat)
  /-- WICK_PACKET_FRAME_ARRIVAL (R42). Half `h`; `pick` is the buffer the engine would take. -/
  | wickPacketFrameArrival (h pick : Nat)
  /-- JUNCTION_SENSOR_READ (R557). Half, and its eight sensors in 1/8 degrees C. -/
  | junctionSensorRead (h : Nat) (t : List Int)
deriving DecidableEq, Repr

end Sys2Proof
end

