-- ==== Sys2Proof/Decode.lean ====
section
/-! DEFINITION. The words of the operation table. No row of the table gives bits to its command: no word spells one. -/

namespace Sys2Proof

/-- The command that a word spells by the table's bits: none, since the table gives no row bits. -/
def decodeTableWord (_nbits _w : Nat) : Option Instr := none

end Sys2Proof
end

