-- ==== Sys2Proof/Machine/Bits.lean ====
section
/-! DEFINITION. Bit fields, sign extension and byte order (little-endian, R6) on natural numbers and words. -/

namespace Sys2Proof.Machine

/-- The `w`-bit field of `n` that begins at bit `lo`. -/
def bf (n lo w : Nat) : Nat := (n >>> lo) % 2 ^ w

/-- Bit `i` of `n`. -/
def tb (n i : Nat) : Bool := n.testBit i

/-- `n` with the `w`-bit field at bit `lo` replaced by the low `w` bits of `v`. -/
def bfSet (n lo w v : Nat) : Nat := n - bf n lo w * 2 ^ lo + (v % 2 ^ w) * 2 ^ lo

/-- 1 for true, 0 for false. -/
def b2n (b : Bool) : Nat := if b then 1 else 0

/-- The `w`-bit number `n` read as two's complement. -/
def sInt (w n : Nat) : Int := if tb n (w - 1) then Int.ofNat (n % 2 ^ w) - Int.ofNat (2 ^ w) else Int.ofNat (n % 2 ^ w)

/-- The `w`-bit number `n`, sign-extended to a natural number modulo 2^`m`. -/
def sExt (w m n : Nat) : Nat := if tb n (w - 1) then (n % 2 ^ w + 2 ^ m - 2 ^ w) % 2 ^ m else n % 2 ^ w

/-- An integer reduced modulo 2^64. -/
def w64 (i : Int) : Word := BitVec.ofInt 64 i

/-- The value of a list of bytes, first byte least significant (R6). -/
def leNat : List Byte → Nat
  | [] => 0
  | b :: r => b.toNat + 256 * leNat r

/-- The `n` low bytes of `v`, least significant first (R6). -/
def leBytes : Nat → Nat → List Byte
  | 0, _ => []
  | n + 1, v => BitVec.ofNat 8 v :: leBytes n (v / 256)

/-- The value of a list of bytes, first byte most significant (wire order, R6). -/
def beNat (l : List Byte) : Nat := leNat l.reverse

/-- The `n` low bytes of `v`, most significant first (wire order, R6). -/
def beBytes (n v : Nat) : List Byte := (leBytes n v).reverse

/-- The bytes of `l` from offset `o`, `n` of them, zero beyond the end. -/
def sliceB (l : List Byte) (o n : Nat) : List Byte :=
  ((l.drop o).take n) ++ List.replicate (n - (l.length - o)) 0

/-- The little-endian number in bytes `o` to `o + n - 1` of `l`. -/
def fieldB (l : List Byte) (o n : Nat) : Nat := leNat (sliceB l o n)

/-- `l` with the bytes from offset `o` replaced by `d` (`l` keeps its length). -/
def spliceB (l : List Byte) (o : Nat) (d : List Byte) : List Byte :=
  (l.take o ++ d ++ l.drop (o + d.length)).take l.length

/-- `n` rounded down to a multiple of `k`. -/
def alignDown (n k : Nat) : Nat := n - n % k

/-- `n` rounded up to a multiple of `k`. -/
def alignUp (n k : Nat) : Nat := alignDown (n + (k - 1)) k

/-- The smaller of a saturating sum and its limit. -/
def satAdd (limit a b : Nat) : Nat := min limit (a + b)

/-- The base-2 logarithm of `n`, rounded up: the least `k ≤ fuel` with `n ≤ 2^k`. -/
def clog2 : Nat → Nat → Nat
  | 0, _ => 0
  | f + 1, n => if n ≤ 1 then 0 else 1 + clog2 f ((n + 1) / 2)

/-- The number of significant bits of `n`, looking at `fuel` bits. -/
def sigBits : Nat → Nat → Nat
  | 0, _ => 0
  | f + 1, n => if n = 0 then 0 else 1 + sigBits f (n / 2)

/-- The number of one bits among the low `fuel` bits of `n`. -/
def popCount : Nat → Nat → Nat
  | 0, _ => 0
  | f + 1, n => n % 2 + popCount f (n / 2)

/-- The low `fuel` bits of `n` in reverse order. -/
def revBits : Nat → Nat → Nat
  | 0, _ => 0
  | f + 1, n => (n % 2) * 2 ^ f + revBits f (n / 2)

/-- The least index below `fuel` of a one bit of `n`, or `fuel`. -/
def trailZeros : Nat → Nat → Nat
  | 0, _ => 0
  | f + 1, n => if n % 2 = 1 then 0 else 1 + trailZeros f (n / 2)

/-- CRC-16 with polynomial 0x8BB7, most significant bit first, one byte (R19, R400). -/
def crc16Byte (crc : Nat) (b : Nat) : Nat :=
  (List.range 8).foldl (fun c _ => if tb c 15 then ((c * 2) % 65536) ^^^ 0x8BB7 else (c * 2) % 65536)
    (crc ^^^ (b * 256))

/-- CRC-16 with polynomial 0x8BB7 and initial value 0xFFFF over bytes (R19, R400). -/
def crc16 (l : List Byte) : Nat := l.foldl (fun c b => crc16Byte c b.toNat) 0xFFFF

end Sys2Proof.Machine
end

