-- ==== Sys2Proof/Machine/AdrusTab.lean ====
section
/-! DEFINITION. The opcodes of Adrus (R432 to R453): what each allows in its submission entry (R421 to R424). -/

namespace Sys2Proof.Machine

/-- An opcode: number, form of TARGET (0 none, 1 a path of LEN 2, 2 a path, 3 a compartment ID, 4 either), least and most
LEN of a path, FLAGS bits beyond ORDERED, TGT_COMP and NOIRQ, † (R427), fast (R428), whether DPTR names an input, Bound in
nanoseconds, and the defined bits of PARAM (bit 0 is bit 0 of byte 16). -/
structure OpInfo where
  op : Nat
  form : Nat
  lo : Nat
  hi : Nat
  flags : Nat
  dagger : Bool
  fast : Bool
  input : Bool
  bound : Nat
  mask : Nat
deriving DecidableEq, Repr

/-- The opcodes of group 0x00xx. -/
def ops0 : List OpInfo :=
  [⟨0x0, 0, 1, 5, 0, false, false, false, 10000, 0x0⟩,
   ⟨0x1, 1, 2, 2, 0, false, false, false, 50000, 0xffffffffffffffffffffffff000000000000000000000000000000000000000000000000000000000000000000000000⟩,
   ⟨0x2, 0, 1, 5, 0, false, false, false, 50000, 0xffffffffffffffffffffffffffffffff00ffffffffff01ff⟩,
   ⟨0x3, 0, 1, 5, 0, false, false, false, 1000000000, 0xff⟩,
   ⟨0x4, 0, 1, 5, 0, false, false, false, 20000, 0x0⟩,
   ⟨0x5, 0, 1, 5, 0, false, false, false, 0, 0xffffffffffffffffffffffff000000000000000000000000000000000000000000000000000000000000000000000000⟩,
   ⟨0x6, 2, 2, 4, 8, false, false, false, 200000000, 0x0⟩,
   ⟨0x7, 1, 2, 2, 0, false, false, false, 100000, 0xffffffffffffffff⟩] ++
  [⟨0x8, 1, 2, 2, 0, false, false, false, 100000, 0x1ffffffffffffffffffffffffffffffff⟩]

/-- The opcodes of group 0x01xx. -/
def ops1 : List OpInfo :=
  [⟨0x100, 0, 1, 5, 0, false, false, false, 200000, 0xffffffffffffffffffffffffffffffff0000000001ffffff⟩,
   ⟨0x101, 0, 1, 5, 0, false, false, false, 200000, 0xffff⟩,
   ⟨0x102, 0, 1, 5, 0, false, false, false, 100000, 0xffffffffffffffffffffffffffffffff0000000301ffffff⟩,
   ⟨0x103, 3, 1, 5, 0, false, false, true, 100000, 0xffffffffffffffffffffffff000000000000000000000000000000000000000000000000000000000000000000000000⟩,
   ⟨0x104, 3, 1, 5, 0, false, false, false, 1000000, 0x0⟩,
   ⟨0x105, 4, 1, 5, 0, false, false, false, 1000000, 0x0⟩,
   ⟨0x106, 4, 1, 5, 0, false, false, false, 1000000, 0x0⟩,
   ⟨0x107, 3, 1, 5, 0, false, false, false, 100000, 0x0⟩] ++
  [⟨0x108, 3, 1, 5, 0, false, false, false, 1000000, 0xff⟩,
   ⟨0x109, 3, 1, 5, 0, false, false, false, 50000, 0xffff⟩,
   ⟨0x10a, 3, 1, 5, 0, false, false, false, 50000, 0x301ffffffff⟩,
   ⟨0x10b, 3, 1, 5, 0, false, false, false, 50000, 0x0⟩,
   ⟨0x10c, 2, 3, 3, 0, false, false, false, 20000, 0xff⟩]

/-- The opcodes of group 0x02xx. -/
def ops2 : List OpInfo :=
  [⟨0x200, 1, 2, 2, 0, false, false, false, 50000, 0xffffffffffffffff⟩,
   ⟨0x201, 1, 2, 2, 0, false, false, false, 50000, 0xffffffffffffffffffffffff0000ffff⟩,
   ⟨0x202, 3, 1, 5, 0, false, false, false, 50000, 0xffffffffffffffffffffffffffffffffffffffffffffffffffffffffffffffff00000000000000ff⟩,
   ⟨0x203, 0, 1, 5, 0, false, false, false, 25000, 0xffffffffffffffffffffffffffffffff0000000003ffffff⟩,
   ⟨0x204, 0, 1, 5, 0, false, false, false, 100000, 0xffffffffffffffffffffffffffffffff000000000000ffff⟩,
   ⟨0x205, 0, 1, 5, 0, false, false, false, 100000, 0xffff⟩,
   ⟨0x206, 1, 2, 2, 0, false, false, false, 20000, 0xffff00ff⟩,
   ⟨0x207, 1, 2, 2, 0, false, false, false, 100000, 0xffffffffffffffffffffffff0000000000000000000000000000000000000000ffffffffffffffff0000000000000000⟩] ++
  [⟨0x208, 1, 2, 2, 0, false, false, true, 100000, 0xffffffffffffffffffffffff0000000000000000000000000000000000000000ffffffffffffffff0000000000000000⟩]

/-- The opcodes of group 0x03xx. -/
def ops3 : List OpInfo :=
  [⟨0x300, 1, 2, 2, 16, false, true, false, 20000, 0x3ffffff7ffffffffffffffffffffffffffffffffffffffffffffffffffffffffffffffffffffffffffffffffff⟩,
   ⟨0x301, 1, 2, 2, 0, false, true, false, 20000, 0x7feffffffffffffffffffffffffffffffffffffffffffffffffffffffffffffffffffffffffffffffff⟩,
   ⟨0x302, 1, 2, 2, 0, false, true, false, 20000, 0x7feffffffffffffffffffffffffffffffffffffffffffffffffffffffffffffffffffffffffffffffff⟩,
   ⟨0x304, 1, 2, 2, 0, false, false, false, 500000000, 0x1ffff⟩,
   ⟨0x305, 1, 2, 2, 0, false, false, true, 50000, 0xffffffffffffffffffffffff00000000000000000000000000000000000000000000000000000000000000000000ffff⟩,
   ⟨0x306, 1, 2, 2, 0, false, false, false, 50000, 0x1ffffffff⟩,
   ⟨0x307, 1, 2, 2, 0, false, false, true, 50000, 0xffffffffffffffffffffffff0000000000000000000000000000000000000000000000000000000000000000ffffffff⟩,
   ⟨0x308, 1, 2, 2, 0, false, false, true, 200000, 0xffffffffffffffffffffffff00000000000000000000000000000000000000000000000000000000000000000001ffff⟩] ++
  [⟨0x309, 1, 2, 2, 0, false, false, false, 20000, 0xffffffff000000ff⟩,
   ⟨0x30a, 0, 1, 5, 0, false, false, false, 50000, 0xffffffffffffffffffffffffffffffffffffffffffffffffffffffffffffffff⟩,
   ⟨0x30b, 1, 2, 2, 0, false, false, false, 20000, 0xffff⟩,
   ⟨0x30c, 1, 2, 2, 0, false, false, false, 50000, 0xffffffffffffffff000000ff⟩,
   ⟨0x30d, 1, 2, 2, 0, false, false, false, 50000, 0xffffffffffffffffffffffff00ff01ff⟩,
   ⟨0x30e, 1, 2, 2, 0, false, false, true, 50000, 0xffffffffffffffffffffffff00000000000000000000000000000000000000000000000000000000000000000000ffff⟩]

/-- The opcodes of group 0x04xx. -/
def ops4 : List OpInfo :=
  [⟨0x400, 1, 2, 2, 0, false, true, false, 20000, 0xffffffffffffffffffffffff00000000000000000000000000000000000000000000000000000000000000000000ffff⟩,
   ⟨0x401, 1, 2, 2, 0, false, false, false, 20000, 0xffffffffffffffff00ffffff⟩,
   ⟨0x402, 0, 1, 5, 0, false, false, false, 50000, 0xffffffffffffffff⟩,
   ⟨0x403, 0, 1, 5, 0, true, false, false, 1000000, 0xffffffffffffffffffffffff000000000000000000000000000000000000000000000000000000000000000000000000⟩,
   ⟨0x404, 0, 1, 5, 0, true, false, false, 50000, 0xffffffffffffffffffffffffffffffffffffffffffffffffffffffffffffffff⟩,
   ⟨0x405, 0, 1, 5, 0, true, false, true, 1000000, 0xffffffffffffffffffffffff00000000000000000000000000000000000000000000000000000000ffffffffffffffff⟩,
   ⟨0x406, 0, 1, 5, 0, true, false, false, 20000, 0x0⟩,
   ⟨0x407, 0, 1, 5, 0, true, false, false, 1000000, 0xffffffffffffffffffffffff0000000000000000000000000000000000000000000000000000000000000000ffffffff⟩]

/-- The opcodes of group 0x05xx. -/
def ops5 : List OpInfo :=
  [⟨0x500, 0, 1, 5, 0, false, false, false, 100000, 0xffffffffffff⟩,
   ⟨0x501, 0, 1, 5, 0, false, false, false, 100000, 0x0⟩,
   ⟨0x502, 0, 1, 5, 8, false, false, false, 50000, 0x0⟩,
   ⟨0x503, 0, 1, 5, 0, false, false, false, 50000, 0x0⟩,
   ⟨0x504, 0, 1, 5, 0, false, false, false, 100000, 0x0⟩,
   ⟨0x505, 0, 1, 5, 0, false, false, false, 20000, 0x0⟩,
   ⟨0x506, 0, 1, 5, 0, false, false, false, 20000, 0xffffffff⟩]

/-- The opcodes of group 0x06xx. -/
def ops6 : List OpInfo :=
  [⟨0x600, 0, 1, 5, 0, false, false, false, 100000, 0x103ff03ff⟩,
   ⟨0x601, 0, 1, 5, 0, false, false, false, 20000, 0x0⟩,
   ⟨0x602, 0, 1, 5, 0, false, false, false, 50000, 0xffffffff000000ff⟩,
   ⟨0x603, 2, 3, 3, 0, false, false, false, 50000, 0xffff⟩,
   ⟨0x604, 0, 1, 5, 0, false, false, false, 50000, 0xffffffff0000ffff⟩,
   ⟨0x605, 0, 1, 5, 0, false, false, false, 50000, 0xffffffff00000001⟩,
   ⟨0x606, 0, 1, 5, 0, false, false, false, 1000000, 0xffffffffffffffffffffffff0000000000000000000000000000000000000000000000000000000000000000000000ff⟩]

/-- The opcodes of group 0x07xx. -/
def ops7 : List OpInfo :=
  [⟨0x700, 0, 1, 5, 0, false, false, false, 20000, 0x0⟩,
   ⟨0x701, 0, 1, 5, 0, false, false, false, 100000, 0xffffffff000000ff⟩,
   ⟨0x702, 0, 1, 5, 0, false, false, false, 2000000, 0xffffffffffffffffffffffff00000000ffffffffffffffffffffffffffffffffffffffffffffffffffffffffffffffff⟩,
   ⟨0x703, 0, 1, 5, 0, false, false, false, 50000, 0xffffffffffffffffffffffffffffffffffffffffffffffffffffffffffffffff000000000000ffff⟩,
   ⟨0x704, 0, 1, 5, 0, false, false, false, 50000, 0xffff⟩]

/-- Every opcode. -/
def opTable : List OpInfo := ops0 ++ ops1 ++ ops2 ++ ops3 ++ ops4 ++ ops5 ++ ops6 ++ ops7

/-- The row of an opcode. -/
def opInfo (op : Nat) : Option OpInfo := opTable.find? (fun o => o.op = op)

end Sys2Proof.Machine
end

