-- ==== Sys2Proof/Machine/Map.lean ====
section
/-! DEFINITION. Sparse maps from natural numbers as plain data: a list of keys and values with strictly rising keys.
The queues, tables and register files of the block are held in this form, so that equal contents are equal data. -/

namespace Sys2Proof.Machine

/-- A sparse map: pairs with strictly rising keys. -/
abbrev NMap (α : Type) := List (Nat × α)

/-- The value stored at a key, if any. -/
def mGet? {α : Type} : NMap α → Nat → Option α
  | [], _ => none
  | (k, v) :: r, i => if i = k then some v else mGet? r i

/-- The value stored at a key, or a default. -/
def mGet {α : Type} (m : NMap α) (i : Nat) (d : α) : α := (mGet? m i).getD d

/-- Store a value at a key. -/
def mSet {α : Type} : NMap α → Nat → α → NMap α
  | [], i, v => [(i, v)]
  | (k, w) :: r, i, v =>
    if i < k then (i, v) :: (k, w) :: r
    else if i = k then (i, v) :: r
    else (k, w) :: mSet r i v

/-- Remove a key. -/
def mDel {α : Type} : NMap α → Nat → NMap α
  | [], _ => []
  | (k, w) :: r, i => if i = k then mDel r i else (k, w) :: mDel r i

/-- Store a value at a key, keeping no entry for the default. -/
def mPut {α : Type} [DecidableEq α] (m : NMap α) (i : Nat) (v d : α) : NMap α :=
  if v = d then mDel m i else mSet m i v

/-- Remove every key for which `p` holds. -/
def mDelIf {α : Type} (m : NMap α) (p : Nat → Bool) : NMap α := m.filter (fun e => !p e.1)

/-- The keys of a map lie strictly above `lo` and strictly rise. -/
def mSortedAbove {α : Type} : Nat → NMap α → Bool
  | _, [] => true
  | lo, (k, _) :: r => decide (lo < k) && mSortedAbove k r

/-- The keys of a map strictly rise. -/
def mSorted {α : Type} : NMap α → Bool
  | [] => true
  | (k, _) :: r => mSortedAbove k r

/-- One value for each half. -/
structure Two (α : Type) where
  h0 : α
  h1 : α
deriving DecidableEq, Repr

/-- The value of half `h` (half 0 for 0, half 1 otherwise). -/
def tGet {α : Type} (p : Two α) (h : Nat) : α := if h = 0 then p.h0 else p.h1

/-- Replace the value of half `h`. -/
def tSet {α : Type} (p : Two α) (h : Nat) (v : α) : Two α := if h = 0 then ⟨v, p.h1⟩ else ⟨p.h0, v⟩

end Sys2Proof.Machine
end

