-- ==== Sys2Proof/Machine/CoreTypes.lean ====
section
/-! DEFINITION. The state of tasks, cores and clusters as plain data: special registers, long operations, store
buffers, vector contexts, event queues and translation caches (chapters 03 to 10 of the specification). -/

namespace Sys2Proof.Machine

/-- The null value: tag 0, every bit 0. -/
def Cap.null : Cap := ⟨false, 0⟩

/-- A fault of one access or instruction: cause code (R217), translation stage and level (R108), FDATA. -/
structure Flt where
  code : Nat
  stage : Nat
  level : Nat
  fdata : Nat
deriving DecidableEq, Repr

/-- What a vector memory operation or a block-repeat element waits for (R298): the request ID it waits on, where it has one, the
leaf's address, whether D is wanted, since when, the tenant of the access, and the fault it fails with when the wait ends
without an acknowledgement. -/
structure AdWait where
  req : Option Nat
  leaf : Nat
  dirty : Bool
  since : Nat
  tenant : Nat
  flt : Flt
deriving DecidableEq, Repr

/-- One physically contiguous piece of an access: device physical address, length, mirrored (R281 MIR), and the leaf's ATTR
(R270: 0b01 uncached, 0b10 device). -/
structure Piece where
  pa : Nat
  len : Nat
  mir : Bool
  attr : Nat
deriving DecidableEq, Repr

/-- What a long operation does when it completes (R174). `maint` covers R153; `push` and `pop` are accesses of a 64-byte
return-stack entry or gate descriptor that lies in the other half (R95, R232), `paint` a CPAINT line there (R130). -/
inductive OpKind where
  | load | store | div | vld | vst | vldff | atomic | maint | push | pop | paint
deriving DecidableEq, Repr

/-- A long operation outstanding (R174 to R176). `id` orders issue within the core; `dst` is the register-store entry
bound at issue (R88) or the first vector register; `fn` selects the divide, atomic, maintenance or vector form; `a` and
`b` are operand values (for a vector operation sent to the other half, `a` holds how many of its elements passed), `cap`
the authorising capability of a vector operation or the second capability of a push, `data` the bytes a vector store
writes; `resp` holds a remote response: cause code (0 for none), bytes, tags of the granules read (granule 0 in bit 0).
`inst` is 0 for a long operation, 1 for a request to the other half that the task's present instruction makes (a slot of
STM or LDM, a return-stack entry, a gate descriptor: R105, R95, R232), 2 for one of its block repeat. `pass` is the
order in which the access passed the guard and `ord` the ORD it passed under (R315, R321). `bad` is the failure of element `a` of a
vector operation whose lower elements the other half has still to answer for (R212, R213). -/
structure LongOp where
  id : Nat
  kind : OpKind
  cls : Nat
  addr : Nat
  va : Nat
  pieces : List Piece
  size : Nat
  dst : Nat
  sext : Bool
  capw : Bool
  colour : Nat
  loadCap : Bool
  fpriv : Nat
  tw : Bool
  fn : Nat
  a : Cap
  b : Cap
  cap : Cap
  data : List Byte
  n : Nat
  tenant : Nat
  comp : Nat
  drop : Bool
  due : Nat
  remote : Bool
  resp : Option (Nat × List Byte × Nat)
  adWait : Option AdWait
  started : Nat
  inst : Nat
  pass : Nat
  ord : Nat
  bad : Option Flt
deriving DecidableEq, Repr

/-- A failure of a long operation not yet reported (R177, R181). -/
structure Fail where
  id : Nat
  cls : Nat
  code : Nat
  stage : Nat
  level : Nat
  fpriv : Nat
  faddr : Nat
  fdata : Nat
  tw : Bool
deriving DecidableEq, Repr

/-- Where a block repeat came from: the address of its prefix or CPAINT, STATUS.TW and the privilege at its issue (R146, R222). -/
structure RepOrg where
  addr : Nat
  tw : Bool
  fpriv : Nat
deriving DecidableEq, Repr

/-- The block repeat or CPAINT the engine runs for a task (R144, R146); RC, RSRC and RDST hold its registers. `got` holds the
bytes and tags of the accesses that the present element has made, while it waits for one of the other half. -/
structure Rep where
  org : RepOrg
  id : Nat
  adWait : Option AdWait
  got : List (List Byte × Nat)
deriving DecidableEq, Repr

/-- Where a fixed-latency result lands (R169): a register-store entry, MH and ML (the value's low and high 64 bits),
LC, LS or LE, or the bits of `mask` of a vector register of the task's context. -/
inductive LateDst where
  | entry (e : Nat) | mhml | loopReg (n : Nat) | vreg (r mask : Nat)
deriving DecidableEq, Repr

/-- A fixed-latency result not yet visible (R169): visible to readers that issue in core cycle `due` or later. -/
structure Late where
  due : Nat
  dst : LateDst
  val : Cap
deriving DecidableEq, Repr

/-- Why a bound task does not issue (R255). `waitq` holds the destination entry and predicate of the yielded WAITQ and
its place in the order of waiting; `sync` the set awaited: SYNC.M classes in bits 5:0, drained stores in bit 6, and the
loads and stores a fence covers in bits 7 and 8 (R152, R179, R277). -/
inductive Wait where
  | none | waitq (dst pd stamp : Nat) | sync (mask : Nat) | vctx
deriving DecidableEq, Repr

/-- An STM or LDM that stalls (R105, R173): how many registers it has transferred since it started or resumed, the next one, and
the mask and base register's value that it read at its issue. -/
structure Multi where
  n : Nat
  next : Nat
  mask : Nat
  base : Cap
deriving DecidableEq, Repr

/-- One task's state beside its share of the register store (R106 to R112, R163, R174 to R181, R252, R259). `org` says where the
suspended block repeat in RC came from (R146); `multi` is an STM or LDM that stalls (R105); `fresh` says that an exception handler's first instruction has still
to issue (R193). -/
structure Task where
  pcc : Cap
  epc : Cap
  rsrc : Cap
  rdst : Cap
  rsc : Cap
  status : BitVec 32
  estatus : BitVec 32
  cause : BitVec 32
  faddr : Word
  fdata : Word
  mh : Word
  ml : Word
  rc : Word
  lc : Word
  ls : Word
  le : Word
  crcpoly : Word
  vl : Word
  evmask : Word
  comp : Nat
  tenant : Nat
  bound : Option Nat
  weight : Nat
  svc : Bool
  evcount : Nat
  lastPc : Nat
  wait : Wait
  woken : Option Nat
  ops : List LongOp
  fails : List Fail
  rep : Option Rep
  org : Option RepOrg
  multi : Option Multi
  fq : List (Nat × IWord)
  ffault : Option Flt
  late : List Late
  lastOp : Option Nat
  fresh : Bool
  pairOpen : Bool
  noBp : Bool
  halted : Bool
  haltReq : Bool
  stepping : Bool
  dead : Bool
deriving DecidableEq, Repr

/-- One store in the store buffer (R183): one 16-byte entry, or two when it crosses a granule (`slots`). `checked` says that
its colour check was made in E2 (R185), `drop` that a failure of it is discarded (R223, R260). -/
structure SBEntry where
  id : Nat
  task : Nat
  slots : Nat
  pieces : List Piece
  va : Nat
  size : Nat
  val : Cap
  capw : Bool
  colour : Nat
  checked : Bool
  addr : Nat
  fpriv : Nat
  tw : Bool
  tenant : Nat
  comp : Nat
  drop : Bool
  pass : Nat
  ord : Nat
deriving DecidableEq, Repr

/-- What the hardware keeps for an unbound compartment beside its save area (R146, R179): where its suspended block repeat came
from, and which of its saved failures, if one, is of the instruction just before its PCC. -/
structure Carry where
  org : Option RepOrg
  just : Option Nat
deriving DecidableEq, Repr

/-- One vector context (R194, R198): its holder, marks and registers v0 to v31 (an unlisted register is zero). -/
structure VCtx where
  owner : Option Nat
  dirty : Bool
  zero : Bool
  regs : NMap Quad
deriving DecidableEq, Repr

/-- One entry of the branch target buffer (R186). -/
structure Btb where
  addr : Nat
  tenant : Nat
  target : Nat
  ctr : Nat
deriving DecidableEq, Repr

/-- The loop buffer's contents (R189): owner task, first and last word's address, whether the first iteration is being
recorded, and the recorded words by address. -/
structure LoopBuf where
  task : Nat
  start : Nat
  last : Nat
  filling : Bool
  words : NMap IWord
deriving DecidableEq, Repr

/-- A combined translation entry (R288): tenant, compartment, virtual base, size, physical base, permissions
(R, W, X in bits 0, 1, 2) of the block and of the leaf, the block's number and the leaf's level (R296), memory attribute,
mirrored, the leaf's D. -/
structure TlbE where
  tenant : Nat
  comp : Nat
  vbase : Nat
  size : Nat
  pbase : Nat
  bperms : Nat
  lperms : Nat
  blk : Nat
  level : Nat
  attr : Nat
  mir : Bool
  d : Bool
deriving DecidableEq, Repr

/-- One core's state beside its tasks and register store. `due` is a reset that waits for the store buffer (R499): 0 for a
command or a slice, 1 for the watchdog, 2 for a slice that marks the core failed, and since when (elapsed ns); `faultAt` is the time of its last core fault (R518). -/
structure CoreSt where
  cyc : Nat
  sb : List SBEntry
  divDue : Nat
  vctx : NMap VCtx
  vreclaims : Nat
  holder : Option Nat
  lastHolder : Nat
  slice : Nat
  btb : NMap (List Btb)
  loopBuf : Option LoopBuf
  seq : Nat
  passes : Nat
  utlb : List TlbE
  icache : NMap (List Byte)
  inReset : Bool
  failed : Bool
  drained : Bool
  testing : Bool
  lastIssue : Nat
  due : Option (Nat × Nat)
  faultAt : Option Nat
deriving DecidableEq, Repr

/-- One event (R244): its two 128-bit halves with their tags, and its class. -/
structure Ev where
  lo : Cap
  hi : Cap
  cls : Nat
deriving DecidableEq, Repr

/-- A held event-queue slot (R243): the compartment, the capacity's logarithm, the ring's place in cluster local memory
(in 64-byte units), the entries of the ring that hold queued events, oldest first, and the entry written last. The events
themselves lie in the ring. -/
structure EvSlot where
  comp : Nat
  qlog2 : Nat
  off : Nat
  ents : List Nat
  last : Nat
deriving DecidableEq, Repr

/-- An event on its way (R245): destination compartment and the QGEN its capability carries, the event, and the sending
compartment, its tenant, cluster (16 and above for none) and TASKINFO bits 43:28. `own` marks an event to the poster's
own cluster; `task` and `before` name the stores that must be performed first (R278). -/
structure OutEv where
  dst : Nat
  qgen : Nat
  ev : Ev
  scomp : Nat
  stenant : Nat
  sinfo : Nat
  scluster : Nat
  own : Bool
  task : Nat
  before : Nat
deriving DecidableEq, Repr

/-- A line of a cluster's L2 (R271): its line number, and the tenant whose store last dirtied it (R367), none when clean. What
it holds is memory's content (R272). -/
structure L2Line where
  line : Nat
  dirty : Option Nat
deriving DecidableEq, Repr

/-- A line of a half's tag cache (R76): the 4 KiB page it covers, and whether it is dirty. -/
structure TagLine where
  page : Nat
  dirty : Bool
deriving DecidableEq, Repr

/-- A walk-cache entry (R288): tenant, level of the pointer, intermediate-address bits above that level, the table. -/
structure WalkE where
  tenant : Nat
  level : Nat
  ipa : Nat
  table : Nat
deriving DecidableEq, Repr

/-- A cached stage-1 descriptor (R288): compartment, tenant, the descriptor's 256 bytes. -/
structure DescE where
  comp : Nat
  tenant : Nat
  blocks : List Byte
deriving DecidableEq, Repr

/-- A compartment record (R239) as read from the compartment table. -/
structure CompRec where
  gate : Cap
  start : Cap
  trapent : Cap
  rsc : Cap
  dsc : Cap
  save : Cap
  id : Nat
  parent : Nat
  super : Nat
  front : Nat
  tenant : Nat
  priv : Nat
  depth : Nat
  wneed : Nat
  qlog2 : Nat
  cluster : Nat
  qslot : Nat
  budget : Nat
  qgen : Nat
  flags : Nat
deriving DecidableEq, Repr

/-- One cluster's state beside its cores (R15, R30, R81, R243, R248, R288, R498, R519): `probeAt` the last probe, `noAns` the
first of the probes unanswered, `fAcc` and `fAt` the island's cycles of the present balance epoch up to a device time (in
1/1,000 cycles) and that time, `stuck` the compartments whose event waits though it could be served, with that event and
the probe that first found it so, `due` a reset that waits for write-back, as for a core. -/
structure Cluster where
  tcfg : Nat
  slots : NMap EvSlot
  outb : List OutEv
  pend : List Nat
  tlb : NMap (List TlbE)
  l2 : NMap (List L2Line)
  wcache : List WalkE
  dcache : List DescE
  freq : Nat
  calib : Bool
  inReset : Bool
  wiped : Bool
  loadCyc : Nat
  fAcc : Nat
  fAt : Nat
  probeAt : Nat
  noAns : Option Nat
  stuck : List (Nat × Ev × Nat)
  due : Option (Nat × Nat)
  waitStamp : Nat
deriving DecidableEq, Repr

end Sys2Proof.Machine
end

