-- ==== Sys2Proof/Machine/Caps.lean ====
section
/-! DEFINITION. Capabilities: fields (R44, R47), compressed bounds (R49 to R53), derivation (R54), sealing (R57 to R59)
and the checks of R61 that need no memory. -/

namespace Sys2Proof.Machine

/-- Cursor, bits 63:0 (R44). -/
def Cap.addr (c : Cap) : Nat := bf c.bits.toNat 0 64
/-- PERM, bits 79:64 (R47). -/
def Cap.perm (c : Cap) : Nat := bf c.bits.toNat 64 16
/-- OTYPE, bits 91:80 (R57). -/
def Cap.otype (c : Cap) : Nat := bf c.bits.toNat 80 12
/-- COLOUR, bits 95:92 (R68). -/
def Cap.colour (c : Cap) : Nat := bf c.bits.toNat 92 4
/-- L, bits 106:96 (R49). -/
def Cap.l (c : Cap) : Nat := bf c.bits.toNat 96 11
/-- B, bits 117:107 (R49). -/
def Cap.b (c : Cap) : Nat := bf c.bits.toNat 107 11
/-- E, bits 123:118 (R49). -/
def Cap.e (c : Cap) : Nat := bf c.bits.toNat 118 6
/-- EPOCH, bits 125:124 (R71). -/
def Cap.epoch (c : Cap) : Nat := bf c.bits.toNat 124 2
/-- Bits 127:126, reserved (R44). -/
def Cap.rsv (c : Cap) : Nat := bf c.bits.toNat 126 2

/-- A field of a capability replaced, the tag kept. -/
def Cap.put (c : Cap) (lo w v : Nat) : Cap := { c with bits := BitVec.ofNat 128 (bfSet c.bits.toNat lo w v) }
/-- The same value with another tag. -/
def Cap.withTag (c : Cap) (t : Bool) : Cap := { c with tag := t }

/-- Permission bit numbers (R47). -/
def pLoad : Nat := 0
def pStore : Nat := 1
def pExec : Nat := 2
def pLoadCap : Nat := 3
def pStoreCap : Nat := 4
def pStoreLocal : Nat := 5
def pSeal : Nat := 6
def pUnseal : Nat := 7
def pSystem : Nat := 8
def pGlobal : Nat := 9
def pDebug : Nat := 10
def pMeter : Nat := 11
def pPacket : Nat := 12
def pDma : Nat := 13

/-- The capability has permission bit `n`. -/
def Cap.has (c : Cap) (n : Nat) : Bool := tb c.perm n

/-- R50 and R51: the base and the 65-bit top of the region for given e, b, l and cursor. -/
def decodeBounds (e b l addr : Nat) : Nat × Nat :=
  if e ≥ 54 ∧ e ≠ 63 then (0, 0)
  else
    let ee := if e = 63 then 0 else e
    let gc := addr >>> ee
    let d := (gc + 64 + 2048 - b) % 2048
    let gb := (gc + 64 + 2 ^ (64 - ee) - d) % 2 ^ (64 - ee)
    let base := gb <<< ee
    if e = 63 then (base, base) else (base, base + ((if l = 0 then 2048 else l) <<< ee))

/-- R50 of a capability. -/
def Cap.decode (c : Cap) : Nat × Nat := decodeBounds c.e c.b c.l c.addr
/-- The base (R50). -/
def Cap.base (c : Cap) : Nat := c.decode.1
/-- The top (R50). -/
def Cap.top (c : Cap) : Nat := c.decode.2

/-- R52: the cursor `x` is representable for the metadata of `c`. -/
def Cap.representable (c : Cap) (x : Nat) : Bool := decodeBounds c.e c.b c.l x == c.decode

/-- The result of R53: e, b, l, base and top. -/
structure Enc where
  e : Nat
  b : Nat
  l : Nat
  base : Nat
  top : Nat
deriving DecidableEq, Repr

/-- The loop of R53 over the exponent. -/
def encodeFrom (rbase rtop : Nat) : Nat → Nat → Enc
  | 0, e => let g := 2 ^ e
            let bl := alignDown rbase g
            let tl := alignUp rtop g
            ⟨e, (bl >>> e) % 2048, ((tl - bl) >>> e) % 2048, bl, tl⟩
  | f + 1, e =>
    let g := 2 ^ e
    let bl := alignDown rbase g
    let tl := alignUp rtop g
    if tl - bl ≤ 2048 * g ∨ e = 53 then ⟨e, (bl >>> e) % 2048, ((tl - bl) >>> e) % 2048, bl, tl⟩
    else encodeFrom rbase rtop f (e + 1)

/-- R53. -/
def encodeBounds (rbase len : Nat) : Enc :=
  if len = 0 then ⟨63, rbase % 2048, 0, rbase, rbase⟩ else encodeFrom rbase (rbase + len) 53 0

/-- R48, R51: the reserved permission and top bits are zero, and E is none of 54 to 62. -/
def Cap.clean (c : Cap) : Bool := c.perm < 2 ^ 14 && c.rsv = 0 && (c.e ≤ 53 || c.e = 63)

/-- cpos of R54. -/
def cpos (cs : Cap) (x : Nat) : Cap :=
  let cd := cs.put 0 64 x
  cd.withTag (cs.tag && cs.otype = 0 && cs.representable (x % 2 ^ 64) && cd.clean)

/-- cadv of R54. -/
def cadv (cs : Cap) (x : Nat) : Cap := cpos cs ((cs.addr + x) % 2 ^ 64)

/-- The bounds fields of `cs` replaced by an encoding. -/
def Cap.putBounds (cs : Cap) (r : Enc) : Cap := ((cs.put 118 6 r.e).put 107 11 r.b).put 96 11 r.l

/-- ccut of R54. A result whose cursor is not representable for its bounds has tag 0. -/
def ccut (cs : Cap) (n : Nat) : Cap :=
  let r := encodeBounds cs.addr n
  let cd := cs.putBounds r
  cd.withTag (cs.tag && cs.otype = 0 && cs.base ≤ r.base && r.top ≤ cs.top && cd.decode == (r.base, r.top) && cd.clean)

/-- cfit of R54. -/
def cfit (cs : Cap) (n : Nat) : Cap :=
  let r := encodeBounds cs.addr n
  let cd := ccut cs n
  cd.withTag (cd.tag && r.base = cs.addr && r.top = cs.addr + n)

/-- cdrop of R54. -/
def cdrop (cs : Cap) (m : Nat) : Cap :=
  let cd := cs.put 64 16 (cs.perm &&& m)
  cd.withTag (cs.tag && cs.otype = 0 && cd.clean)

/-- ctint of R54. -/
def ctint (cs : Cap) (k : Nat) : Cap :=
  let cd := cs.put 92 4 k
  cd.withTag (cs.tag && cs.otype = 0 && (k % 16 = cs.colour || cs.colour = 0 || cs.has pSystem) && cd.clean)

/-- cwrap of R58. -/
def cwrap (cs ct : Cap) : Cap :=
  let cd := cs.put 80 12 ct.addr
  cd.withTag (cs.tag && cs.otype = 0 && ct.tag && ct.otype = 0 && ct.has pSeal && ct.base ≤ ct.addr &&
    ct.addr < ct.top && 1 ≤ ct.addr && ct.addr ≤ 0xffe && cd.clean)

/-- cunwrap of R58. -/
def cunwrap (cs ct : Cap) : Cap :=
  let cd := (cs.put 80 12 0).put 73 1 (b2n (cs.has pGlobal && ct.has pGlobal))
  cd.withTag (cs.tag && cs.otype != 0 && cs.otype != 0xfff && ct.tag && ct.otype = 0 && ct.has pUnseal &&
    ct.base ≤ ct.addr && ct.addr < ct.top && ct.addr = cs.otype && cd.clean)

/-- CGATE of R59: the 64-byte gate descriptor of R230 at the cursor lies within bounds. -/
def cgate (cs : Cap) : Cap :=
  let cd := cs.put 80 12 0xfff
  cd.withTag (cs.tag && cs.otype = 0 && cs.has pLoad && cs.has pExec && cs.addr % 16 = 0 &&
    cs.base ≤ cs.addr && cs.addr + 64 ≤ cs.top && cd.clean)

/-- Plain data: an integer with tag 0 and bits 127:64 zero (R46). -/
def Cap.ofNat (n : Nat) : Cap := ⟨false, BitVec.ofNat 128 (n % 2 ^ 64)⟩

/-- The root capability (R56). -/
def Cap.root : Cap := ⟨true, BitVec.ofNat 128 (0x3FFF * 2 ^ 64 + 53 * 2 ^ 118)⟩

/-- A capability made of a base, length, permissions and colour, cursor at `cur` (used where the specification names a
capability derived from the root). -/
def mkCap (base len perm colour cur : Nat) : Cap :=
  cpos (ctint (cdrop (ccut (cpos Cap.root base) len) perm) colour) cur

/-- The checks of R61 before translation: tag, seal, permissions `p` (bit numbers), alignment to
`align` bytes, bounds. `none` when all
pass; otherwise the cause code of R217. -/
def checkCap (c : Cap) (a n : Nat) (p : List Nat) (align : Nat) : Option Nat :=
  if !c.tag then some 0x10
  else if c.otype ≠ 0 then some 0x11
  else if p.any (fun i => !c.has i) then some 0x12
  else if a % align ≠ 0 then some 0x13
  else if a ≥ 2 ^ 48 then some 0x14
  else if a < c.base ∨ a + n > c.top then some 0x14
  else none

/-- R71: the base of a capability lies in a window [lo, hi) of 16-byte granules. -/
def Cap.baseIn (c : Cap) (lo hi : Nat) : Bool := lo ≤ c.base && c.base < hi

end Sys2Proof.Machine
end

