-- ==== Sys2Proof/Config.lean ====
section
/-! DEFINITION. What one part fixes and what the specification leaves open. A constant here has no body: nothing in
Lean can evaluate it, and a statement that holds of the model holds whatever it is (assumption log 2, 3, 4). -/

namespace Sys2Proof.Config

/-- Free values: the `n`-th open choice the specification leaves (R171, R190, R287, R294 ...). Each use applies it to
the state's counter `free`, which the step then advances (log 2). -/
opaque freeNat : Nat → Nat

/-- The `n`-th open yes-or-no choice (log 2). -/
def freeBit (n : Nat) : Bool := freeNat n % 2 = 1

/-- The part's ceiling in MHz (R1, R2): 2,400 for the XF5120-24E and 2,000 for the XF5120-20E. True means -24E. -/
opaque is24E : Bool

/-- The part's ceiling in MHz (R1, R2). -/
def ceilingMHz : Nat := if is24E then 2400 else 2000

/-- The device secret from which Ed25519 key `n` is made (R386, R453): key 0 is the identity key, key 1 + g the
ledger key of generation g. The specification gives no key's value (log 3). -/
opaque secretKey : Nat → Vector Byte 32

/-- Bytes the specification does not give: the vendor ID, the JEP106 code, firmware version numbers and the like, by
name number (log 4). -/
opaque unstated : Nat → Nat

/-- The words of the boot ROM, by word number (R505); the specification does not give them (log 4). -/
opaque bootRom : Nat → BitVec 32

/-- The SEQ of the first root of a device whose ledger flash is blank (R386, R387); not given (log 35). -/
opaque firstSeq : Nat

/-- The stepping, which IDCODE and the PCIe revision ID report (R547, R566); its value is not given (log 4). -/
opaque stepping : Nat

/-- The DDR5 channel (modulo 4) and subchannel (modulo 8, divided by 4) of a line, by line number; not given (log 52). -/
opaque channelOf : Nat → Nat

/-- The junction sensor (modulo 8) nearest a cluster of a half; not given (log 52). -/
opaque sensorOf : Nat → Nat

/-- By how many 5 mV steps above 0.70 V the core voltage must stand for margin at a step of an island's clock (R31, R474); not
given (log 113). -/
opaque marginSteps : Nat → Nat

/-- The Olurik image key that the boot ROM holds (R507); not given (log 3). -/
opaque imageKey : Vector Byte 32

/-- The entry address of a Chandler image, from its bytes; the image's format is not given (log 63). -/
opaque imageEntry : List Byte → Nat

/-- The address of a Chandler image's Service trap entry, from its bytes; not given (log 63). -/
opaque imageTrap : List Byte → Nat

/-- The local address of the firmware region that the boot ROM paints on a half; not given (log 63). -/
opaque firmwareAt : Nat → Nat

/-- The offset of the Machine trap entry in the boot ROM; not given (log 63). -/
opaque machineTrap : Nat

/-- The first of the registers in which the boot task and Chandler hold what R507 and R509 give them; not given (log 63). -/
opaque bootReg : Nat

end Sys2Proof.Config
end

