-- ==== Sys2Proof/Machine/AdrusTypes.lean ====
section
/-! DEFINITION. The state of the host command interface Adrus (chapter 14) as plain data. -/

namespace Sys2Proof.Machine

/-- A queue pair (R418 to R420, R454): bus addresses, entries, vector, coalescing; SQ head, next entry to read, tail, the
entries read; completions posted and not returned, CQ tail and head, PHASE; error; the command that deletes it (0 for a
write of CMD_Q0CFG.ENABLE, else 1 + its number); completions since the last signal and when the first was posted. -/
structure QPair where
  sq : Nat
  cq : Nat
  size : Nat
  vector : Nat
  count : Nat
  time : Nat
  high : Bool
  sqHead : Nat
  sqRead : Nat
  sqTail : Nat
  buf : List (List Byte)
  cqTail : Nat
  cqHead : Nat
  posted : Nat
  phase : Bool
  err : Bool
  del : Option Nat
  coCount : Nat
  coSince : Nat
deriving DecidableEq, Repr

/-- Where a command came from: a queue pair, the I3C target, or the other half (R427, R458). -/
inductive Src where
  | pair (q : Nat) | i3c | far
deriving DecidableEq, Repr

/-- A fetched, uncompleted command: number in its half, source, the number it has at the half that forwarded it, entry,
when it was fetched (elapsed ns), the SQ head after its fetch, whether it has started, been forwarded, been accepted by the
other half, and completed TIMEOUT; a number that its execution keeps; and, for a command that acts on both halves (R576), its
part on the other half: not sent, sent, or ended with a status and RESULT. -/
structure Cmd where
  id : Nat
  src : Src
  org : Nat
  entry : List Byte
  at_ : Nat
  sqHead : Nat
  started : Bool
  fwd : Bool
  acked : Bool
  timedOut : Bool
  aux : Nat
  part : Option (Option (Nat × List Byte))
deriving DecidableEq, Repr

/-- A completion on its way to its CQ (R425), with the buffer it writes to host memory before (R424) and the number of its command. -/
structure Compl where
  src : Src
  org : Nat
  tag : Nat
  sqHead : Nat
  status : Nat
  result : List Byte
  noirq : Bool
  dptr : Nat
  buf : List Byte
  id : Nat
deriving DecidableEq, Repr

/-- A punt or aging ring (R445): bus address, entries, slot size, vector, next entry to write, the host's head, PHASE. -/
structure Ring where
  bus : Nat
  size : Nat
  slot : Nat
  vector : Nat
  dev : Nat
  host : Nat
  full : Bool
  phase : Bool
deriving DecidableEq, Repr

/-- One half's command block: pairs, commands in fetch order, the next command's number, the pairs served last (high and
normal), completions not yet posted, rings, the MSI-X table as dwords and its pending bits (R454), what the half has written
to host memory, the PCIe completion-timeout value in Device Control 2, the MSI-X messages sent, the bytes that the last
inbound read returned (R417), and the inbound reads that wait for the other half: number and length (R265). -/
structure Adrus where
  pairs : NMap QPair
  cmds : List Cmd
  next : Nat
  rrHigh : Nat
  rrLow : Nat
  compl : List Compl
  rings : NMap Ring
  msix : NMap Nat
  pba : Nat
  host : NMap Byte
  cplTo : Nat
  irqs : Nat
  inb : List Byte
  inbOut : NMap Nat
deriving DecidableEq, Repr

/-- A command block with no queue pair. -/
def Adrus.reset : Adrus :=
  { pairs := [], cmds := [], next := 0, rrHigh := 63, rrLow := 63, compl := [], rings := [], msix := [], pba := 0
    host := [], cplTo := 0, irqs := 0, inb := [], inbOut := [] }

end Sys2Proof.Machine
end

