-- ==== Sys2Proof/Machine/BgTypes.lean ====
section
/-! DEFINITION. The state of the background services (chapter 15) and of resets in progress (chapter 16) as plain data. -/

namespace Sys2Proof.Machine

/-- One DDR5 channel (R467 to R469, R521): due since (elapsed ns), when it was last retrained, steps run of the present
retraining, running, consecutive failures, end of the granted window, forced, times of recent request expiries, last
step's end. -/
structure Chan where
  due : Option Nat
  last : Nat
  steps : Nat
  running : Bool
  fails : Nat
  grant : Nat
  forced : Bool
  expiries : List Nat
  stepEnd : Nat
deriving DecidableEq, Repr

/-- A channel after reset. -/
def Chan.reset : Chan :=
  { due := none, last := 0, steps := 0, running := false, fails := 0, grant := 0, forced := false, expiries := []
    stepEnd := 0 }

/-- A cluster island's clock (R31, R32, R471 to R473): end of calibration, last step, no rise before, thermal cap (steps
below the ceiling), and the minute's minimum, maximum and sum of MHz times ns since `acc`. -/
structure Isl where
  calibEnd : Nat
  lastStep : Nat
  hold : Nat
  cool : Nat
  fmin : Nat
  fmax : Nat
  fsum : Nat
  acc : Nat
deriving DecidableEq, Repr

/-- A self-test slice in progress (R486): its number, when it started, and whether its test runs. -/
structure Slice where
  num : Nat
  since : Nat
  testing : Bool
deriving DecidableEq, Repr

/-- The Snuffer's visit of one half in a sweep (R478): next page, next granule in it, whether the compartments' areas are
being visited, finished, abandoned by a reset. -/
structure Visit where
  page : Nat
  done : Bool
  abandoned : Bool
deriving DecidableEq, Repr

/-- A sweep in progress: its tenant and the two halves' visits. -/
structure Sweep where
  tenant : Nat
  v0 : Visit
  v1 : Visit
deriving DecidableEq, Repr

/-- One half's background services. `trimPs` and `snuffPs` say when the patrol and the Snuffer may read their next line (R463, R479), in
picoseconds of elapsed time. -/
structure Bg where
  trim : Nat
  trimPs : Nat
  snuffPs : Nat
  fullPass : Bool
  passOk : Bool
  ceWin : Nat
  ceAt : Nat
  chans : NMap Chan
  isl : NMap Isl
  temps : List Int
  tmax : List Int
  warm : Bool
  capAt : Nat
  hot : Option Nat
  vdd : Nat
  vmin : Nat
  vmax : Nat
  avsFault : Bool
  avsAt : Nat
  slice : Option Slice
  nextSlice : Nat
  sliceAt : Nat
  again : Option Nat
  lastFail : Option Nat
  bad : List Nat
  page : List Byte
  pageMin : Nat
  pageAt : Nat
  sumCe : Nat
  sumUe : Nat
  sumRet : Nat
  sumPass : Nat
  sumDef : Nat
  sumFail : Nat
  sumDroop : Nat
  sumReplay : Nat
  sumSnuff : Nat
deriving DecidableEq, Repr

/-- Background services after reset: VDD_CORE at 0.80 V (R553). -/
def Bg.reset : Bg :=
  { trim := 0, trimPs := 0, snuffPs := 0, fullPass := false, passOk := true, ceWin := 0, ceAt := 0, chans := [], isl := [], temps := [], tmax := [], warm := false, capAt := 0
    hot := none, vdd := 800, vmin := 800, vmax := 800, avsFault := false, avsAt := 0, slice := none, nextSlice := 0
    sliceAt := 0, again := none, lastFail := none, bad := [], page := [], pageMin := 0, pageAt := 0, sumCe := 0, sumUe := 0, sumRet := 0, sumPass := 0
    sumDef := 0, sumFail := 0, sumDroop := 0, sumReplay := 0, sumSnuff := 0 }

/-- One half's reset and power-up: in reset, held there by the life cycle or a thermal trip, when the reset was asserted,
whether a life-cycle reset was the last, the boot task's progress (0 held, 1 started, 2 Chandler started, 3 failed), the
next line of the zero pass, when the service-core watchdog was last kicked and when it first expired, the service core in
reset, a service-core reset and a half reset (its cause, R528) that are about to be asserted. -/
structure Half where
  inReset : Bool
  held : Bool
  since : Nat
  lcReset : Bool
  boot : Nat
  zeroNext : Nat
  kick : Nat
  swFirst : Option Nat
  svcReset : Bool
  svcDue : Bool
  due : Option Nat
deriving DecidableEq, Repr

/-- A half while power-on reset is asserted. -/
def Half.reset : Half :=
  { inReset := true, held := false, since := 0, lcReset := false, boot := 0, zeroNext := 0, kick := 0, swFirst := none
    svcReset := false, svcDue := false, due := none }

end Sys2Proof.Machine
end

