-- ==== Sys2Proof/Machine/FlowTypes.lean ====
section
/-! DEFINITION. The state of a half's flow engine (chapter 11) as plain data. -/

namespace Sys2Proof.Machine

/-- A buffer run that is not FREE (R349, R359): first buffer, number of buffers, HELD (else ENGINE), holder tenant,
compartment and virtual base, and when it was delivered (elapsed ns). -/
structure Run where
  first : Nat
  size : Nat
  held : Bool
  tenant : Nat
  comp : Nat
  vbase : Nat
  since : Nat
deriving DecidableEq, Repr

/-- A capability store that reached the hand-back window (R350): port, stored value, tenant current at its issue, and the task
and number of the store, before which the task's older stores are performed (R278). -/
structure HandBack where
  port : Nat
  cap : Cap
  tenant : Nat
  task : Nat
  before : Nat
deriving DecidableEq, Repr

/-- A frame in the engine: its run's first buffer, where it begins in the run and its length; receiving port
(device-wide), metadata flags (R329), profile, 40-byte key, H1 (R333), end-of-parse offset, RXTIME (R360), and how often its
owner-map entry had changed in its receiving half when it was steered (R336). -/
structure Frm where
  first : Nat
  off : Nat
  len : Nat
  port : Nat
  flags : Nat
  kprof : Nat
  key : List Byte
  h1 : Nat
  eop : Nat
  time : Nat
  gen : Nat
deriving DecidableEq, Repr

/-- A learn-pending entry (R354): the frame that missed, its learn template, the frames that wait behind it. -/
structure Learn where
  fr : Frm
  tpl : Nat
  waiting : List Frm
deriving DecidableEq, Repr

/-- An update that waits in the update unit (R355): 0 insert, 1 delete, 2 query, 3 flush; key, control word, FLAGS.REPLACE, and the
command's number in its half, none for an insert that Chandler makes. Of a flush, `ctl` is the tenant it names and `replace` says that
only learned entries go. -/
structure Upd where
  kind : Nat
  key : List Byte
  ctl : Nat
  replace : Bool
  cmd : Option Nat
deriving DecidableEq, Repr

/-- An aging removal (R355, R358): entry index, KEY and control word as the scan read them. -/
structure AgeUpd where
  index : Nat
  key : List Byte
  ctl : Nat
deriving DecidableEq, Repr

/-- A delivered frame whose event waits for a cluster in reset (R346): run, destination, event, template tenant, since
when (elapsed ns). -/
structure DWait where
  first : Nat
  comp : Nat
  ev : Ev
  tenant : Nat
  since : Nat
deriving DecidableEq, Repr

/-- A frame on an egress queue (R351): its bytes, the run that its last byte releases (half and first buffer), and, while it lies in
the overflow area, the DRAM lines that hold it (R362), by address; none while it is on-die. -/
structure Eg where
  bytes : List Byte
  run : Option (Nat × Nat)
  ovf : List Nat
deriving DecidableEq, Repr

/-- A line of the flow cache (R341): the index of the entry it copies, the entry's 64 bytes, and whether its LASTHIT is newer than the
table's. -/
structure CLine where
  idx : Nat
  ent : List Byte
  newer : Bool
deriving DecidableEq, Repr

/-- One half's flow engine: active node bank and the nodes of both banks (R331, by bank * 64 + node), templates (R343),
rules (R337), frames that wait for a bucket read, learn-pending entries, waiting host updates and aging removals, whether
the last of host update and learn was a host update (R355), events that wait (R346), owner-map entries being changed and
the frames held for them (R336), how often each owner-map entry has changed, egress queues, the last frame each port sent, the
policers' tokens (in 1/256) and last time in microseconds, by tenant * 8 + policer (R371), the flow cache by set (R341), and since when the
Ethernet island has passed no frame while some were queued (R404). -/
structure Flow where
  bank : Nat
  nodes : NMap (List Byte)
  tpls : NMap (List Byte)
  rules : NMap (List Byte)
  lookup : List Frm
  pend : List Learn
  hostq : List Upd
  ageq : List AgeUpd
  lastHost : Bool
  dwait : List DWait
  holds : List Nat
  held : List Frm
  ownN : NMap Nat
  egress : NMap (List Eg)
  sent : NMap (List Byte)
  pol : NMap (Nat × Nat)
  cache : NMap (List CLine)
  ethAt : Nat
deriving DecidableEq, Repr

/-- A flow engine after reset. -/
def Flow.reset : Flow :=
  { bank := 0, nodes := [], tpls := [], rules := [], lookup := [], pend := [], hostq := [], ageq := [], lastHost := false
    dwait := [], holds := [], held := [], ownN := [], egress := [], sent := [], pol := [], cache := [], ethAt := 0 }

end Sys2Proof.Machine
end

