-- ==== Sys2Proof/Machine/Memory.lean ====
section
/-! DEFINITION. Memory: data bytes over the 41-bit device physical space, tag bytes per 64-byte line, the wipe summary
and poison (R74 to R79, R265, R266, R503). An address nothing has written reads 0 (log 5). -/

namespace Sys2Proof.Machine

/-- Memory contents. `cells` holds data bytes by device physical address, `tags` one tag byte per 64-byte line by line
number (bits 3:0 granule tags, 7:4 colour, R74, R78); `sumOn` says that half's wipe has set its summary bits and
`sumClr` lists the 256 KiB blocks (device physical address / 2^18) whose bit has been cleared since (R77); `poison`
lists poisoned lines (R79, R462), and `watch` the ranges of bands under a transparent test that nothing has written since (R487). -/
structure Ram where
  cells : NMap Byte
  tags : NMap Byte
  sumOn : Two Bool
  sumClr : NMap Unit
  poison : NMap Unit
  watch : List (Nat × Nat)
  fitted : Two Nat
deriving DecidableEq, Repr

/-- Canonical form: keys strictly rise and no listed byte is 0, the value an unlisted one reads as. -/
def Ram.wf (m : Ram) : Bool :=
  mSorted m.cells && mSorted m.tags && m.cells.all (fun e => e.2 != 0) && m.tags.all (fun e => e.2 != 0)

/-- Read one data byte. -/
def Ram.rd (m : Ram) (a : Nat) : Byte := mGet m.cells a 0

/-- A write to `a` ends the watch of the band it lies in (R487). -/
def Ram.seen (m : Ram) (a : Nat) : Ram := { m with watch := m.watch.filter (fun r => !(r.1 ≤ a && a < r.2)) }

/-- Write one data byte. -/
def Ram.wr (m : Ram) (a : Nat) (b : Byte) : Ram := { m.seen a with cells := mPut m.cells a b 0 }

/-- Read `n` consecutive bytes. -/
def Ram.rdN (m : Ram) (a n : Nat) : List Byte := (List.range n).map (fun i => m.rd (a + i))

/-- Write consecutive bytes. -/
def Ram.wrN (m : Ram) (a : Nat) : List Byte → Ram
  | [] => m
  | b :: r => (m.wr a b).wrN (a + 1) r

/-- The little-endian number of `n` bytes at `a`. -/
def Ram.rdLe (m : Ram) (a n : Nat) : Nat := leNat (m.rdN a n)

/-- Write the `n` low bytes of `v` at `a`, little-endian. -/
def Ram.wrLe (m : Ram) (a n v : Nat) : Ram := m.wrN a (leBytes n v)

/-- The half of a device physical address (R265). -/
def paHalf (a : Nat) : Nat := bf a 40 1

/-- The local address (R265). -/
def paLocal (a : Nat) : Nat := a % 2 ^ 40

/-- The address lies in the DRAM window (R266). -/
def paDram (a : Nat) : Bool := paLocal a < 2 ^ 37

/-- The wipe-summary bit of the line's block is 1 (R77). -/
def Ram.summarised (m : Ram) (a : Nat) : Bool :=
  paDram a && tGet m.sumOn (paHalf a) && (mGet? m.sumClr (a / 2 ^ 18)).isNone

/-- The tag byte of the line that holds `a`: 0 while its summary bit is 1 (R77). -/
def Ram.tagByte (m : Ram) (a : Nat) : Nat := if m.summarised a then 0 else (mGet m.tags (a / 64) 0).toNat

/-- The colour of the line that holds `a`. -/
def Ram.colour (m : Ram) (a : Nat) : Nat := m.tagByte a / 16

/-- The tag of the 16-byte granule that holds `a`. -/
def Ram.tag (m : Ram) (a : Nat) : Bool := tb (m.tagByte a) (a / 16 % 4)

/-- R503: before the first non-zero colour or tag of a summarised block is written, the block's stored tag bytes become
zero and its bit is cleared. -/
def Ram.openBlock (m : Ram) (a : Nat) : Ram :=
  if m.summarised a then
    { m with tags := mDelIf m.tags (fun l => l / 2 ^ 12 = a / 2 ^ 18), sumClr := mSet m.sumClr (a / 2 ^ 18) () }
  else m

/-- Write the tag byte of the line that holds `a`. A zero written to a summarised block changes nothing (R77). -/
def Ram.setTagByte (m : Ram) (a v : Nat) : Ram :=
  if m.summarised a && v % 256 = 0 then m
  else
    let m := (m.openBlock a).seen a
    { m with tags := mPut m.tags (a / 64) (BitVec.ofNat 8 v) 0 }

/-- Set the tag of the granule that holds `a`. -/
def Ram.setTag (m : Ram) (a : Nat) (t : Bool) : Ram := m.setTagByte a (bfSet (m.tagByte a) (a / 16 % 4) 1 (b2n t))

/-- Clear the tags of every granule that `n` bytes at `a` touch (R46). -/
def Ram.clearTags (m : Ram) (a n : Nat) : Ram :=
  (List.range ((a + n - 1) / 16 + 1 - a / 16)).foldl (fun m i => m.setTag ((a / 16 + i) * 16) false) m

/-- Zero a line's data and clear its tags, and give it colour `k` (R69, R70). -/
def Ram.claim (m : Ram) (a k : Nat) : Ram :=
  ({ m with cells := mDelIf m.cells (fun x => x / 64 = a / 64) }).setTagByte a (k * 16)

/-- Data written by a master other than a capability store: bytes and cleared tags (R46). -/
def Ram.write (m : Ram) (a : Nat) (d : List Byte) : Ram :=
  if d.isEmpty then m else (m.wrN a d).clearTags a d.length

/-- Write the `n` low bytes of `v` at `a` as data of a master other than a core's capability store (R46). -/
def Ram.put (m : Ram) (a n v : Nat) : Ram := m.write a (leBytes n v)

/-- The 128-bit value and tag of the granule at `a`. -/
def Ram.rdCap (m : Ram) (a : Nat) : Cap := ⟨m.tag a, BitVec.ofNat 128 (m.rdLe a 16)⟩

/-- Write a 128-bit value with its tag (R66). -/
def Ram.wrCap (m : Ram) (a : Nat) (c : Cap) : Ram := (m.wrLe a 16 c.bits.toNat).setTag a c.tag

/-- Remove every byte, tag, colour and poison of the addresses from `lo` to below `hi` (both multiples of 64): a wipe of
on-die SRAM (R496). -/
def Ram.wipeRange (m : Ram) (lo hi : Nat) : Ram :=
  { m with cells := mDelIf m.cells (fun a => lo ≤ a && a < hi)
           tags := mDelIf m.tags (fun l => lo ≤ l * 64 && l * 64 < hi)
           poison := mDelIf m.poison (fun l => lo ≤ l * 64 && l * 64 < hi) }

/-- The line that holds `a` is poisoned (R79). -/
def Ram.poisoned (m : Ram) (a : Nat) : Bool := (mGet? m.poison (a / 64)).isSome

/-- Poison the line that holds `a`. -/
def Ram.poisonLine (m : Ram) (a : Nat) : Ram := { m with poison := mSet m.poison (a / 64) () }

/-- Poison the 64 lines of the 4 KiB that hold `a` (R79). -/
def Ram.poisonPage (m : Ram) (a : Nat) : Ram :=
  (List.range 64).foldl (fun m i => m.poisonLine (alignDown a 4096 + 64 * i)) m

/-- Remove the poison of the line that holds `a`. -/
def Ram.unpoison (m : Ram) (a : Nat) : Ram := { m with poison := mDel m.poison (a / 64) }

/-- The offset of the tag region of a half's fitted DRAM (R74): 0 before DDR5 initialisation. -/
def Ram.dramTop (m : Ram) (h : Nat) : Nat := let d := tGet m.fitted h; d - d / 64

/-- Where a device physical address lies (R266). -/
inductive Region where
  | dram | pbuf | clm (c : Nat) | half (blk : Nat) | clu (c : Nat) | none
deriving DecidableEq, Repr

/-- Decode of a device physical address (R265 to R267); an address above 41 bits is unpopulated (R279). -/
def Ram.region (m : Ram) (a : Nat) : Region :=
  let l := paLocal a
  if a ≥ 2 ^ 41 then .none
  else if l < 2 ^ 37 then if l < m.dramTop (paHalf a) then .dram else .none
  else if 0x8000000000 ≤ l ∧ l < 0x8002000000 then .pbuf
  else if 0x8040000000 ≤ l ∧ l < 0x8050000000 then
    if l % 0x1000000 < 0x100000 then .clm (bf l 24 4) else .none
  else if 0xC000000000 ≤ l ∧ l < 0xC010000000 then .half (bf l 24 4)
  else if 0xC100000000 ≤ l ∧ l < 0xC110000000 then .clu (bf l 24 4)
  else .none

/-- The region is a control block (R268, R270: device memory). -/
def Region.isCsr : Region → Bool
  | .half _ | .clu _ => true
  | _ => false

end Sys2Proof.Machine
end

