-- ==== Sys2Proof/Machine/PairTypes.lean ====
section
/-! DEFINITION. The state of the pair and its mirror links (chapter 13) as plain data. -/

namespace Sys2Proof.Machine

/-- An entry of a mirror queue (R409): a line with what its message carries, or a marker of FENCE.ST. -/
structure MirLine where
  marker : Bool
  line : Nat
  tenant : Nat
  comp : Nat
  vline : Nat
  colour : Nat
  data : List Byte
deriving DecidableEq, Repr

/-- A cell before its sequence number, acknowledgement and CRC (R400): channel, SOM, EOM, UNSEQ, payload. -/
structure MCell where
  chn : Nat
  som : Bool
  eom : Bool
  unseq : Bool
  pay : List Byte
deriving DecidableEq, Repr

/-- One half's mirror link (R400 to R402): cells waiting by channel, when each channel may send again under its cap
(elapsed ns), the partly received message of each channel, received messages by channel in order, next sequence number,
cells unacknowledged and cells to resend with their numbers, replays without progress, when progress was last made, highest
sequence number received in order, NAK wanted, up, the last cell sent, when the last heartbeat came, when one and the meter deltas
were last sent, how far resynchronisation has copied (bucket; compartment, block and offset of the mirrored lines), the FLOW cells sent
since it last read a bucket (R401), and the codeword under way (R400): its cells, its count, and the last payload sent on each lane. -/
structure MirLink where
  txq : NMap (List MCell)
  nextAt : NMap Nat
  rx : NMap (List Byte)
  inbox : List (Nat × List Byte)
  seqNext : Nat
  replay : List (Nat × MCell)
  resend : List (Nat × MCell)
  replays : Nat
  progress : Nat
  rxSeq : Nat
  nak : Bool
  up : Bool
  out : List Byte
  hbAt : Option Nat
  hbSent : Nat
  deltaAt : Nat
  bucket : Nat
  curComp : Nat
  curBlk : Nat
  curOff : Nat
  flowSent : Nat
  cells : List (List Byte)
  cwCount : Nat
  lanes : Two (List Byte)
deriving DecidableEq, Repr

/-- A mirror link that is down. -/
def MirLink.reset : MirLink :=
  { txq := [], nextAt := [], rx := [], inbox := [], seqNext := 0, replay := [], resend := [], replays := 0, progress := 0
    rxSeq := 65535, nak := false, up := false, out := [], hbAt := none, hbSent := 0, deltaAt := 0, bucket := 0, curComp := 0
    curBlk := 0, curOff := 0, flowSent := 0, cells := [], cwCount := 0, lanes := ⟨[], []⟩ }

/-- The pair (R394 to R416): role (MIR_STAT coding), position, pair ID, EPOCH, FAILMODE, AUTORESYNC, FALLBACK_US, CFGTAG,
MIR_ERR, MIR_TKTYPE, MIR_TKDA; PEER_ALIVE_IN's level and last edge, the ball path (0 toggling, 1 steady low, 2 steady high),
PEER_ALIVE_OUT's level, held steady; YIELD received; when the peer's failure was reported, the takeover decided (its reason); resynchronisation step; the
peer's role as last heard; the latest MINUTE of the peer's blocks; HELLO sent, RESYNC_DONE received. -/
structure Pair where
  role : Nat
  pos : Nat
  pairId : Nat
  epoch : Nat
  failMode : Nat
  autoResync : Nat
  fallback : Nat
  cfgTag : Nat
  err : Nat
  tkType : Nat
  tkDa : Nat
  ballIn : Bool
  edgeAt : Nat
  ball : Nat
  aliveOut : Bool
  aliveHeld : Bool
  gotYield : Bool
  failAt : Option Nat
  takeDue : Option Nat
  step : Nat
  peerRole : Nat
  peerMinute : Nat
  helloSent : Bool
  doneRecv : Bool
deriving DecidableEq, Repr

/-- The pair state after power-on reset (R399, R416). -/
def Pair.reset : Pair :=
  { role := 0, pos := 0, pairId := 0, epoch := 0, failMode := 0, autoResync := 1, fallback := 0, cfgTag := 0, err := 0
    tkType := 0x88B5, tkDa := 0xFFFFFFFFFFFF, ballIn := false, edgeAt := 0, ball := 1, aliveOut := false, aliveHeld := false
    gotYield := false, failAt := none, takeDue := none, step := 0, peerRole := 0, peerMinute := 0, helloSent := false, doneRecv := false }

end Sys2Proof.Machine
end

