-- ==== Sys2Proof/Machine/Regs.lean ====
section
/-! DEFINITION. The control and status registers: where each lies (R267 and the offset tables of the chapters), its
fields, their access codes (R8) and reset values (R9). -/

namespace Sys2Proof.Machine

/-- The access codes of R8 (RWL is written RW here: the one RWL field, GRD_KEY of guard 0x103, is told apart where
registers are written). -/
inductive Access where
  | ro | rw | w1c | wo
deriving DecidableEq, Repr

/-- A register field: low bit, width, access code, reset value, cleared by reading. -/
structure Fld where
  lo : Nat
  w : Nat
  acc : Access
  rst : Nat
  clr : Bool
deriving DecidableEq, Repr

/-- A register or an array of registers: local address of the first, dimensions (count, stride), size in bytes,
fields. -/
structure RegD where
  base : Nat
  dims : List (Nat × Nat)
  bytes : Nat
  flds : List Fld
deriving DecidableEq, Repr

/-- The sum of index × stride over the dimensions. -/
def dimOff : List (Nat × Nat) → List Nat → Nat
  | (_, st) :: ds, i :: is => i * st + dimOff ds is
  | _, _ => 0

/-- The device physical address of an instance of a register of half `h` (R265, R267). -/
def RegD.at (d : RegD) (h : Nat) (ix : List Nat) : Nat := h * 2 ^ 40 + d.base + dimOff d.dims ix

/-- The indices of the instance at offset `o` from the first, if there is one. -/
def dimIx : List (Nat × Nat) → Nat → Option (List Nat)
  | [], o => if o = 0 then some [] else none
  | (n, st) :: ds, o => if o / st < n then (dimIx ds (o % st)).map (fun r => o / st :: r) else none

/-- The indices of the instance that starts at local address `la`, if there is one. -/
def RegD.ix? (d : RegD) (la : Nat) : Option (List Nat) := if la < d.base then none else dimIx d.dims (la - d.base)

/-- WCK_CTRL.ENABLE (R29). -/
def WCK_CTRL_ENABLE : Fld := ⟨0, 1, .rw, 1, false⟩

/-- WCK_CTRL.RETRAIN (R29). -/
def WCK_CTRL_RETRAIN : Fld := ⟨1, 1, .wo, 0, false⟩

/-- WCK_CTRL.PKT_SHARE (R29). -/
def WCK_CTRL_PKT_SHARE : Fld := ⟨4, 4, .rw, 8, false⟩

/-- The register WCK_CTRL (R29). -/
def WCK_CTRL : RegD := ⟨0xc003000000, [], 4,
  [WCK_CTRL_ENABLE, WCK_CTRL_RETRAIN, WCK_CTRL_PKT_SHARE]⟩

/-- WCK_STATUS.UP (R29). -/
def WCK_STATUS_UP : Fld := ⟨0, 1, .ro, 0, false⟩

/-- WCK_STATUS.DOWN (R29). -/
def WCK_STATUS_DOWN : Fld := ⟨1, 1, .ro, 0, false⟩

/-- WCK_STATUS.TRAINING (R29). -/
def WCK_STATUS_TRAINING : Fld := ⟨2, 1, .ro, 1, false⟩

/-- WCK_STATUS.RETRAIN_FAILS (R29). -/
def WCK_STATUS_RETRAIN_FAILS : Fld := ⟨4, 4, .ro, 0, false⟩

/-- WCK_STATUS.LATE (R29). -/
def WCK_STATUS_LATE : Fld := ⟨8, 8, .ro, 0, true⟩

/-- WCK_STATUS.REPLAYS (R29). -/
def WCK_STATUS_REPLAYS : Fld := ⟨16, 16, .ro, 0, true⟩

/-- The register WCK_STATUS (R29). -/
def WCK_STATUS : RegD := ⟨0xc003000004, [], 4,
  [WCK_STATUS_UP, WCK_STATUS_DOWN, WCK_STATUS_TRAINING, WCK_STATUS_RETRAIN_FAILS, WCK_STATUS_LATE, WCK_STATUS_REPLAYS]⟩

/-- WCK_TIMEOUT.TIMEOUT_US (R29). -/
def WCK_TIMEOUT_TIMEOUT_US : Fld := ⟨0, 10, .rw, 50, false⟩

/-- The register WCK_TIMEOUT (R29). -/
def WCK_TIMEOUT : RegD := ⟨0xc003000008, [], 4,
  [WCK_TIMEOUT_TIMEOUT_US]⟩

/-- WCK_ERR.CRC_SEEN (R29). -/
def WCK_ERR_CRC_SEEN : Fld := ⟨0, 1, .w1c, 0, false⟩

/-- WCK_ERR.TIMEOUT_SEEN (R29). -/
def WCK_ERR_TIMEOUT_SEEN : Fld := ⟨1, 1, .w1c, 0, false⟩

/-- WCK_ERR.PKT_DROP (R29). -/
def WCK_ERR_PKT_DROP : Fld := ⟨2, 1, .w1c, 0, false⟩

/-- WCK_ERR.DOWN_SEEN (R29). -/
def WCK_ERR_DOWN_SEEN : Fld := ⟨3, 1, .w1c, 0, false⟩

/-- The register WCK_ERR (R29). -/
def WCK_ERR : RegD := ⟨0xc00300000c, [], 4,
  [WCK_ERR_CRC_SEEN, WCK_ERR_TIMEOUT_SEEN, WCK_ERR_PKT_DROP, WCK_ERR_DOWN_SEEN]⟩

/-- WCK_PKT_DROPS.COUNT (R29). -/
def WCK_PKT_DROPS_COUNT : Fld := ⟨0, 32, .ro, 0, false⟩

/-- The register WCK_PKT_DROPS (R29). -/
def WCK_PKT_DROPS : RegD := ⟨0xc003000010, [], 4,
  [WCK_PKT_DROPS_COUNT]⟩

/-- HALF_TAG_BASE.START_4K (R79). -/
def HALF_TAG_BASE_START_4K : Fld := ⟨0, 32, .ro, 0, false⟩

/-- The register HALF_TAG_BASE (R79). -/
def HALF_TAG_BASE : RegD := ⟨0xc000000200, [], 4,
  [HALF_TAG_BASE_START_4K]⟩

/-- HALF_TAGC_MISS.COUNT (R79). -/
def HALF_TAGC_MISS_COUNT : Fld := ⟨0, 32, .ro, 0, true⟩

/-- The register HALF_TAGC_MISS (R79). -/
def HALF_TAGC_MISS : RegD := ⟨0xc000000204, [], 4,
  [HALF_TAGC_MISS_COUNT]⟩

/-- HALF_TAGC_ERR.CE_SEEN (R79). -/
def HALF_TAGC_ERR_CE_SEEN : Fld := ⟨0, 1, .w1c, 0, false⟩

/-- HALF_TAGC_ERR.UE_SEEN (R79). -/
def HALF_TAGC_ERR_UE_SEEN : Fld := ⟨1, 1, .w1c, 0, false⟩

/-- HALF_TAGC_ERR.UE_OVF (R79). -/
def HALF_TAGC_ERR_UE_OVF : Fld := ⟨2, 1, .w1c, 0, false⟩

/-- The register HALF_TAGC_ERR (R79). -/
def HALF_TAGC_ERR : RegD := ⟨0xc000000208, [], 4,
  [HALF_TAGC_ERR_CE_SEEN, HALF_TAGC_ERR_UE_SEEN, HALF_TAGC_ERR_UE_OVF]⟩

/-- HALF_TAGC_UEADDR.PAGE (R79). -/
def HALF_TAGC_UEADDR_PAGE : Fld := ⟨0, 28, .ro, 0, false⟩

/-- The register HALF_TAGC_UEADDR (R79). -/
def HALF_TAGC_UEADDR : RegD := ⟨0xc00000020c, [], 4,
  [HALF_TAGC_UEADDR_PAGE]⟩

/-- HALF_TASKCFG.NEXT0 (R113). -/
def HALF_TASKCFG_NEXT0 : Fld := ⟨0, 2, .rw, 1, false⟩

/-- HALF_TASKCFG.NEXT1 (R113). -/
def HALF_TASKCFG_NEXT1 : Fld := ⟨2, 2, .rw, 1, false⟩

/-- HALF_TASKCFG.NEXT2 (R113). -/
def HALF_TASKCFG_NEXT2 : Fld := ⟨4, 2, .rw, 1, false⟩

/-- HALF_TASKCFG.NEXT3 (R113). -/
def HALF_TASKCFG_NEXT3 : Fld := ⟨6, 2, .rw, 1, false⟩

/-- HALF_TASKCFG.NEXT4 (R113). -/
def HALF_TASKCFG_NEXT4 : Fld := ⟨8, 2, .rw, 1, false⟩

/-- HALF_TASKCFG.NEXT5 (R113). -/
def HALF_TASKCFG_NEXT5 : Fld := ⟨10, 2, .rw, 1, false⟩

/-- HALF_TASKCFG.NEXT6 (R113). -/
def HALF_TASKCFG_NEXT6 : Fld := ⟨12, 2, .rw, 1, false⟩

/-- HALF_TASKCFG.NEXT7 (R113). -/
def HALF_TASKCFG_NEXT7 : Fld := ⟨14, 2, .rw, 1, false⟩

/-- HALF_TASKCFG.NEXT8 (R113). -/
def HALF_TASKCFG_NEXT8 : Fld := ⟨16, 2, .rw, 1, false⟩

/-- HALF_TASKCFG.NEXT9 (R113). -/
def HALF_TASKCFG_NEXT9 : Fld := ⟨18, 2, .rw, 1, false⟩

/-- HALF_TASKCFG.NEXT10 (R113). -/
def HALF_TASKCFG_NEXT10 : Fld := ⟨20, 2, .rw, 1, false⟩

/-- HALF_TASKCFG.NEXT11 (R113). -/
def HALF_TASKCFG_NEXT11 : Fld := ⟨22, 2, .rw, 1, false⟩

/-- HALF_TASKCFG.NEXT12 (R113). -/
def HALF_TASKCFG_NEXT12 : Fld := ⟨24, 2, .rw, 1, false⟩

/-- HALF_TASKCFG.NEXT13 (R113). -/
def HALF_TASKCFG_NEXT13 : Fld := ⟨26, 2, .rw, 1, false⟩

/-- HALF_TASKCFG.NEXT14 (R113). -/
def HALF_TASKCFG_NEXT14 : Fld := ⟨28, 2, .rw, 1, false⟩

/-- HALF_TASKCFG.NEXT15 (R113). -/
def HALF_TASKCFG_NEXT15 : Fld := ⟨30, 2, .rw, 1, false⟩

/-- The register HALF_TASKCFG (R113). -/
def HALF_TASKCFG : RegD := ⟨0xc000000210, [], 4,
  [HALF_TASKCFG_NEXT0, HALF_TASKCFG_NEXT1, HALF_TASKCFG_NEXT2, HALF_TASKCFG_NEXT3, HALF_TASKCFG_NEXT4, HALF_TASKCFG_NEXT5, HALF_TASKCFG_NEXT6, HALF_TASKCFG_NEXT7, HALF_TASKCFG_NEXT8, HALF_TASKCFG_NEXT9, HALF_TASKCFG_NEXT10, HALF_TASKCFG_NEXT11, HALF_TASKCFG_NEXT12, HALF_TASKCFG_NEXT13, HALF_TASKCFG_NEXT14, HALF_TASKCFG_NEXT15]⟩

/-- CLU_TASKCFG.CURRENT (R114). -/
def CLU_TASKCFG_CURRENT : Fld := ⟨0, 2, .ro, 0, false⟩

/-- CLU_TASKCFG.WINDOWS (R114). -/
def CLU_TASKCFG_WINDOWS : Fld := ⟨2, 6, .ro, 0, false⟩

/-- The register CLU_TASKCFG (R114). -/
def CLU_TASKCFG : RegD := ⟨0xc100000040, [(16, 0x1000000)], 4,
  [CLU_TASKCFG_CURRENT, CLU_TASKCFG_WINDOWS]⟩

/-- CORE_VCTX.OWNERS (R214). -/
def CORE_VCTX_OWNERS : Fld := ⟨0, 24, .ro, 0, false⟩

/-- CORE_VCTX.HELD (R214). -/
def CORE_VCTX_HELD : Fld := ⟨24, 4, .ro, 0, false⟩

/-- The register CORE_VCTX (R214). -/
def CORE_VCTX : RegD := ⟨0xc100100080, [(16, 0x1000000), (16, 0x10000)], 4,
  [CORE_VCTX_OWNERS, CORE_VCTX_HELD]⟩

/-- CORE_VMARK.DIRTY (R214). -/
def CORE_VMARK_DIRTY : Fld := ⟨0, 4, .ro, 0, false⟩

/-- CORE_VMARK.ZERO (R214). -/
def CORE_VMARK_ZERO : Fld := ⟨4, 4, .ro, 0, false⟩

/-- The register CORE_VMARK (R214). -/
def CORE_VMARK : RegD := ⟨0xc100100084, [(16, 0x1000000), (16, 0x10000)], 4,
  [CORE_VMARK_DIRTY, CORE_VMARK_ZERO]⟩

/-- CORE_VRECLAIM.COUNT (R214). -/
def CORE_VRECLAIM_COUNT : Fld := ⟨0, 32, .ro, 0, true⟩

/-- The register CORE_VRECLAIM (R214). -/
def CORE_VRECLAIM : RegD := ⟨0xc100100088, [(16, 0x1000000), (16, 0x10000)], 4,
  [CORE_VRECLAIM_COUNT]⟩

/-- CLU_XVEC_SVC.ENTRY (R237). -/
def CLU_XVEC_SVC_ENTRY : Fld := ⟨0, 128, .rw, 0, false⟩

/-- The register CLU_XVEC_SVC (R237). -/
def CLU_XVEC_SVC : RegD := ⟨0xc100000100, [(16, 0x1000000)], 16,
  [CLU_XVEC_SVC_ENTRY]⟩

/-- CLU_XVEC_MCH.ENTRY (R237). -/
def CLU_XVEC_MCH_ENTRY : Fld := ⟨0, 128, .rw, 0, false⟩

/-- The register CLU_XVEC_MCH (R237). -/
def CLU_XVEC_MCH : RegD := ⟨0xc100000110, [(16, 0x1000000)], 16,
  [CLU_XVEC_MCH_ENTRY]⟩

/-- CLU_XSTAT.ENTRY_BAD (R237). -/
def CLU_XSTAT_ENTRY_BAD : Fld := ⟨0, 1, .w1c, 0, false⟩

/-- CLU_XSTAT.MACH_EXT (R237). -/
def CLU_XSTAT_MACH_EXT : Fld := ⟨1, 1, .w1c, 0, false⟩

/-- CLU_XSTAT.LAST_CODE (R237). -/
def CLU_XSTAT_LAST_CODE : Fld := ⟨8, 8, .ro, 0, false⟩

/-- The register CLU_XSTAT (R237). -/
def CLU_XSTAT : RegD := ⟨0xc100000120, [(16, 0x1000000)], 4,
  [CLU_XSTAT_ENTRY_BAD, CLU_XSTAT_MACH_EXT, CLU_XSTAT_LAST_CODE]⟩

/-- CLU_EXTCOUNT.COUNT (R237). -/
def CLU_EXTCOUNT_COUNT : Fld := ⟨0, 32, .ro, 0, true⟩

/-- The register CLU_EXTCOUNT (R237). -/
def CLU_EXTCOUNT : RegD := ⟨0xc100000124, [(16, 0x1000000)], 4,
  [CLU_EXTCOUNT_COUNT]⟩

/-- HALF_SCXVEC_SVC.ENTRY (R237). -/
def HALF_SCXVEC_SVC_ENTRY : Fld := ⟨0, 128, .rw, 0, false⟩

/-- The register HALF_SCXVEC_SVC (R237). -/
def HALF_SCXVEC_SVC : RegD := ⟨0xc000000320, [], 16,
  [HALF_SCXVEC_SVC_ENTRY]⟩

/-- HALF_SCXVEC_MCH.ENTRY (R237). -/
def HALF_SCXVEC_MCH_ENTRY : Fld := ⟨0, 128, .rw, 0, false⟩

/-- The register HALF_SCXVEC_MCH (R237). -/
def HALF_SCXVEC_MCH : RegD := ⟨0xc000000330, [], 16,
  [HALF_SCXVEC_MCH_ENTRY]⟩

/-- HALF_SCXSTAT.ENTRY_BAD (R237). -/
def HALF_SCXSTAT_ENTRY_BAD : Fld := ⟨0, 1, .w1c, 0, false⟩

/-- HALF_SCXSTAT.MACH_EXT (R237). -/
def HALF_SCXSTAT_MACH_EXT : Fld := ⟨1, 1, .w1c, 0, false⟩

/-- HALF_SCXSTAT.LAST_CODE (R237). -/
def HALF_SCXSTAT_LAST_CODE : Fld := ⟨8, 8, .ro, 0, false⟩

/-- The register HALF_SCXSTAT (R237). -/
def HALF_SCXSTAT : RegD := ⟨0xc000000340, [], 4,
  [HALF_SCXSTAT_ENTRY_BAD, HALF_SCXSTAT_MACH_EXT, HALF_SCXSTAT_LAST_CODE]⟩

/-- HALF_SCEXTCOUNT.COUNT (R237). -/
def HALF_SCEXTCOUNT_COUNT : Fld := ⟨0, 32, .ro, 0, true⟩

/-- The register HALF_SCEXTCOUNT (R237). -/
def HALF_SCEXTCOUNT : RegD := ⟨0xc000000344, [], 4,
  [HALF_SCEXTCOUNT_COUNT]⟩

/-- SCH_CTRL.UNIT (R264). -/
def SCH_CTRL_UNIT : Fld := ⟨0, 8, .rw, 8, false⟩

/-- SCH_CTRL.SVC_FIRST (R264). -/
def SCH_CTRL_SVC_FIRST : Fld := ⟨8, 1, .rw, 1, false⟩

/-- The register SCH_CTRL (R264). -/
def SCH_CTRL : RegD := ⟨0xc100010000, [(16, 0x1000000)], 4,
  [SCH_CTRL_UNIT, SCH_CTRL_SVC_FIRST]⟩

/-- SCH_EVAREA.BASE (R264). -/
def SCH_EVAREA_BASE : Fld := ⟨0, 9, .rw, 0, false⟩

/-- SCH_EVAREA.SIZE (R264). -/
def SCH_EVAREA_SIZE : Fld := ⟨16, 9, .rw, 0, false⟩

/-- The register SCH_EVAREA (R264). -/
def SCH_EVAREA : RegD := ⟨0xc100010004, [(16, 0x1000000)], 4,
  [SCH_EVAREA_BASE, SCH_EVAREA_SIZE]⟩

/-- SCH_QSEL.SLOT (R264). -/
def SCH_QSEL_SLOT : Fld := ⟨0, 10, .rw, 0, false⟩

/-- The register SCH_QSEL (R264). -/
def SCH_QSEL : RegD := ⟨0xc100010008, [(16, 0x1000000)], 4,
  [SCH_QSEL_SLOT]⟩

/-- SCH_QSTAT.COUNT (R264). -/
def SCH_QSTAT_COUNT : Fld := ⟨0, 13, .ro, 0, false⟩

/-- SCH_QSTAT.QLOG2 (R264). -/
def SCH_QSTAT_QLOG2 : Fld := ⟨13, 4, .ro, 0, false⟩

/-- SCH_QSTAT.VALID (R264). -/
def SCH_QSTAT_VALID : Fld := ⟨17, 1, .ro, 0, false⟩

/-- SCH_QSTAT.BOUND (R264). -/
def SCH_QSTAT_BOUND : Fld := ⟨19, 1, .ro, 0, false⟩

/-- The register SCH_QSTAT (R264). -/
def SCH_QSTAT : RegD := ⟨0xc10001000c, [(16, 0x1000000)], 4,
  [SCH_QSTAT_COUNT, SCH_QSTAT_QLOG2, SCH_QSTAT_VALID, SCH_QSTAT_BOUND]⟩

/-- SCH_IDLE.COUNT (R264). -/
def SCH_IDLE_COUNT : Fld := ⟨0, 32, .ro, 0, true⟩

/-- The register SCH_IDLE (R264). -/
def SCH_IDLE : RegD := ⟨0xc100010010, [(16, 0x1000000)], 4,
  [SCH_IDLE_COUNT]⟩

/-- SCH_KILLS.COUNT (R264). -/
def SCH_KILLS_COUNT : Fld := ⟨0, 32, .ro, 0, true⟩

/-- The register SCH_KILLS (R264). -/
def SCH_KILLS : RegD := ⟨0xc100010014, [(16, 0x1000000)], 4,
  [SCH_KILLS_COUNT]⟩

/-- SCH_UNDELIV.COUNT (R264). -/
def SCH_UNDELIV_COUNT : Fld := ⟨0, 32, .ro, 0, true⟩

/-- The register SCH_UNDELIV (R264). -/
def SCH_UNDELIV : RegD := ⟨0xc100010018, [(16, 0x1000000)], 4,
  [SCH_UNDELIV_COUNT]⟩

/-- SCH_NOTICE_LOST.COUNT (R264). -/
def SCH_NOTICE_LOST_COUNT : Fld := ⟨0, 32, .ro, 0, true⟩

/-- The register SCH_NOTICE_LOST (R264). -/
def SCH_NOTICE_LOST : RegD := ⟨0xc10001001c, [(16, 0x1000000)], 4,
  [SCH_NOTICE_LOST_COUNT]⟩

/-- SCH_QFREE.SLOTS (R264). -/
def SCH_QFREE_SLOTS : Fld := ⟨0, 11, .ro, 0x400, false⟩

/-- SCH_QFREE.AREA (R264). -/
def SCH_QFREE_AREA : Fld := ⟨16, 9, .ro, 0, false⟩

/-- The register SCH_QFREE (R264). -/
def SCH_QFREE : RegD := ⟨0xc100010020, [(16, 0x1000000)], 4,
  [SCH_QFREE_SLOTS, SCH_QFREE_AREA]⟩

/-- SCH_CTAB.BASE_8M (R264). -/
def SCH_CTAB_BASE_8M : Fld := ⟨0, 17, .rw, 0, false⟩

/-- The register SCH_CTAB (R264). -/
def SCH_CTAB : RegD := ⟨0xc00f000400, [], 4,
  [SCH_CTAB_BASE_8M]⟩

/-- SCH_BAL.MODE (R264). -/
def SCH_BAL_MODE : Fld := ⟨0, 1, .rw, 0, false⟩

/-- SCH_BAL.THRESH (R264). -/
def SCH_BAL_THRESH : Fld := ⟨8, 8, .rw, 32, false⟩

/-- SCH_BAL.MAXMOVES (R264). -/
def SCH_BAL_MAXMOVES : Fld := ⟨16, 4, .rw, 4, false⟩

/-- The register SCH_BAL (R264). -/
def SCH_BAL : RegD := ⟨0xc00f000404, [], 4,
  [SCH_BAL_MODE, SCH_BAL_THRESH, SCH_BAL_MAXMOVES]⟩

/-- SCH_BALSTAT.MOVES (R264). -/
def SCH_BALSTAT_MOVES : Fld := ⟨0, 16, .ro, 0, true⟩

/-- SCH_BALSTAT.DEFERRED (R264). -/
def SCH_BALSTAT_DEFERRED : Fld := ⟨16, 16, .ro, 0, true⟩

/-- The register SCH_BALSTAT (R264). -/
def SCH_BALSTAT : RegD := ⟨0xc00f000408, [], 4,
  [SCH_BALSTAT_MOVES, SCH_BALSTAT_DEFERRED]⟩

/-- SCH_EPOCH.COUNT (R264). -/
def SCH_EPOCH_COUNT : Fld := ⟨0, 32, .ro, 0, false⟩

/-- The register SCH_EPOCH (R264). -/
def SCH_EPOCH : RegD := ⟨0xc00f00040c, [], 4,
  [SCH_EPOCH_COUNT]⟩

/-- HALF_DMA_RING.CAP (R308). -/
def HALF_DMA_RING_CAP : Fld := ⟨0, 128, .rw, 0, false⟩

/-- The register HALF_DMA_RING (R308). -/
def HALF_DMA_RING : RegD := ⟨0xc000001000, [(4, 0x40)], 16,
  [HALF_DMA_RING_CAP]⟩

/-- HALF_DMA_TAIL.INDEX (R308). -/
def HALF_DMA_TAIL_INDEX : Fld := ⟨0, 12, .rw, 0, false⟩

/-- The register HALF_DMA_TAIL (R308). -/
def HALF_DMA_TAIL : RegD := ⟨0xc000001010, [(4, 0x40)], 4,
  [HALF_DMA_TAIL_INDEX]⟩

/-- HALF_DMA_HEAD.INDEX (R308). -/
def HALF_DMA_HEAD_INDEX : Fld := ⟨0, 12, .ro, 0, false⟩

/-- HALF_DMA_HEAD.RCAUSE (R308). -/
def HALF_DMA_HEAD_RCAUSE : Fld := ⟨16, 8, .ro, 0, false⟩

/-- The register HALF_DMA_HEAD (R308). -/
def HALF_DMA_HEAD : RegD := ⟨0xc000001014, [(4, 0x40)], 4,
  [HALF_DMA_HEAD_INDEX, HALF_DMA_HEAD_RCAUSE]⟩

/-- HALF_DMA_CTRL.RESUME (R308). -/
def HALF_DMA_CTRL_RESUME : Fld := ⟨0, 1, .wo, 0, false⟩

/-- HALF_DMA_CTRL.ABORT (R308). -/
def HALF_DMA_CTRL_ABORT : Fld := ⟨1, 1, .wo, 0, false⟩

/-- The register HALF_DMA_CTRL (R308). -/
def HALF_DMA_CTRL : RegD := ⟨0xc000001018, [(4, 0x40)], 4,
  [HALF_DMA_CTRL_RESUME, HALF_DMA_CTRL_ABORT]⟩

/-- HALF_DMA_STAT.DONE (R308). -/
def HALF_DMA_STAT_DONE : Fld := ⟨0, 4, .w1c, 0, false⟩

/-- HALF_DMA_STAT.HALTED (R308). -/
def HALF_DMA_STAT_HALTED : Fld := ⟨4, 4, .ro, 0, false⟩

/-- The register HALF_DMA_STAT (R308). -/
def HALF_DMA_STAT : RegD := ⟨0xc000001100, [], 4,
  [HALF_DMA_STAT_DONE, HALF_DMA_STAT_HALTED]⟩

/-- XLT_CTRL.ADMODE (R309). -/
def XLT_CTRL_ADMODE : Fld := ⟨0, 1, .rw, 0, false⟩

/-- XLT_CTRL.ADWAIT_US (R309). -/
def XLT_CTRL_ADWAIT_US : Fld := ⟨4, 12, .rw, 100, false⟩

/-- The register XLT_CTRL (R309). -/
def XLT_CTRL : RegD := ⟨0xc001000000, [], 4,
  [XLT_CTRL_ADMODE, XLT_CTRL_ADWAIT_US]⟩

/-- XLT_TTAB.BASE_512K (R309). -/
def XLT_TTAB_BASE_512K : Fld := ⟨0, 21, .rw, 0, false⟩

/-- The register XLT_TTAB (R309). -/
def XLT_TTAB : RegD := ⟨0xc001000004, [], 4,
  [XLT_TTAB_BASE_512K]⟩

/-- XLT_S1TAB.BASE_8M (R309). -/
def XLT_S1TAB_BASE_8M : Fld := ⟨0, 17, .rw, 0, false⟩

/-- The register XLT_S1TAB (R309). -/
def XLT_S1TAB : RegD := ⟨0xc001000008, [], 4,
  [XLT_S1TAB_BASE_8M]⟩

/-- XLT_ADREQ_LO.ENTRY_LO (R309). -/
def XLT_ADREQ_LO_ENTRY_LO : Fld := ⟨0, 32, .ro, 0, false⟩

/-- The register XLT_ADREQ_LO (R309). -/
def XLT_ADREQ_LO : RegD := ⟨0xc00100000c, [], 4,
  [XLT_ADREQ_LO_ENTRY_LO]⟩

/-- XLT_ADREQ_HI.ENTRY_HI (R309). -/
def XLT_ADREQ_HI_ENTRY_HI : Fld := ⟨0, 6, .ro, 0, false⟩

/-- XLT_ADREQ_HI.TENANT (R309). -/
def XLT_ADREQ_HI_TENANT : Fld := ⟨6, 12, .ro, 0, false⟩

/-- XLT_ADREQ_HI.DIRTY (R309). -/
def XLT_ADREQ_HI_DIRTY : Fld := ⟨18, 1, .ro, 0, false⟩

/-- XLT_ADREQ_HI.ID (R309). -/
def XLT_ADREQ_HI_ID : Fld := ⟨19, 6, .ro, 0, false⟩

/-- XLT_ADREQ_HI.VALID (R309). -/
def XLT_ADREQ_HI_VALID : Fld := ⟨30, 1, .ro, 0, false⟩

/-- The register XLT_ADREQ_HI (R309). -/
def XLT_ADREQ_HI : RegD := ⟨0xc001000010, [], 4,
  [XLT_ADREQ_HI_ENTRY_HI, XLT_ADREQ_HI_TENANT, XLT_ADREQ_HI_DIRTY, XLT_ADREQ_HI_ID, XLT_ADREQ_HI_VALID]⟩

/-- XLT_ADACK.ID (R309). -/
def XLT_ADACK_ID : Fld := ⟨0, 6, .wo, 0, false⟩

/-- The register XLT_ADACK (R309). -/
def XLT_ADACK : RegD := ⟨0xc001000014, [], 4,
  [XLT_ADACK_ID]⟩

/-- XLT_WALKS.COUNT (R309). -/
def XLT_WALKS_COUNT : Fld := ⟨0, 32, .ro, 0, true⟩

/-- The register XLT_WALKS (R309). -/
def XLT_WALKS : RegD := ⟨0xc001000018, [], 4,
  [XLT_WALKS_COUNT]⟩

/-- GRD_HSTAT.ANY (R323). -/
def GRD_HSTAT_ANY : Fld := ⟨0, 1, .ro, 0, false⟩

/-- GRD_HSTAT.FIRST (R323). -/
def GRD_HSTAT_FIRST : Fld := ⟨1, 9, .ro, 0, false⟩

/-- The register GRD_HSTAT (R323). -/
def GRD_HSTAT : RegD := ⟨0xc002000000, [], 4,
  [GRD_HSTAT_ANY, GRD_HSTAT_FIRST]⟩

/-- GRD_KEY.MASK (R323). -/
def GRD_KEY_MASK : Fld := ⟨0, 16, .rw, 0, false⟩

/-- The register GRD_KEY (R323). -/
def GRD_KEY : RegD := ⟨0xc002001000, [(264, 0x100)], 4,
  [GRD_KEY_MASK]⟩

/-- GRD_VINFO.VALID (R323). -/
def GRD_VINFO_VALID : Fld := ⟨0, 1, .w1c, 0, false⟩

/-- GRD_VINFO.WRITE (R323). -/
def GRD_VINFO_WRITE : Fld := ⟨1, 1, .ro, 0, false⟩

/-- GRD_VINFO.REASON (R323). -/
def GRD_VINFO_REASON : Fld := ⟨2, 3, .ro, 0, false⟩

/-- GRD_VINFO.SLOTV (R323). -/
def GRD_VINFO_SLOTV : Fld := ⟨5, 1, .ro, 0, false⟩

/-- GRD_VINFO.SLOT (R323). -/
def GRD_VINFO_SLOT : Fld := ⟨6, 5, .ro, 0, false⟩

/-- GRD_VINFO.COLOUR (R323). -/
def GRD_VINFO_COLOUR : Fld := ⟨11, 4, .ro, 0, false⟩

/-- GRD_VINFO.TASK (R323). -/
def GRD_VINFO_TASK : Fld := ⟨15, 6, .ro, 0, false⟩

/-- GRD_VINFO.PRIV (R323). -/
def GRD_VINFO_PRIV : Fld := ⟨21, 2, .ro, 0, false⟩

/-- The register GRD_VINFO (R323). -/
def GRD_VINFO : RegD := ⟨0xc002001004, [(264, 0x100)], 4,
  [GRD_VINFO_VALID, GRD_VINFO_WRITE, GRD_VINFO_REASON, GRD_VINFO_SLOTV, GRD_VINFO_SLOT, GRD_VINFO_COLOUR, GRD_VINFO_TASK, GRD_VINFO_PRIV]⟩

/-- GRD_VADDR_LO.ADDR_LO (R323). -/
def GRD_VADDR_LO_ADDR_LO : Fld := ⟨0, 32, .ro, 0, false⟩

/-- The register GRD_VADDR_LO (R323). -/
def GRD_VADDR_LO : RegD := ⟨0xc002001008, [(264, 0x100)], 4,
  [GRD_VADDR_LO_ADDR_LO]⟩

/-- GRD_VADDR_HI.ADDR_HI (R323). -/
def GRD_VADDR_HI_ADDR_HI : Fld := ⟨0, 9, .ro, 0, false⟩

/-- The register GRD_VADDR_HI (R323). -/
def GRD_VADDR_HI : RegD := ⟨0xc00200100c, [(264, 0x100)], 4,
  [GRD_VADDR_HI_ADDR_HI]⟩

/-- GRD_VOVF.COUNT (R323). -/
def GRD_VOVF_COUNT : Fld := ⟨0, 16, .ro, 0, false⟩

/-- The register GRD_VOVF (R323). -/
def GRD_VOVF : RegD := ⟨0xc002001010, [(264, 0x100)], 4,
  [GRD_VOVF_COUNT]⟩

/-- GRD_LOCKED.COUNT (R323). -/
def GRD_LOCKED_COUNT : Fld := ⟨0, 32, .ro, 0, true⟩

/-- The register GRD_LOCKED (R323). -/
def GRD_LOCKED : RegD := ⟨0xc002001014, [(264, 0x100)], 4,
  [GRD_LOCKED_COUNT]⟩

/-- GRD_SLOT.RD (R323). -/
def GRD_SLOT_RD : Fld := ⟨0, 1, .rw, 0, false⟩

/-- GRD_SLOT.WR (R323). -/
def GRD_SLOT_WR : Fld := ⟨1, 1, .rw, 0, false⟩

/-- GRD_SLOT.TYPE (R323). -/
def GRD_SLOT_TYPE : Fld := ⟨2, 2, .ro, 2, false⟩

/-- GRD_SLOT.ORD (R323). -/
def GRD_SLOT_ORD : Fld := ⟨4, 2, .rw, 0, false⟩

/-- The register GRD_SLOT (R323). -/
def GRD_SLOT : RegD := ⟨0xc002001080, [(264, 0x100), (32, 0x4)], 4,
  [GRD_SLOT_RD, GRD_SLOT_WR, GRD_SLOT_TYPE, GRD_SLOT_ORD]⟩

/-- FLW_CTRL.ENABLE (R364). -/
def FLW_CTRL_ENABLE : Fld := ⟨0, 1, .rw, 0, false⟩

/-- FLW_CTRL.MAXFRAME (R364). -/
def FLW_CTRL_MAXFRAME : Fld := ⟨4, 14, .rw, 0x2400, false⟩

/-- The register FLW_CTRL (R364). -/
def FLW_CTRL : RegD := ⟨0xc009000000, [], 4,
  [FLW_CTRL_ENABLE, FLW_CTRL_MAXFRAME]⟩

/-- FLW_MODE.MISS (R364). -/
def FLW_MODE_MISS : Fld := ⟨0, 2, .rw, 0, false⟩

/-- FLW_MODE.AGE (R364). -/
def FLW_MODE_AGE : Fld := ⟨4, 1, .rw, 0, false⟩

/-- The register FLW_MODE (R364). -/
def FLW_MODE : RegD := ⟨0xc009000004, [], 4,
  [FLW_MODE_MISS, FLW_MODE_AGE]⟩

/-- FLW_TBL.LOG2B (R364). -/
def FLW_TBL_LOG2B : Fld := ⟨0, 5, .rw, 0, false⟩

/-- The register FLW_TBL (R364). -/
def FLW_TBL : RegD := ⟨0xc009000008, [], 4,
  [FLW_TBL_LOG2B]⟩

/-- FLW_TBASE.BASE_8M (R364). -/
def FLW_TBASE_BASE_8M : Fld := ⟨0, 17, .rw, 0, false⟩

/-- The register FLW_TBASE (R364). -/
def FLW_TBASE : RegD := ⟨0xc00900000c, [], 4,
  [FLW_TBASE_BASE_8M]⟩

/-- FLW_HASHSEED.SEED (R364). -/
def FLW_HASHSEED_SEED : Fld := ⟨0, 32, .rw, 0, false⟩

/-- The register FLW_HASHSEED (R364). -/
def FLW_HASHSEED : RegD := ⟨0xc009000010, [], 4,
  [FLW_HASHSEED_SEED]⟩

/-- FLW_AGE.TICK_US (R364). -/
def FLW_AGE_TICK_US : Fld := ⟨0, 16, .rw, 0x3e8, false⟩

/-- FLW_AGE.IDLE (R364). -/
def FLW_AGE_IDLE : Fld := ⟨16, 15, .rw, 0, false⟩

/-- FLW_AGE.REPORT (R364). -/
def FLW_AGE_REPORT : Fld := ⟨31, 1, .rw, 0, false⟩

/-- The register FLW_AGE (R364). -/
def FLW_AGE : RegD := ⟨0xc009000014, [], 4,
  [FLW_AGE_TICK_US, FLW_AGE_IDLE, FLW_AGE_REPORT]⟩

/-- FLW_PB.HOLD_US (R364). -/
def FLW_PB_HOLD_US : Fld := ⟨0, 16, .rw, 0x3e8, false⟩

/-- FLW_PB.RX_RESERVE (R364). -/
def FLW_PB_RX_RESERVE : Fld := ⟨16, 16, .rw, 0x100, false⟩

/-- The register FLW_PB (R364). -/
def FLW_PB : RegD := ⟨0xc009000018, [], 4,
  [FLW_PB_HOLD_US, FLW_PB_RX_RESERVE]⟩

/-- FLW_EGQ.ONCHIP_KB (R364). -/
def FLW_EGQ_ONCHIP_KB : Fld := ⟨0, 16, .rw, 0x400, false⟩

/-- The register FLW_EGQ (R364). -/
def FLW_EGQ : RegD := ⟨0xc00900001c, [], 4,
  [FLW_EGQ_ONCHIP_KB]⟩

/-- FLW_PGCTRL.ACTIVE (R364). -/
def FLW_PGCTRL_ACTIVE : Fld := ⟨0, 1, .ro, 0, false⟩

/-- FLW_PGCTRL.SWAP (R364). -/
def FLW_PGCTRL_SWAP : Fld := ⟨1, 1, .wo, 0, false⟩

/-- The register FLW_PGCTRL (R364). -/
def FLW_PGCTRL : RegD := ⟨0xc009000028, [], 4,
  [FLW_PGCTRL_ACTIVE, FLW_PGCTRL_SWAP]⟩

/-- FLW_OVF_BASE.BASE_8M (R364). -/
def FLW_OVF_BASE_BASE_8M : Fld := ⟨0, 17, .rw, 0, false⟩

/-- The register FLW_OVF_BASE (R364). -/
def FLW_OVF_BASE : RegD := ⟨0xc009000020, [], 4,
  [FLW_OVF_BASE_BASE_8M]⟩

/-- FLW_OVF_SIZE.SIZE_8M (R364). -/
def FLW_OVF_SIZE_SIZE_8M : Fld := ⟨0, 9, .rw, 0, false⟩

/-- The register FLW_OVF_SIZE (R364). -/
def FLW_OVF_SIZE : RegD := ⟨0xc009000024, [], 4,
  [FLW_OVF_SIZE_SIZE_8M]⟩

/-- FLW_PBCAP.CAP (R364). -/
def FLW_PBCAP_CAP : Fld := ⟨0, 128, .rw, 0, false⟩

/-- The register FLW_PBCAP (R364). -/
def FLW_PBCAP : RegD := ⟨0xc009000030, [], 16,
  [FLW_PBCAP_CAP]⟩

/-- FLW_PARSE_ERR.COUNT (R364). -/
def FLW_PARSE_ERR_COUNT : Fld := ⟨0, 32, .ro, 0, true⟩

/-- The register FLW_PARSE_ERR (R364). -/
def FLW_PARSE_ERR : RegD := ⟨0xc009000040, [], 4,
  [FLW_PARSE_ERR_COUNT]⟩

/-- FLW_RX_DROP.COUNT (R364). -/
def FLW_RX_DROP_COUNT : Fld := ⟨0, 32, .ro, 0, true⟩

/-- The register FLW_RX_DROP (R364). -/
def FLW_RX_DROP : RegD := ⟨0xc009000044, [], 4,
  [FLW_RX_DROP_COUNT]⟩

/-- FLW_MISDIR.COUNT (R364). -/
def FLW_MISDIR_COUNT : Fld := ⟨0, 32, .ro, 0, true⟩

/-- The register FLW_MISDIR (R364). -/
def FLW_MISDIR : RegD := ⟨0xc009000048, [], 4,
  [FLW_MISDIR_COUNT]⟩

/-- FLW_LEARN_FAIL.COUNT (R364). -/
def FLW_LEARN_FAIL_COUNT : Fld := ⟨0, 32, .ro, 0, true⟩

/-- The register FLW_LEARN_FAIL (R364). -/
def FLW_LEARN_FAIL : RegD := ⟨0xc00900004c, [], 4,
  [FLW_LEARN_FAIL_COUNT]⟩

/-- FLW_PUNT_DROP.COUNT (R364). -/
def FLW_PUNT_DROP_COUNT : Fld := ⟨0, 32, .ro, 0, true⟩

/-- The register FLW_PUNT_DROP (R364). -/
def FLW_PUNT_DROP : RegD := ⟨0xc009000050, [], 4,
  [FLW_PUNT_DROP_COUNT]⟩

/-- FLW_ACT_FAIL.COUNT (R364). -/
def FLW_ACT_FAIL_COUNT : Fld := ⟨0, 32, .ro, 0, true⟩

/-- The register FLW_ACT_FAIL (R364). -/
def FLW_ACT_FAIL : RegD := ⟨0xc009000054, [], 4,
  [FLW_ACT_FAIL_COUNT]⟩

/-- FLW_QFULL.COUNT (R364). -/
def FLW_QFULL_COUNT : Fld := ⟨0, 32, .ro, 0, true⟩

/-- The register FLW_QFULL (R364). -/
def FLW_QFULL : RegD := ⟨0xc009000058, [], 4,
  [FLW_QFULL_COUNT]⟩

/-- FLW_HB_REFUSED.COUNT (R364). -/
def FLW_HB_REFUSED_COUNT : Fld := ⟨0, 32, .ro, 0, true⟩

/-- The register FLW_HB_REFUSED (R364). -/
def FLW_HB_REFUSED : RegD := ⟨0xc00900005c, [], 4,
  [FLW_HB_REFUSED_COUNT]⟩

/-- FLW_RECLAIM.COUNT (R364). -/
def FLW_RECLAIM_COUNT : Fld := ⟨0, 32, .ro, 0, true⟩

/-- The register FLW_RECLAIM (R364). -/
def FLW_RECLAIM : RegD := ⟨0xc009000060, [], 4,
  [FLW_RECLAIM_COUNT]⟩

/-- FLW_AGED.COUNT (R364). -/
def FLW_AGED_COUNT : Fld := ⟨0, 32, .ro, 0, true⟩

/-- The register FLW_AGED (R364). -/
def FLW_AGED : RegD := ⟨0xc009000064, [], 4,
  [FLW_AGED_COUNT]⟩

/-- FLW_OWNMAP.OWNER (R364). -/
def FLW_OWNMAP_OWNER : Fld := ⟨0, 32, .rw, 0xaaaaaaaa, false⟩

/-- The register FLW_OWNMAP (R364). -/
def FLW_OWNMAP : RegD := ⟨0xc009000100, [(8, 0x4)], 4,
  [FLW_OWNMAP_OWNER]⟩

/-- FLW_PORT.START (R364). -/
def FLW_PORT_START : Fld := ⟨0, 6, .rw, 0, false⟩

/-- The register FLW_PORT (R364). -/
def FLW_PORT : RegD := ⟨0xc009000180, [(8, 0x4)], 4,
  [FLW_PORT_START]⟩

/-- FLW_KPROF.KLEN (R364). -/
def FLW_KPROF_KLEN : Fld := ⟨0, 6, .rw, 0, false⟩

/-- FLW_KPROF.EXACT (R364). -/
def FLW_KPROF_EXACT : Fld := ⟨6, 1, .rw, 0, false⟩

/-- FLW_KPROF.WILD (R364). -/
def FLW_KPROF_WILD : Fld := ⟨7, 1, .rw, 0, false⟩

/-- FLW_KPROF.DEFTPL (R364). -/
def FLW_KPROF_DEFTPL : Fld := ⟨8, 12, .rw, 0, false⟩

/-- FLW_KPROF.MISSTPL (R364). -/
def FLW_KPROF_MISSTPL : Fld := ⟨20, 12, .rw, 0, false⟩

/-- The register FLW_KPROF (R364). -/
def FLW_KPROF : RegD := ⟨0xc009000200, [(16, 0x4)], 4,
  [FLW_KPROF_KLEN, FLW_KPROF_EXACT, FLW_KPROF_WILD, FLW_KPROF_DEFTPL, FLW_KPROF_MISSTPL]⟩

/-- FLW_DTAB.QCAP (R364). -/
def FLW_DTAB_QCAP : Fld := ⟨0, 128, .rw, 0, false⟩

/-- The register FLW_DTAB (R364). -/
def FLW_DTAB : RegD := ⟨0xc009020000, [(4096, 0x10)], 16,
  [FLW_DTAB_QCAP]⟩

/-- MTR_STAT.PARITY (R393). -/
def MTR_STAT_PARITY : Fld := ⟨0, 1, .ro, 0, false⟩

/-- The register MTR_STAT (R393). -/
def MTR_STAT : RegD := ⟨0xc00a000000, [], 4,
  [MTR_STAT_PARITY]⟩

/-- MTR_POLCFG.RATE (R393). -/
def MTR_POLCFG_RATE : Fld := ⟨0, 24, .rw, 0, false⟩

/-- MTR_POLCFG.PKT (R393). -/
def MTR_POLCFG_PKT : Fld := ⟨24, 1, .rw, 0, false⟩

/-- MTR_POLCFG.EN (R393). -/
def MTR_POLCFG_EN : Fld := ⟨31, 1, .rw, 0, false⟩

/-- The register MTR_POLCFG (R393). -/
def MTR_POLCFG : RegD := ⟨0xc00a100000, [(4096, 0x80), (8, 0x10)], 4,
  [MTR_POLCFG_RATE, MTR_POLCFG_PKT, MTR_POLCFG_EN]⟩

/-- MTR_POLBURST.BURST (R393). -/
def MTR_POLBURST_BURST : Fld := ⟨0, 32, .rw, 0, false⟩

/-- The register MTR_POLBURST (R393). -/
def MTR_POLBURST : RegD := ⟨0xc00a100004, [(4096, 0x80), (8, 0x10)], 4,
  [MTR_POLBURST_BURST]⟩

/-- MTR_POLTOK.TOKENS (R393). -/
def MTR_POLTOK_TOKENS : Fld := ⟨0, 32, .ro, 0, false⟩

/-- The register MTR_POLTOK (R393). -/
def MTR_POLTOK : RegD := ⟨0xc00a100008, [(4096, 0x80), (8, 0x10)], 4,
  [MTR_POLTOK_TOKENS]⟩

/-- MTR_CNT.COUNT (R393). -/
def MTR_CNT_COUNT : Fld := ⟨0, 64, .ro, 0, false⟩

/-- The register MTR_CNT (R393). -/
def MTR_CNT : RegD := ⟨0xc00a200000, [(4096, 0x100), (24, 0x8)], 8,
  [MTR_CNT_COUNT]⟩

/-- MTR_GAUGE.MEMPAGES (R393). -/
def MTR_GAUGE_MEMPAGES : Fld := ⟨0, 32, .rw, 0, false⟩

/-- MTR_GAUGE.FLOWS (R393). -/
def MTR_GAUGE_FLOWS : Fld := ⟨32, 24, .ro, 0, false⟩

/-- The register MTR_GAUGE (R393). -/
def MTR_GAUGE : RegD := ⟨0xc00a400000, [(4096, 0x8)], 8,
  [MTR_GAUGE_MEMPAGES, MTR_GAUGE_FLOWS]⟩

/-- LDG_CTRL.SIGNMODE (R393). -/
def LDG_CTRL_SIGNMODE : Fld := ⟨0, 1, .rw, 0, false⟩

/-- LDG_CTRL.CSWAIT_S (R393). -/
def LDG_CTRL_CSWAIT_S : Fld := ⟨8, 8, .rw, 30, false⟩

/-- The register LDG_CTRL (R393). -/
def LDG_CTRL : RegD := ⟨0xc00b000000, [], 4,
  [LDG_CTRL_SIGNMODE, LDG_CTRL_CSWAIT_S]⟩

/-- LDG_STAT.SEALING (R393). -/
def LDG_STAT_SEALING : Fld := ⟨0, 1, .ro, 0, false⟩

/-- LDG_STAT.FLASHFAIL (R393). -/
def LDG_STAT_FLASHFAIL : Fld := ⟨1, 1, .w1c, 0, false⟩

/-- LDG_STAT.PARTIAL (R393). -/
def LDG_STAT_PARTIAL : Fld := ⟨2, 1, .w1c, 0, false⟩

/-- LDG_STAT.CSMISS (R393). -/
def LDG_STAT_CSMISS : Fld := ⟨3, 1, .w1c, 0, false⟩

/-- LDG_STAT.UNDELIV (R393). -/
def LDG_STAT_UNDELIV : Fld := ⟨4, 1, .w1c, 0, false⟩

/-- The register LDG_STAT (R393). -/
def LDG_STAT : RegD := ⟨0xc00b000004, [], 4,
  [LDG_STAT_SEALING, LDG_STAT_FLASHFAIL, LDG_STAT_PARTIAL, LDG_STAT_CSMISS, LDG_STAT_UNDELIV]⟩

/-- LDG_SEQ_LO.VALUE (R393). -/
def LDG_SEQ_LO_VALUE : Fld := ⟨0, 32, .ro, 0, false⟩

/-- The register LDG_SEQ_LO (R393). -/
def LDG_SEQ_LO : RegD := ⟨0xc00b000008, [], 4,
  [LDG_SEQ_LO_VALUE]⟩

/-- LDG_SEQ_HI.VALUE (R393). -/
def LDG_SEQ_HI_VALUE : Fld := ⟨0, 32, .ro, 0, false⟩

/-- The register LDG_SEQ_HI (R393). -/
def LDG_SEQ_HI : RegD := ⟨0xc00b00000c, [], 4,
  [LDG_SEQ_HI_VALUE]⟩

/-- LDG_KEYGEN.VALUE (R393). -/
def LDG_KEYGEN_VALUE : Fld := ⟨0, 32, .ro, 0, false⟩

/-- The register LDG_KEYGEN (R393). -/
def LDG_KEYGEN : RegD := ⟨0xc00b000010, [], 4,
  [LDG_KEYGEN_VALUE]⟩

/-- VIG_TSTAT.STATE (R393). -/
def VIG_TSTAT_STATE : Fld := ⟨0, 2, .ro, 0, false⟩

/-- VIG_TSTAT.SLEW (R393). -/
def VIG_TSTAT_SLEW : Fld := ⟨2, 1, .ro, 0, false⟩

/-- VIG_TSTAT.BEHIND (R393). -/
def VIG_TSTAT_BEHIND : Fld := ⟨3, 1, .ro, 0, false⟩

/-- VIG_TSTAT.TODERR (R393). -/
def VIG_TSTAT_TODERR : Fld := ⟨16, 16, .ro, 0, true⟩

/-- The register VIG_TSTAT (R393). -/
def VIG_TSTAT : RegD := ⟨0xc00c000000, [], 4,
  [VIG_TSTAT_STATE, VIG_TSTAT_SLEW, VIG_TSTAT_BEHIND, VIG_TSTAT_TODERR]⟩

/-- VIG_LC.STATE (R528). -/
def VIG_LC_STATE : Fld := ⟨0, 3, .ro, 0, false⟩

/-- VIG_LC.ENTRIES (R528). -/
def VIG_LC_ENTRIES : Fld := ⟨4, 3, .ro, 0, false⟩

/-- VIG_LC.PENDING (R528). -/
def VIG_LC_PENDING : Fld := ⟨7, 1, .ro, 0, false⟩

/-- The register VIG_LC (R528). -/
def VIG_LC : RegD := ⟨0xc00c000100, [], 4,
  [VIG_LC_STATE, VIG_LC_ENTRIES, VIG_LC_PENDING]⟩

/-- VIG_STRAP.HALF_ROLE0 (R574). -/
def VIG_STRAP_HALF_ROLE0 : Fld := ⟨0, 1, .ro, 0, false⟩

/-- VIG_STRAP.HALF_ROLE1 (R574). -/
def VIG_STRAP_HALF_ROLE1 : Fld := ⟨1, 1, .ro, 0, false⟩

/-- VIG_STRAP.BOOT_SRC (R574). -/
def VIG_STRAP_BOOT_SRC : Fld := ⟨2, 1, .ro, 0, false⟩

/-- The register VIG_STRAP (R574). -/
def VIG_STRAP : RegD := ⟨0xc00c000108, [], 4,
  [VIG_STRAP_HALF_ROLE0, VIG_STRAP_HALF_ROLE1, VIG_STRAP_BOOT_SRC]⟩

/-- MIR_CTRL.ENABLE (R416). -/
def MIR_CTRL_ENABLE : Fld := ⟨0, 1, .rw, 1, false⟩

/-- MIR_CTRL.FAILMODE (R416). -/
def MIR_CTRL_FAILMODE : Fld := ⟨1, 1, .rw, 0, false⟩

/-- MIR_CTRL.AUTORESYNC (R416). -/
def MIR_CTRL_AUTORESYNC : Fld := ⟨2, 1, .rw, 1, false⟩

/-- MIR_CTRL.FALLBACK_US (R416). -/
def MIR_CTRL_FALLBACK_US : Fld := ⟨16, 16, .rw, 0, false⟩

/-- The register MIR_CTRL (R416). -/
def MIR_CTRL : RegD := ⟨0xc006000000, [], 4,
  [MIR_CTRL_ENABLE, MIR_CTRL_FAILMODE, MIR_CTRL_AUTORESYNC, MIR_CTRL_FALLBACK_US]⟩

/-- MIR_STAT.ROLE (R416). -/
def MIR_STAT_ROLE : Fld := ⟨0, 3, .ro, 0, false⟩

/-- MIR_STAT.POS (R416). -/
def MIR_STAT_POS : Fld := ⟨3, 1, .ro, 0, false⟩

/-- MIR_STAT.LINKUP (R416). -/
def MIR_STAT_LINKUP : Fld := ⟨4, 1, .ro, 0, false⟩

/-- MIR_STAT.LINKHB (R416). -/
def MIR_STAT_LINKHB : Fld := ⟨5, 1, .ro, 0, false⟩

/-- MIR_STAT.BALL (R416). -/
def MIR_STAT_BALL : Fld := ⟨6, 2, .ro, 1, false⟩

/-- MIR_STAT.RESYNC_STEP (R416). -/
def MIR_STAT_RESYNC_STEP : Fld := ⟨8, 3, .ro, 0, false⟩

/-- The register MIR_STAT (R416). -/
def MIR_STAT : RegD := ⟨0xc006000004, [], 4,
  [MIR_STAT_ROLE, MIR_STAT_POS, MIR_STAT_LINKUP, MIR_STAT_LINKHB, MIR_STAT_BALL, MIR_STAT_RESYNC_STEP]⟩

/-- MIR_EPOCH.VALUE (R416). -/
def MIR_EPOCH_VALUE : Fld := ⟨0, 32, .ro, 0, false⟩

/-- The register MIR_EPOCH (R416). -/
def MIR_EPOCH : RegD := ⟨0xc006000008, [], 4,
  [MIR_EPOCH_VALUE]⟩

/-- MIR_PAIRID.VALUE (R416). -/
def MIR_PAIRID_VALUE : Fld := ⟨0, 32, .ro, 0, false⟩

/-- The register MIR_PAIRID (R416). -/
def MIR_PAIRID : RegD := ⟨0xc00600000c, [], 4,
  [MIR_PAIRID_VALUE]⟩

/-- MIR_CFGTAG.TAG (R416). -/
def MIR_CFGTAG_TAG : Fld := ⟨0, 32, .rw, 0, false⟩

/-- The register MIR_CFGTAG (R416). -/
def MIR_CFGTAG : RegD := ⟨0xc006000010, [], 4,
  [MIR_CFGTAG_TAG]⟩

/-- MIR_ERR.LINK_FAULT (R416). -/
def MIR_ERR_LINK_FAULT : Fld := ⟨0, 1, .w1c, 0, false⟩

/-- MIR_ERR.BALL_FAULT (R416). -/
def MIR_ERR_BALL_FAULT : Fld := ⟨1, 1, .w1c, 0, false⟩

/-- MIR_ERR.MEMDROP (R416). -/
def MIR_ERR_MEMDROP : Fld := ⟨2, 1, .w1c, 0, false⟩

/-- MIR_ERR.RESYNC_ABORT (R416). -/
def MIR_ERR_RESYNC_ABORT : Fld := ⟨3, 1, .w1c, 0, false⟩

/-- MIR_ERR.DEMOTED (R416). -/
def MIR_ERR_DEMOTED : Fld := ⟨4, 1, .w1c, 0, false⟩

/-- MIR_ERR.CFG_MISMATCH (R416). -/
def MIR_ERR_CFG_MISMATCH : Fld := ⟨5, 1, .w1c, 0, false⟩

/-- The register MIR_ERR (R416). -/
def MIR_ERR : RegD := ⟨0xc006000014, [], 4,
  [MIR_ERR_LINK_FAULT, MIR_ERR_BALL_FAULT, MIR_ERR_MEMDROP, MIR_ERR_RESYNC_ABORT, MIR_ERR_DEMOTED, MIR_ERR_CFG_MISMATCH]⟩

/-- MIR_MEMDROP.COUNT (R416). -/
def MIR_MEMDROP_COUNT : Fld := ⟨0, 32, .ro, 0, true⟩

/-- The register MIR_MEMDROP (R416). -/
def MIR_MEMDROP : RegD := ⟨0xc006000018, [], 4,
  [MIR_MEMDROP_COUNT]⟩

/-- MIR_TKTYPE.ETHERTYPE (R416). -/
def MIR_TKTYPE_ETHERTYPE : Fld := ⟨0, 16, .rw, 0x88b5, false⟩

/-- The register MIR_TKTYPE (R416). -/
def MIR_TKTYPE : RegD := ⟨0xc00600001c, [], 4,
  [MIR_TKTYPE_ETHERTYPE]⟩

/-- MIR_TKDA_LO.DA_LO (R416). -/
def MIR_TKDA_LO_DA_LO : Fld := ⟨0, 32, .rw, 0xffffffff, false⟩

/-- The register MIR_TKDA_LO (R416). -/
def MIR_TKDA_LO : RegD := ⟨0xc006000020, [], 4,
  [MIR_TKDA_LO_DA_LO]⟩

/-- MIR_TKDA_HI.DA_HI (R416). -/
def MIR_TKDA_HI_DA_HI : Fld := ⟨0, 16, .rw, 0xffff, false⟩

/-- The register MIR_TKDA_HI (R416). -/
def MIR_TKDA_HI : RegD := ⟨0xc006000024, [], 4,
  [MIR_TKDA_HI_DA_HI]⟩

/-- CMD_STAT.READY (R461). -/
def CMD_STAT_READY : Fld := ⟨0, 1, .ro, 0, false⟩

/-- CMD_STAT.RESETS (R461). -/
def CMD_STAT_RESETS : Fld := ⟨8, 8, .ro, 0, false⟩

/-- The register CMD_STAT (R461). -/
def CMD_STAT : RegD := ⟨0xc008000000, [], 4,
  [CMD_STAT_READY, CMD_STAT_RESETS]⟩

/-- CMD_TIMEOUT.LIMIT_MS (R461). -/
def CMD_TIMEOUT_LIMIT_MS : Fld := ⟨0, 16, .rw, 0x3e8, false⟩

/-- CMD_TIMEOUT.LATE (R461). -/
def CMD_TIMEOUT_LATE : Fld := ⟨16, 16, .ro, 0, true⟩

/-- The register CMD_TIMEOUT (R461). -/
def CMD_TIMEOUT : RegD := ⟨0xc008000004, [], 4,
  [CMD_TIMEOUT_LIMIT_MS, CMD_TIMEOUT_LATE]⟩

/-- CMD_QERR_LO.ERR (R461). -/
def CMD_QERR_LO_ERR : Fld := ⟨0, 32, .ro, 0, false⟩

/-- The register CMD_QERR_LO (R461). -/
def CMD_QERR_LO : RegD := ⟨0xc008000008, [], 4,
  [CMD_QERR_LO_ERR]⟩

/-- CMD_QERR_HI.ERR (R461). -/
def CMD_QERR_HI_ERR : Fld := ⟨0, 32, .ro, 0, false⟩

/-- The register CMD_QERR_HI (R461). -/
def CMD_QERR_HI : RegD := ⟨0xc00800000c, [], 4,
  [CMD_QERR_HI_ERR]⟩

/-- CMD_Q0SQ_LO.ADDR_LO (R461). -/
def CMD_Q0SQ_LO_ADDR_LO : Fld := ⟨12, 20, .rw, 0, false⟩

/-- The register CMD_Q0SQ_LO (R461). -/
def CMD_Q0SQ_LO : RegD := ⟨0xc008000010, [], 4,
  [CMD_Q0SQ_LO_ADDR_LO]⟩

/-- CMD_Q0SQ_HI.ADDR_HI (R461). -/
def CMD_Q0SQ_HI_ADDR_HI : Fld := ⟨0, 32, .rw, 0, false⟩

/-- The register CMD_Q0SQ_HI (R461). -/
def CMD_Q0SQ_HI : RegD := ⟨0xc008000014, [], 4,
  [CMD_Q0SQ_HI_ADDR_HI]⟩

/-- CMD_Q0CQ_LO.ADDR_LO (R461). -/
def CMD_Q0CQ_LO_ADDR_LO : Fld := ⟨12, 20, .rw, 0, false⟩

/-- The register CMD_Q0CQ_LO (R461). -/
def CMD_Q0CQ_LO : RegD := ⟨0xc008000018, [], 4,
  [CMD_Q0CQ_LO_ADDR_LO]⟩

/-- CMD_Q0CQ_HI.ADDR_HI (R461). -/
def CMD_Q0CQ_HI_ADDR_HI : Fld := ⟨0, 32, .rw, 0, false⟩

/-- The register CMD_Q0CQ_HI (R461). -/
def CMD_Q0CQ_HI : RegD := ⟨0xc00800001c, [], 4,
  [CMD_Q0CQ_HI_ADDR_HI]⟩

/-- CMD_Q0CFG.ENABLE (R461). -/
def CMD_Q0CFG_ENABLE : Fld := ⟨0, 1, .rw, 0, false⟩

/-- CMD_Q0CFG.SIZEM1 (R461). -/
def CMD_Q0CFG_SIZEM1 : Fld := ⟨1, 12, .rw, 0, false⟩

/-- CMD_Q0CFG.VECTOR (R461). -/
def CMD_Q0CFG_VECTOR : Fld := ⟨13, 6, .rw, 0, false⟩

/-- CMD_Q0CFG.COUNT (R461). -/
def CMD_Q0CFG_COUNT : Fld := ⟨19, 8, .rw, 0, false⟩

/-- The register CMD_Q0CFG (R461). -/
def CMD_Q0CFG : RegD := ⟨0xc008000020, [], 4,
  [CMD_Q0CFG_ENABLE, CMD_Q0CFG_SIZEM1, CMD_Q0CFG_VECTOR, CMD_Q0CFG_COUNT]⟩

/-- CMD_EVLOST.COUNT (R461). -/
def CMD_EVLOST_COUNT : Fld := ⟨0, 32, .ro, 0, true⟩

/-- The register CMD_EVLOST (R461). -/
def CMD_EVLOST : RegD := ⟨0xc008000024, [], 4,
  [CMD_EVLOST_COUNT]⟩

/-- CMD_RINGH.INDEX (R461). -/
def CMD_RINGH_INDEX : Fld := ⟨0, 16, .wo, 0, false⟩

/-- The register CMD_RINGH (R461). -/
def CMD_RINGH : RegD := ⟨0xc008000028, [(2, 0x4)], 4,
  [CMD_RINGH_INDEX]⟩

/-- CMD_Q0COAL.TIME (R461). -/
def CMD_Q0COAL_TIME : Fld := ⟨0, 8, .rw, 0, false⟩

/-- The register CMD_Q0COAL (R461). -/
def CMD_Q0COAL : RegD := ⟨0xc008000030, [], 4,
  [CMD_Q0COAL_TIME]⟩

/-- CMD_SQT.INDEX (R461). -/
def CMD_SQT_INDEX : Fld := ⟨0, 16, .wo, 0, false⟩

/-- The register CMD_SQT (R461). -/
def CMD_SQT : RegD := ⟨0xc008001000, [(64, 0x8)], 4,
  [CMD_SQT_INDEX]⟩

/-- CMD_CQH.INDEX (R461). -/
def CMD_CQH_INDEX : Fld := ⟨0, 16, .wo, 0, false⟩

/-- The register CMD_CQH (R461). -/
def CMD_CQH : RegD := ⟨0xc008001004, [(64, 0x8)], 4,
  [CMD_CQH_INDEX]⟩

/-- BG_MODE.SWEEP (R494). -/
def BG_MODE_SWEEP : Fld := ⟨0, 1, .rw, 0, false⟩

/-- BG_MODE.CLOCK (R494). -/
def BG_MODE_CLOCK : Fld := ⟨1, 1, .rw, 0, false⟩

/-- BG_MODE.SCRUB (R494). -/
def BG_MODE_SCRUB : Fld := ⟨2, 1, .rw, 0, false⟩

/-- BG_MODE.RETRAIN (R494). -/
def BG_MODE_RETRAIN : Fld := ⟨3, 1, .rw, 0, false⟩

/-- The register BG_MODE (R494). -/
def BG_MODE : RegD := ⟨0xc00d000000, [], 4,
  [BG_MODE_SWEEP, BG_MODE_CLOCK, BG_MODE_SCRUB, BG_MODE_RETRAIN]⟩

/-- BG_TRIM.LEVEL (R494). -/
def BG_TRIM_LEVEL : Fld := ⟨0, 3, .ro, 0, false⟩

/-- BG_TRIM.HOSTRATE (R494). -/
def BG_TRIM_HOSTRATE : Fld := ⟨4, 12, .rw, 0x800, false⟩

/-- BG_TRIM.CE_HI (R494). -/
def BG_TRIM_CE_HI : Fld := ⟨16, 8, .rw, 16, false⟩

/-- The register BG_TRIM (R494). -/
def BG_TRIM : RegD := ⟨0xc00d000004, [], 4,
  [BG_TRIM_LEVEL, BG_TRIM_HOSTRATE, BG_TRIM_CE_HI]⟩

/-- BG_TRIM_CE.COUNT (R494). -/
def BG_TRIM_CE_COUNT : Fld := ⟨0, 32, .ro, 0, true⟩

/-- The register BG_TRIM_CE (R494). -/
def BG_TRIM_CE : RegD := ⟨0xc00d000008, [], 4,
  [BG_TRIM_CE_COUNT]⟩

/-- BG_CAL.RETRAIN_S (R494). -/
def BG_CAL_RETRAIN_S : Fld := ⟨0, 16, .rw, 0x708, false⟩

/-- BG_CAL.FORCE_S (R494). -/
def BG_CAL_FORCE_S : Fld := ⟨16, 16, .rw, 0xe10, false⟩

/-- The register BG_CAL (R494). -/
def BG_CAL : RegD := ⟨0xc00d00000c, [], 4,
  [BG_CAL_RETRAIN_S, BG_CAL_FORCE_S]⟩

/-- BG_CALSTAT.DUE (R494). -/
def BG_CALSTAT_DUE : Fld := ⟨0, 4, .ro, 0, false⟩

/-- BG_CALSTAT.RUNNING (R494). -/
def BG_CALSTAT_RUNNING : Fld := ⟨4, 4, .ro, 0, false⟩

/-- BG_CALSTAT.FAILED (R494). -/
def BG_CALSTAT_FAILED : Fld := ⟨8, 4, .ro, 0, false⟩

/-- BG_CALSTAT.RETRAINS (R494). -/
def BG_CALSTAT_RETRAINS : Fld := ⟨16, 16, .ro, 0, true⟩

/-- The register BG_CALSTAT (R494). -/
def BG_CALSTAT : RegD := ⟨0xc00d000010, [], 4,
  [BG_CALSTAT_DUE, BG_CALSTAT_RUNNING, BG_CALSTAT_FAILED, BG_CALSTAT_RETRAINS]⟩

/-- BG_CLK.TWARN (R494). -/
def BG_CLK_TWARN : Fld := ⟨0, 8, .rw, 105, false⟩

/-- The register BG_CLK (R494). -/
def BG_CLK : RegD := ⟨0xc00d000014, [], 4,
  [BG_CLK_TWARN]⟩

/-- BG_SNF.RATE_GBS (R494). -/
def BG_SNF_RATE_GBS : Fld := ⟨0, 5, .rw, 20, false⟩

/-- BG_SNF.THRESH_MB (R494). -/
def BG_SNF_THRESH_MB : Fld := ⟨8, 16, .rw, 64, false⟩

/-- BG_SNF.DELAY_S (R494). -/
def BG_SNF_DELAY_S : Fld := ⟨24, 8, .rw, 10, false⟩

/-- The register BG_SNF (R494). -/
def BG_SNF : RegD := ⟨0xc00d000018, [], 4,
  [BG_SNF_RATE_GBS, BG_SNF_THRESH_MB, BG_SNF_DELAY_S]⟩

/-- BG_SNFSTAT.BUSY (R494). -/
def BG_SNFSTAT_BUSY : Fld := ⟨0, 1, .ro, 0, false⟩

/-- BG_SNFSTAT.WAITWICK (R494). -/
def BG_SNFSTAT_WAITWICK : Fld := ⟨1, 1, .ro, 0, false⟩

/-- BG_SNFSTAT.TENANT (R494). -/
def BG_SNFSTAT_TENANT : Fld := ⟨4, 12, .ro, 0, false⟩

/-- BG_SNFSTAT.PROGRESS (R494). -/
def BG_SNFSTAT_PROGRESS : Fld := ⟨16, 16, .ro, 0, false⟩

/-- The register BG_SNFSTAT (R494). -/
def BG_SNFSTAT : RegD := ⟨0xc00d00001c, [], 4,
  [BG_SNFSTAT_BUSY, BG_SNFSTAT_WAITWICK, BG_SNFSTAT_TENANT, BG_SNFSTAT_PROGRESS]⟩

/-- BG_OWNTAB.BASE_8M (R494). -/
def BG_OWNTAB_BASE_8M : Fld := ⟨0, 17, .rw, 0, false⟩

/-- The register BG_OWNTAB (R494). -/
def BG_OWNTAB : RegD := ⟨0xc00d000020, [], 4,
  [BG_OWNTAB_BASE_8M]⟩

/-- BG_ST.ENABLE (R494). -/
def BG_ST_ENABLE : Fld := ⟨0, 1, .rw, 1, false⟩

/-- BG_ST.PERIOD_MS (R494). -/
def BG_ST_PERIOD_MS : Fld := ⟨1, 16, .rw, 10, false⟩

/-- The register BG_ST (R494). -/
def BG_ST : RegD := ⟨0xc00d000024, [], 4,
  [BG_ST_ENABLE, BG_ST_PERIOD_MS]⟩

/-- BG_STSTAT.PASSED (R494). -/
def BG_STSTAT_PASSED : Fld := ⟨0, 12, .ro, 0, true⟩

/-- BG_STSTAT.DEFERRED (R494). -/
def BG_STSTAT_DEFERRED : Fld := ⟨12, 10, .ro, 0, true⟩

/-- BG_STSTAT.FAILED (R494). -/
def BG_STSTAT_FAILED : Fld := ⟨22, 10, .ro, 0, true⟩

/-- The register BG_STSTAT (R494). -/
def BG_STSTAT : RegD := ⟨0xc00d000028, [], 4,
  [BG_STSTAT_PASSED, BG_STSTAT_DEFERRED, BG_STSTAT_FAILED]⟩

/-- BG_STFAIL.SLICE (R494). -/
def BG_STFAIL_SLICE : Fld := ⟨0, 12, .ro, 0, false⟩

/-- BG_STFAIL.VALID (R494). -/
def BG_STFAIL_VALID : Fld := ⟨12, 1, .w1c, 0, false⟩

/-- The register BG_STFAIL (R494). -/
def BG_STFAIL : RegD := ⟨0xc00d00002c, [], 4,
  [BG_STFAIL_SLICE, BG_STFAIL_VALID]⟩

/-- BG_FLASH.RETRIES (R494). -/
def BG_FLASH_RETRIES : Fld := ⟨0, 16, .ro, 0, true⟩

/-- BG_FLASH.MAXERASES (R494). -/
def BG_FLASH_MAXERASES : Fld := ⟨16, 16, .ro, 0, false⟩

/-- The register BG_FLASH (R494). -/
def BG_FLASH : RegD := ⟨0xc00d000030, [], 4,
  [BG_FLASH_RETRIES, BG_FLASH_MAXERASES]⟩

/-- BG_CLKC.CAP_MHZ (R494). -/
def BG_CLKC_CAP_MHZ : Fld := ⟨0, 12, .rw, 0, false⟩

/-- BG_CLKC.FREQ_MHZ (R494). -/
def BG_CLKC_FREQ_MHZ : Fld := ⟨12, 12, .ro, 0x3e8, false⟩

/-- BG_CLKC.THROTTLED (R494). -/
def BG_CLKC_THROTTLED : Fld := ⟨24, 1, .ro, 0, false⟩

/-- The register BG_CLKC (R494). -/
def BG_CLKC : RegD := ⟨0xc00d000040, [(16, 0x4)], 4,
  [BG_CLKC_CAP_MHZ, BG_CLKC_FREQ_MHZ, BG_CLKC_THROTTLED]⟩

/-- HALF_RSTSTAT.CAUSE (R528). -/
def HALF_RSTSTAT_CAUSE : Fld := ⟨0, 4, .ro, 0, false⟩

/-- HALF_RSTSTAT.BOOTFAIL (R528). -/
def HALF_RSTSTAT_BOOTFAIL : Fld := ⟨4, 1, .ro, 0, false⟩

/-- The register HALF_RSTSTAT (R528). -/
def HALF_RSTSTAT : RegD := ⟨0xc000000300, [], 4,
  [HALF_RSTSTAT_CAUSE, HALF_RSTSTAT_BOOTFAIL]⟩

/-- HALF_WIPE.TAGDONE (R528). -/
def HALF_WIPE_TAGDONE : Fld := ⟨0, 1, .ro, 0, false⟩

/-- HALF_WIPE.ZERODONE (R528). -/
def HALF_WIPE_ZERODONE : Fld := ⟨1, 1, .ro, 0, false⟩

/-- HALF_WIPE.PROGRESS (R528). -/
def HALF_WIPE_PROGRESS : Fld := ⟨16, 16, .ro, 0, false⟩

/-- The register HALF_WIPE (R528). -/
def HALF_WIPE : RegD := ⟨0xc000000304, [], 4,
  [HALF_WIPE_TAGDONE, HALF_WIPE_ZERODONE, HALF_WIPE_PROGRESS]⟩

/-- HALF_WDOG.CLU_US (R528). -/
def HALF_WDOG_CLU_US : Fld := ⟨0, 10, .rw, 50, false⟩

/-- HALF_WDOG.DDR_US (R528). -/
def HALF_WDOG_DDR_US : Fld := ⟨16, 10, .rw, 40, false⟩

/-- The register HALF_WDOG (R528). -/
def HALF_WDOG : RegD := ⟨0xc000000308, [], 4,
  [HALF_WDOG_CLU_US, HALF_WDOG_DDR_US]⟩

/-- HALF_SWDOG.PERIOD_MS (R528). -/
def HALF_SWDOG_PERIOD_MS : Fld := ⟨0, 16, .rw, 200, false⟩

/-- HALF_SWDOG.KICK (R528). -/
def HALF_SWDOG_KICK : Fld := ⟨16, 1, .wo, 0, false⟩

/-- HALF_SWDOG.EXPIRIES (R528). -/
def HALF_SWDOG_EXPIRIES : Fld := ⟨20, 4, .ro, 0, false⟩

/-- The register HALF_SWDOG (R528). -/
def HALF_SWDOG : RegD := ⟨0xc00000030c, [], 4,
  [HALF_SWDOG_PERIOD_MS, HALF_SWDOG_KICK, HALF_SWDOG_EXPIRIES]⟩

/-- HALF_FAULTS.CORE (R528). -/
def HALF_FAULTS_CORE : Fld := ⟨0, 8, .ro, 0, true⟩

/-- HALF_FAULTS.CLUSTER (R528). -/
def HALF_FAULTS_CLUSTER : Fld := ⟨8, 8, .ro, 0, true⟩

/-- HALF_FAULTS.POISONED (R528). -/
def HALF_FAULTS_POISONED : Fld := ⟨16, 16, .ro, 0, true⟩

/-- The register HALF_FAULTS (R528). -/
def HALF_FAULTS : RegD := ⟨0xc000000310, [], 4,
  [HALF_FAULTS_CORE, HALF_FAULTS_CLUSTER, HALF_FAULTS_POISONED]⟩

/-- CLU_WDOG.CORE_US (R528). -/
def CLU_WDOG_CORE_US : Fld := ⟨0, 8, .rw, 10, false⟩

/-- CLU_WDOG.FAILED (R528). -/
def CLU_WDOG_FAILED : Fld := ⟨16, 16, .ro, 0, false⟩

/-- The register CLU_WDOG (R528). -/
def CLU_WDOG : RegD := ⟨0xc100000200, [(16, 0x1000000)], 4,
  [CLU_WDOG_CORE_US, CLU_WDOG_FAILED]⟩

/-- DBG_STAT.SESSION (R546). -/
def DBG_STAT_SESSION : Fld := ⟨0, 2, .ro, 0, false⟩

/-- DBG_STAT.SCOPE (R546). -/
def DBG_STAT_SCOPE : Fld := ⟨2, 12, .ro, 0, false⟩

/-- DBG_STAT.HALTS (R546). -/
def DBG_STAT_HALTS : Fld := ⟨14, 8, .ro, 0, false⟩

/-- The register DBG_STAT (R546). -/
def DBG_STAT : RegD := ⟨0xc00e000000, [], 4,
  [DBG_STAT_SESSION, DBG_STAT_SCOPE, DBG_STAT_HALTS]⟩

/-- DBG_IBP.EN (R546). -/
def DBG_IBP_EN : Fld := ⟨0, 1, .rw, 0, false⟩

/-- DBG_IBP.ACTION (R546). -/
def DBG_IBP_ACTION : Fld := ⟨1, 1, .rw, 0, false⟩

/-- DBG_IBP.ADDR (R546). -/
def DBG_IBP_ADDR : Fld := ⟨2, 46, .rw, 0, false⟩

/-- DBG_IBP.TENANT (R546). -/
def DBG_IBP_TENANT : Fld := ⟨48, 12, .rw, 0, false⟩

/-- DBG_IBP.ANYT (R546). -/
def DBG_IBP_ANYT : Fld := ⟨60, 1, .rw, 0, false⟩

/-- The register DBG_IBP (R546). -/
def DBG_IBP : RegD := ⟨0xc00e001000, [(264, 0x100), (8, 0x8)], 8,
  [DBG_IBP_EN, DBG_IBP_ACTION, DBG_IBP_ADDR, DBG_IBP_TENANT, DBG_IBP_ANYT]⟩

/-- DBG_WPA.ADDR (R546). -/
def DBG_WPA_ADDR : Fld := ⟨0, 48, .rw, 0, false⟩

/-- The register DBG_WPA (R546). -/
def DBG_WPA : RegD := ⟨0xc00e001040, [(264, 0x100), (4, 0x10)], 8,
  [DBG_WPA_ADDR]⟩

/-- DBG_WPC.EN (R546). -/
def DBG_WPC_EN : Fld := ⟨0, 1, .rw, 0, false⟩

/-- DBG_WPC.LOAD (R546). -/
def DBG_WPC_LOAD : Fld := ⟨2, 1, .rw, 0, false⟩

/-- DBG_WPC.STORE (R546). -/
def DBG_WPC_STORE : Fld := ⟨3, 1, .rw, 0, false⟩

/-- DBG_WPC.LOG2LEN (R546). -/
def DBG_WPC_LOG2LEN : Fld := ⟨4, 4, .rw, 0, false⟩

/-- DBG_WPC.TENANT (R546). -/
def DBG_WPC_TENANT : Fld := ⟨8, 12, .rw, 0, false⟩

/-- DBG_WPC.ANYT (R546). -/
def DBG_WPC_ANYT : Fld := ⟨20, 1, .rw, 0, false⟩

/-- The register DBG_WPC (R546). -/
def DBG_WPC : RegD := ⟨0xc00e001048, [(264, 0x100), (4, 0x10)], 8,
  [DBG_WPC_EN, DBG_WPC_LOAD, DBG_WPC_STORE, DBG_WPC_LOG2LEN, DBG_WPC_TENANT, DBG_WPC_ANYT]⟩

/-- DBG_CORE_HALT.HALTED (R546). -/
def DBG_CORE_HALT_HALTED : Fld := ⟨0, 64, .ro, 0, false⟩

/-- The register DBG_CORE_HALT (R546). -/
def DBG_CORE_HALT : RegD := ⟨0xc00e001080, [(264, 0x100)], 8,
  [DBG_CORE_HALT_HALTED]⟩

/-- DBG_CORE_CTRL.BRKHALT (R546). -/
def DBG_CORE_CTRL_BRKHALT : Fld := ⟨0, 1, .rw, 0, false⟩

/-- The register DBG_CORE_CTRL (R546). -/
def DBG_CORE_CTRL : RegD := ⟨0xc00e001088, [(264, 0x100)], 8,
  [DBG_CORE_CTRL_BRKHALT]⟩

/-- DDR_STAT.INIT_DONE (R560). -/
def DDR_STAT_INIT_DONE : Fld := ⟨0, 1, .ro, 0, false⟩

/-- DDR_STAT.DENSITY (R560). -/
def DDR_STAT_DENSITY : Fld := ⟨1, 2, .ro, 0, false⟩

/-- DDR_STAT.CHFAIL (R560). -/
def DDR_STAT_CHFAIL : Fld := ⟨4, 4, .ro, 0, false⟩

/-- The register DDR_STAT (R560). -/
def DDR_STAT : RegD := ⟨0xc004000000, [], 4,
  [DDR_STAT_INIT_DONE, DDR_STAT_DENSITY, DDR_STAT_CHFAIL]⟩

/-- DDR_ERR.UE_SEEN (R560). -/
def DDR_ERR_UE_SEEN : Fld := ⟨0, 1, .w1c, 0, false⟩

/-- DDR_ERR.UE_OVF (R560). -/
def DDR_ERR_UE_OVF : Fld := ⟨1, 1, .w1c, 0, false⟩

/-- DDR_ERR.CHANNEL (R560). -/
def DDR_ERR_CHANNEL : Fld := ⟨2, 2, .ro, 0, false⟩

/-- DDR_ERR.SUBCH (R560). -/
def DDR_ERR_SUBCH : Fld := ⟨4, 1, .ro, 0, false⟩

/-- The register DDR_ERR (R560). -/
def DDR_ERR : RegD := ⟨0xc004000004, [], 4,
  [DDR_ERR_UE_SEEN, DDR_ERR_UE_OVF, DDR_ERR_CHANNEL, DDR_ERR_SUBCH]⟩

/-- DDR_UEADDR_LO.LINE_LO (R560). -/
def DDR_UEADDR_LO_LINE_LO : Fld := ⟨0, 32, .ro, 0, false⟩

/-- The register DDR_UEADDR_LO (R560). -/
def DDR_UEADDR_LO : RegD := ⟨0xc004000008, [], 4,
  [DDR_UEADDR_LO_LINE_LO]⟩

/-- DDR_UEADDR_HI.LINE_HI (R560). -/
def DDR_UEADDR_HI_LINE_HI : Fld := ⟨0, 2, .ro, 0, false⟩

/-- The register DDR_UEADDR_HI (R560). -/
def DDR_UEADDR_HI : RegD := ⟨0xc00400000c, [], 4,
  [DDR_UEADDR_HI_LINE_HI]⟩

/-- DDR_CE.COUNT (R560). -/
def DDR_CE_COUNT : Fld := ⟨0, 32, .ro, 0, true⟩

/-- The register DDR_CE (R560). -/
def DDR_CE : RegD := ⟨0xc004000010, [(4, 0x4)], 4,
  [DDR_CE_COUNT]⟩

/-- ETH_CFG.QMODE0 (R565). -/
def ETH_CFG_QMODE0 : Fld := ⟨0, 2, .rw, 0, false⟩

/-- ETH_CFG.QMODE1 (R565). -/
def ETH_CFG_QMODE1 : Fld := ⟨2, 2, .rw, 0, false⟩

/-- ETH_CFG.TXINV (R565). -/
def ETH_CFG_TXINV : Fld := ⟨8, 8, .rw, 0, false⟩

/-- ETH_CFG.RXINV (R565). -/
def ETH_CFG_RXINV : Fld := ⟨16, 8, .rw, 0, false⟩

/-- The register ETH_CFG (R565). -/
def ETH_CFG : RegD := ⟨0xc005000000, [], 4,
  [ETH_CFG_QMODE0, ETH_CFG_QMODE1, ETH_CFG_TXINV, ETH_CFG_RXINV]⟩

/-- ETH_PSTAT.CFG (R565). -/
def ETH_PSTAT_CFG : Fld := ⟨0, 1, .ro, 0, false⟩

/-- ETH_PSTAT.UP (R565). -/
def ETH_PSTAT_UP : Fld := ⟨1, 1, .ro, 0, false⟩

/-- The register ETH_PSTAT (R565). -/
def ETH_PSTAT : RegD := ⟨0xc005000010, [(8, 0x4)], 4,
  [ETH_PSTAT_CFG, ETH_PSTAT_UP]⟩

/-- ETH_FCSERR.COUNT (R565). -/
def ETH_FCSERR_COUNT : Fld := ⟨0, 32, .ro, 0, true⟩

/-- The register ETH_FCSERR (R565). -/
def ETH_FCSERR : RegD := ⟨0xc005000040, [(8, 0x10)], 4,
  [ETH_FCSERR_COUNT]⟩

/-- ETH_TXDROP.COUNT (R565). -/
def ETH_TXDROP_COUNT : Fld := ⟨0, 32, .ro, 0, true⟩

/-- The register ETH_TXDROP (R565). -/
def ETH_TXDROP : RegD := ⟨0xc005000044, [(8, 0x10)], 4,
  [ETH_TXDROP_COUNT]⟩

/-- ETH_FECCORR.COUNT (R565). -/
def ETH_FECCORR_COUNT : Fld := ⟨0, 32, .ro, 0, true⟩

/-- The register ETH_FECCORR (R565). -/
def ETH_FECCORR : RegD := ⟨0xc005000048, [(8, 0x10)], 4,
  [ETH_FECCORR_COUNT]⟩

/-- ETH_FECUNC.COUNT (R565). -/
def ETH_FECUNC_COUNT : Fld := ⟨0, 32, .ro, 0, true⟩

/-- The register ETH_FECUNC (R565). -/
def ETH_FECUNC : RegD := ⟨0xc00500004c, [(8, 0x10)], 4,
  [ETH_FECUNC_COUNT]⟩

/-- PCIE_STAT.LINKUP (R568). -/
def PCIE_STAT_LINKUP : Fld := ⟨0, 1, .ro, 0, false⟩

/-- PCIE_STAT.SPEED (R568). -/
def PCIE_STAT_SPEED : Fld := ⟨1, 3, .ro, 0, false⟩

/-- PCIE_STAT.WIDTH (R568). -/
def PCIE_STAT_WIDTH : Fld := ⟨4, 3, .ro, 0, false⟩

/-- PCIE_STAT.D3 (R568). -/
def PCIE_STAT_D3 : Fld := ⟨7, 1, .ro, 0, false⟩

/-- The register PCIE_STAT (R568). -/
def PCIE_STAT : RegD := ⟨0xc007000000, [], 4,
  [PCIE_STAT_LINKUP, PCIE_STAT_SPEED, PCIE_STAT_WIDTH, PCIE_STAT_D3]⟩

/-- PCIE_ERR.CPL_TIMEOUT (R568). -/
def PCIE_ERR_CPL_TIMEOUT : Fld := ⟨0, 1, .w1c, 0, false⟩

/-- PCIE_ERR.UR_RECEIVED (R568). -/
def PCIE_ERR_UR_RECEIVED : Fld := ⟨1, 1, .w1c, 0, false⟩

/-- PCIE_ERR.POISONED (R568). -/
def PCIE_ERR_POISONED : Fld := ⟨2, 1, .w1c, 0, false⟩

/-- PCIE_ERR.LINKDOWN (R568). -/
def PCIE_ERR_LINKDOWN : Fld := ⟨3, 1, .w1c, 0, false⟩

/-- The register PCIE_ERR (R568). -/
def PCIE_ERR : RegD := ⟨0xc007000004, [], 4,
  [PCIE_ERR_CPL_TIMEOUT, PCIE_ERR_UR_RECEIVED, PCIE_ERR_POISONED, PCIE_ERR_LINKDOWN]⟩

/-- Registers, part 0. -/
def regs0 : List RegD := [WCK_CTRL, WCK_STATUS, WCK_TIMEOUT, WCK_ERR, WCK_PKT_DROPS, HALF_TAG_BASE, HALF_TAGC_MISS, HALF_TAGC_ERR, HALF_TAGC_UEADDR, HALF_TASKCFG, CLU_TASKCFG, CORE_VCTX]

/-- Registers, part 1. -/
def regs1 : List RegD := [CORE_VMARK, CORE_VRECLAIM, CLU_XVEC_SVC, CLU_XVEC_MCH, CLU_XSTAT, CLU_EXTCOUNT, HALF_SCXVEC_SVC, HALF_SCXVEC_MCH, HALF_SCXSTAT, HALF_SCEXTCOUNT, SCH_CTRL, SCH_EVAREA]

/-- Registers, part 2. -/
def regs2 : List RegD := [SCH_QSEL, SCH_QSTAT, SCH_IDLE, SCH_KILLS, SCH_UNDELIV, SCH_NOTICE_LOST, SCH_QFREE, SCH_CTAB, SCH_BAL, SCH_BALSTAT, SCH_EPOCH, HALF_DMA_RING]

/-- Registers, part 3. -/
def regs3 : List RegD := [HALF_DMA_TAIL, HALF_DMA_HEAD, HALF_DMA_CTRL, HALF_DMA_STAT, XLT_CTRL, XLT_TTAB, XLT_S1TAB, XLT_ADREQ_LO, XLT_ADREQ_HI, XLT_ADACK, XLT_WALKS, GRD_HSTAT]

/-- Registers, part 4. -/
def regs4 : List RegD := [GRD_KEY, GRD_VINFO, GRD_VADDR_LO, GRD_VADDR_HI, GRD_VOVF, GRD_LOCKED, GRD_SLOT, FLW_CTRL, FLW_MODE, FLW_TBL, FLW_TBASE, FLW_HASHSEED]

/-- Registers, part 5. -/
def regs5 : List RegD := [FLW_AGE, FLW_PB, FLW_EGQ, FLW_PGCTRL, FLW_OVF_BASE, FLW_OVF_SIZE, FLW_PBCAP, FLW_PARSE_ERR, FLW_RX_DROP, FLW_MISDIR, FLW_LEARN_FAIL, FLW_PUNT_DROP]

/-- Registers, part 6. -/
def regs6 : List RegD := [FLW_ACT_FAIL, FLW_QFULL, FLW_HB_REFUSED, FLW_RECLAIM, FLW_AGED, FLW_OWNMAP, FLW_PORT, FLW_KPROF, FLW_DTAB, MTR_STAT, MTR_POLCFG, MTR_POLBURST]

/-- Registers, part 7. -/
def regs7 : List RegD := [MTR_POLTOK, MTR_CNT, MTR_GAUGE, LDG_CTRL, LDG_STAT, LDG_SEQ_LO, LDG_SEQ_HI, LDG_KEYGEN, VIG_TSTAT, VIG_LC, VIG_STRAP, MIR_CTRL]

/-- Registers, part 8. -/
def regs8 : List RegD := [MIR_STAT, MIR_EPOCH, MIR_PAIRID, MIR_CFGTAG, MIR_ERR, MIR_MEMDROP, MIR_TKTYPE, MIR_TKDA_LO, MIR_TKDA_HI, CMD_STAT, CMD_TIMEOUT, CMD_QERR_LO]

/-- Registers, part 9. -/
def regs9 : List RegD := [CMD_QERR_HI, CMD_Q0SQ_LO, CMD_Q0SQ_HI, CMD_Q0CQ_LO, CMD_Q0CQ_HI, CMD_Q0CFG, CMD_EVLOST, CMD_RINGH, CMD_Q0COAL, CMD_SQT, CMD_CQH, BG_MODE]

/-- Registers, part 10. -/
def regs10 : List RegD := [BG_TRIM, BG_TRIM_CE, BG_CAL, BG_CALSTAT, BG_CLK, BG_SNF, BG_SNFSTAT, BG_OWNTAB, BG_ST, BG_STSTAT, BG_STFAIL, BG_FLASH]

/-- Registers, part 11. -/
def regs11 : List RegD := [BG_CLKC, HALF_RSTSTAT, HALF_WIPE, HALF_WDOG, HALF_SWDOG, HALF_FAULTS, CLU_WDOG, DBG_STAT, DBG_IBP, DBG_WPA, DBG_WPC, DBG_CORE_HALT]

/-- Registers, part 12. -/
def regs12 : List RegD := [DBG_CORE_CTRL, DDR_STAT, DDR_ERR, DDR_UEADDR_LO, DDR_UEADDR_HI, DDR_CE, ETH_CFG, ETH_PSTAT, ETH_FCSERR, ETH_TXDROP, ETH_FECCORR, ETH_FECUNC]

/-- Registers, part 13. -/
def regs13 : List RegD := [PCIE_STAT, PCIE_ERR]

/-- Every register of the device. -/
def allRegs : List RegD := regs0 ++ regs1 ++ regs2 ++ regs3 ++ regs4 ++ regs5 ++ regs6 ++ regs7 ++ regs8 ++ regs9 ++ regs10 ++ regs11 ++ regs12 ++ regs13

/-- The register and instance that starts at local address `la`. -/
def regAt (la : Nat) : Option (RegD × List Nat) :=
  allRegs.findSome? (fun d => (d.ix? la).map (fun ix => (d, ix)))

/-- The reset value of a register from its fields. -/
def RegD.rst (d : RegD) : Nat := d.flds.foldl (fun n f => n + (f.rst % 2 ^ f.w) * 2 ^ f.lo) 0

end Sys2Proof.Machine
end

