-- ==== Sys2Proof/Machine/VigTypes.lean ====
section
/-! DEFINITION. The state of the always-on Vigil island (R17) as plain data. -/

namespace Sys2Proof.Machine

/-- An open Taper session (R533 to R536): kind (1 full, 2 tenant), scope, rights and the device time it ends at. -/
structure Session where
  kind : Nat
  scope : Nat
  rights : Nat
  notafter : Nat
deriving DecidableEq, Repr

/-- A seal that has not formed its records (R377 to R380): when its boundary fell (elapsed ns), MINUTE, minutes covered,
time flags of the root, parity of the closed banks, whether half 1's totals have arrived, whether it goes on without them,
the tenants whose counts in the closed bank hold a peer's earlier minute (R412), the halves whose FINAL delta has been
sent (R403). -/
structure Seal where
  since : Nat
  minute : Nat
  span : Nat
  flags : Nat
  par : Nat
  arrived : Bool
  part : Bool
  marks : List Nat
  finals : Two Bool
deriving DecidableEq, Repr

/-- A root on its way to the flash (R384 to R386): SEQ, MINUTE, ROOTMSG, records, the signature once signed. -/
structure Root where
  seq : Nat
  minute : Nat
  msg : List Byte
  recs : List (List Byte)
  sig : Option (List Byte)
deriving DecidableEq, Repr

/-- A ledger block held for the host (R382, R448): SEQ, MINUTE, bytes, whether it is the peer's, and whether it has been sent to the
peer (R403, R414). -/
structure Block where
  seq : Nat
  minute : Nat
  bytes : List Byte
  peer : Bool
  sent : Bool
deriving DecidableEq, Repr

/-- A delta count of the peer (R403, R411): half, tenant, MINUTE, billable counts. -/
structure Shadow where
  half : Nat
  tenant : Nat
  minute : Nat
  counts : List Nat
deriving DecidableEq, Repr

/-- The I3C target (R458): dynamic address (0 for none), events enabled, maximum read and write lengths, the outstanding
command, the completion to read, the bytes of the last read that the island served itself, in-band interrupts sent. -/
structure I3c where
  addr : Nat
  ibi : Bool
  mwl : Nat
  mrl : Nat
  busy : Bool
  reply : List Byte
  sent : List Byte
  ibis : Nat
deriving DecidableEq, Repr

/-- The boundary-scan port (R547): the instruction, the last value shifted out, the boundary register. -/
structure Jtag where
  ir : Nat
  out : Nat
  bsr : Nat
  driven : Bool
  floating : Bool
deriving DecidableEq, Repr

/-- The Vigil island. Time: elapsed oscillator nanoseconds `clk`, device time `dt` and its fraction, time state (R374), the
remaining correction in hundredths of a nanosecond and whether a slew is in progress, the label for the next edge, the last
edge and the last accepted one, the last intervals, TODERR. Counters: minute parity, banks by ((half * 2 + parity) * 4096 +
tenant) * 24 + counter, what the peer was last told of each tenant's billable counts (R403), gauge milliseconds added. Ledger: last sealed SEQ, the next root's SEQ and whether it takes one more
in host-assisted mode (R390), restart and first-root marks, the seal, the minutes sealed so far, the tenants to mark CARRIED, the root
under way, blocks, half 1's late set and the counts carried (by half * 4096 + tenant), flash bytes (erased 0xFF), sectors and
their erase counts, programs (SEQ, bytes, device signature), the erase under way (sector, failures) and the SEQBASE + 1 of the sector
that the last erase ahead was for (R389), roots that await a
countersignature (SEQ, message, when signed), host key, LDG_CTRL and LDG_STAT, repeated erases (BG_FLASH.RETRIES). Life cycle: state, fuse entries, the
transition under way, recovery done. Taper: session, debug keys by scope, challenge, the last
response, and a request that waits (OP, SEQ, payload). Straps, RESET_N, trip. -/
structure Vig where
  clk : Nat
  dt : Nat
  frac : Nat
  tstate : Nat
  err : Int
  slew : Bool
  label : Option Nat
  lastEdge : Option Nat
  edge : Option Nat
  edges : List Nat
  toderr : Nat
  parity : Nat
  banks : NMap Nat
  told : NMap (List Nat)
  gaugeMs : Two Nat
  seq : Nat
  seqNext : Nat
  seqSkip : Bool
  restart : Bool
  firstKey : Bool
  sealing : Option Seal
  boundary : Nat
  carried : List Nat
  root : Option Root
  blocks : List Block
  late : NMap (List Nat)
  carry : NMap (List Nat)
  flash : NMap Byte
  sectors : Nat
  erases : NMap Nat
  progs : List (Nat × List Byte × Bool)
  erase : Option (Nat × Nat)
  ahead : Nat
  cs : List (Nat × List Byte × Nat)
  hostKey : Option (List Byte)
  signMode : Nat
  signNow : Nat
  csWait : Nat
  ldgStat : Nat
  retries : Nat
  lc : Nat
  entries : Nat
  lcNext : Option Nat
  recovered : Bool
  session : Option Session
  dbgKeys : NMap (List Byte)
  challenge : Option (List Byte)
  taper : List Byte
  held : Option (Nat × Nat × List Byte)
  pair : Pair
  shadow : List Shadow
  i3c : I3c
  jtag : Jtag
  straps : Nat
  resetN : Bool
  trip : Bool
deriving DecidableEq, Repr

/-- The Vigil island right after the first power-on reset: device time 0 (R373), not bound, life-cycle state BLANK with one
entry recorded (R512). -/
def Vig.reset : Vig :=
  { clk := 0, dt := 0, frac := 0, tstate := 0, err := 0, slew := false, label := none, lastEdge := none, edge := none
    edges := [], toderr := 0, parity := 0, banks := [], told := [], gaugeMs := ⟨0, 0⟩, seq := 0, seqNext := 0, seqSkip := false
    restart := true, firstKey := true, sealing := none, boundary := 0, carried := [], root := none, blocks := [], late := []
    carry := [], flash := [], sectors := 0, erases := [], progs := [], erase := none, ahead := 0, cs := [], hostKey := none
    signMode := 0, signNow := 0, csWait := 30, ldgStat := 0, retries := 0, lc := 0, entries := 1, lcNext := none, recovered := false
    session := none, dbgKeys := []
    challenge := none, taper := [], held := none, pair := Pair.reset, shadow := []
    i3c := { addr := 0, ibi := true, mwl := 64, mrl := 32, busy := false, reply := [], sent := [], ibis := 0 }
    jtag := { ir := 0, out := 0, bsr := 0, driven := false, floating := false }, straps := 0, resetN := true, trip := false }

end Sys2Proof.Machine
end

