-- ==== Sys2Proof/Machine/WickTypes.lean ====
section
/-! DEFINITION. The state of Wick (R19 to R29) as plain data: messages, flits, ports. -/

namespace Sys2Proof.Machine

/-- A remote memory request (MEM_REQ): what the far half performs and for whom (R265, R272). `task` and `op` name the
long operation that waits (`task` 65,536 + key is a DMA engine, 65,600 + half the PCIe endpoint, `op` the endpoint's access);
`val` and `val2` are the capabilities a store or a push writes; `own`, `tenant`, `comp` and `mach` say who issued it: the tenant at Tenant privilege (R349), the
tenant and compartment current at its issue, and whether at Machine privilege. -/
structure MemReq where
  task : Nat
  op : Nat
  kind : OpKind
  pieces : List Piece
  size : Nat
  capw : Bool
  colour : Nat
  fn : Nat
  val : Cap
  val2 : Cap
  cmp : Nat
  data : List Byte
  own : Option Nat
  tenant : Nat
  comp : Nat
  mach : Bool
  va : Nat
deriving DecidableEq, Repr

/-- The response to a memory request (MEM_RSP): a cause code (0 when it was performed), the bytes read (of a failed vector
operation, those before the failing byte) and the tags of the granules read. -/
structure MemRsp where
  task : Nat
  op : Nat
  code : Nat
  data : List Byte
  tags : Nat
deriving DecidableEq, Repr

/-- What a Wick message carries (R21). `frame` is PACKET traffic: kind (0 misdirected, 1 for delivery, 2 for egress),
the frame's bytes and its metadata numbers. `mgmt` is MGMT traffic: kind, numbers, bytes. -/
inductive WBody where
  | memReq (r : MemReq) | memRsp (r : MemRsp) | event (e : OutEv)
  | frame (kind : Nat) (bytes : List Byte) (info : List Nat)
  | mgmt (kind : Nat) (nums : List Nat) (bytes : List Byte)
deriving DecidableEq, Repr

/-- A Wick message (R20): virtual channel, TYPE, LEN, SRC, TAG and content. -/
structure WMsg where
  vc : Nat
  typ : Nat
  len : Nat
  src : Nat
  tag : Nat
  body : WBody
deriving DecidableEq, Repr

/-- A flit (R19): its control word, its 56 payload bytes, and, in a last flit, the message it ends. -/
structure Flit where
  ctl : Nat
  pay : List Byte
  msg : Option WMsg
deriving DecidableEq, Repr

/-- A request that waits for its response (R27): tag, virtual channel, when it was sent (elapsed ns), the waiting task
and operation, or the forwarded command's identity. -/
structure WReq where
  tag : Nat
  vc : Nat
  sent : Nat
  task : Nat
  op : Nat
deriving DecidableEq, Repr

/-- One half's Wick port: its transmit direction and its receiver (R22, R23, R26, R28, R29). `wire` holds flits on
their way to this half; `inbox` delivered messages that no command has taken yet; `farTop` the far half's usable DRAM
limit exchanged at training (R311). -/
structure WickPort where
  txq : NMap (List Flit)
  credits : NMap Nat
  retCred : NMap Nat
  seqNext : Nat
  replay : List Flit
  resend : List Flit
  acked : Nat
  replays : Nat
  progress : Nat
  share : List Bool
  rr : Nat
  rxSeq : Nat
  nak : Bool
  skip : Bool
  wire : List Flit
  inbox : List WMsg
  reqs : List WReq
  late : List WReq
  nextTag : Nat
  up : Bool
  down : Bool
  training : Bool
  trainSince : Nat
  fails : Nat
  farTop : Nat
deriving DecidableEq, Repr

/-- A held A/D request (R298, R309): its ID, the entry's address, tenant, whether D is wanted, and whether it has been
read out of the queue. -/
structure AdReq where
  id : Nat
  leaf : Nat
  tenant : Nat
  dirty : Bool
  taken : Bool
deriving DecidableEq, Repr

/-- A DMA engine's descriptor in progress (R303 to R306): ring index, source and destination capabilities, length,
operation, flags, pattern, bytes moved, whether a violation was met, how it failed (a cause; 0 when aborted), the bytes
read of the present piece, once they are, the far access it waits for, with its answer: cause, bytes, tags (R304), and what the
engine does: 0 reads the descriptor, 1 moves bytes, 2 writes its end. -/
structure Dma where
  index : Nat
  src : Cap
  dst : Cap
  len : Nat
  op : Nat
  flags : Nat
  pattern : Nat
  moved : Nat
  guard : Bool
  fail : Option Nat
  buf : Option (List Byte)
  far : Option (Option (Nat × List Byte × Nat))
  phase : Nat
deriving DecidableEq, Repr

end Sys2Proof.Machine
end

