-- ==== Sys2Proof/Machine/Chip.lean ====
section
/-! DEFINITION. The state of everything outside the Vigil island, and the initial values of its parts. -/

namespace Sys2Proof.Machine

/-- Everything outside the Vigil island. Maps list only what differs from the initial value of the part. Keys: core
number = half * 256 + cluster * 16 + core, 512 + half for a service core; task key = core number * 64 + task; cluster
key = half * 16 + cluster (32 + half for the service core's outbound events); register-store entry key = core number * 4096 + entry; group key = core number * 512 + group; tag-cache set key = half * 4096 + set; `clmTen` the tenant whose
task stored the capability of a granule of cluster local memory (R73), by granule number; `walkX` the line a walker's read of which has
expired (R521), until the next tick; `carry`, `moves` and `moveFrom` (the task that a moving compartment was bound to, R38) by compartment ID;
DMA engine key = half * 4 + engine. -/
structure Chip where
  ram : Ram
  tagc : NMap (List TagLine)
  carry : NMap Carry
  clmTen : NMap Nat
  walkX : Option Nat
  csr : NMap Word
  csrCap : NMap Cap
  free : Nat
  store : NMap Cap
  dirty : NMap Unit
  zero : NMap Unit
  rsBad : NMap Unit
  tasks : NMap Task
  cores : NMap CoreSt
  clusters : NMap Cluster
  hev : Two (List (Nat × List Byte))
  evLost : Two Nat
  epochs : Two Nat
  loads : NMap Nat
  readyAt : NMap Nat
  moves : NMap (Nat × Nat)
  moveFrom : NMap Nat
  moveEnds : List (Nat × Nat)
  wick : Two WickPort
  inc : NMap Nat
  adq : Two (List AdReq)
  dma : NMap Dma
  runs : Two (NMap Run)
  hbq : Two (List HandBack)
  mirq : Two (List MirLine)
  compLoad : NMap (Nat × Nat)
  attn : Nat
  flow : Two Flow
  mir : Two MirLink
  adrus : Two Adrus
  bg : Two Bg
  half : Two Half
  sweepQ : List Nat
  sweep : Option Sweep
deriving DecidableEq, Repr

/-- A task that is not bound: every register zero but STATUS.P0 and EVMASK (R107, R112). -/
def Task.reset : Task :=
  { pcc := Cap.null, epc := Cap.null, rsrc := Cap.null, rdst := Cap.null, rsc := Cap.null, status := 1, estatus := 1
    cause := 0, faddr := 0, fdata := 0, mh := 0, ml := 0, rc := 0, lc := 0, ls := 0, le := 0, crcpoly := 0, vl := 0
    evmask := 0xFF, comp := 0, tenant := 0, bound := none, weight := 0, svc := false, evcount := 0, lastPc := 0, wait := .none
    woken := none, ops := [], fails := [], rep := none, org := none, multi := none, fq := [], ffault := none, late := []
    lastOp := none, fresh := false, pairOpen := false, noBp := false, halted := false, haltReq := false, stepping := false, dead := false }

/-- A core after reset (R194, R187, R189, R500). -/
def CoreSt.reset : CoreSt :=
  { cyc := 0, sb := [], divDue := 0, vctx := [], vreclaims := 0, holder := none, lastHolder := 63, slice := 0, btb := []
    loopBuf := none, seq := 2, passes := 0, utlb := [], icache := [], inReset := false, failed := false, drained := false, testing := false
    lastIssue := 0, due := none, faultAt := none }

/-- A cluster after reset, with task code `tcfg` (R81), its island at 1,000 MHz and calibrating (R32). -/
def Cluster.reset (tcfg : Nat) : Cluster :=
  { tcfg := tcfg, slots := [], outb := [], pend := [], tlb := [], l2 := [], wcache := [], dcache := [], freq := 1000, calib := true
    inReset := false, wiped := true, loadCyc := 0, fAcc := 0, fAt := 0, probeAt := 0, noAns := none, stuck := [], due := none, waitStamp := 0 }

/-- A Wick port before training: no credits, not up (R29). -/
def WickPort.reset : WickPort :=
  { txq := [], credits := [], retCred := [], seqNext := 0, replay := [], resend := [], acked := 255, replays := 0
    progress := 0, share := [], rr := 1, rxSeq := 255, nak := false, skip := false, wire := [], inbox := [], reqs := []
    late := [], nextTag := 0, up := false, down := false, training := true, trainSince := 0, fails := 0, farTop := 0 }

/-- An empty memory: nothing listed, no DRAM known (R75, HALF_TAG_BASE 0). -/
def Ram.empty : Ram := { cells := [], tags := [], sumOn := ⟨false, false⟩, sumClr := [], poison := [], watch := [], fitted := ⟨0, 0⟩ }

/-- Everything outside the Vigil island at power-on reset. -/
def Chip.reset : Chip :=
  { ram := Ram.empty, tagc := [], carry := [], clmTen := [], walkX := none, csr := [], csrCap := [], free := 0, store := [], dirty := [], zero := [], rsBad := [], tasks := []
    cores := (List.range 2).map (fun h => (512 + h, { CoreSt.reset with inReset := true }))
    clusters := (List.range 32).map (fun c => (c, { Cluster.reset 1 with inReset := true })), hev := ⟨[], []⟩
    evLost := ⟨0, 0⟩, epochs := ⟨0, 0⟩, loads := [], readyAt := []
    moves := [], moveFrom := [], moveEnds := [], wick := ⟨WickPort.reset, WickPort.reset⟩, inc := [], adq := ⟨[], []⟩
    dma := [], runs := ⟨[], []⟩
    hbq := ⟨[], []⟩, mirq := ⟨[], []⟩, compLoad := [], attn := 0, flow := ⟨Flow.reset, Flow.reset⟩
    mir := ⟨MirLink.reset, MirLink.reset⟩, adrus := ⟨Adrus.reset, Adrus.reset⟩, bg := ⟨Bg.reset, Bg.reset⟩
    half := ⟨Half.reset, Half.reset⟩, sweepQ := [], sweep := none }

/-- The task of a key. -/
def Chip.task (ch : Chip) (t : Nat) : Task := mGet ch.tasks t Task.reset
/-- Replace the task of a key. -/
def Chip.setTask (ch : Chip) (t : Nat) (x : Task) : Chip := { ch with tasks := mPut ch.tasks t x Task.reset }
/-- Change the task of a key. -/
def Chip.updTask (ch : Chip) (t : Nat) (f : Task → Task) : Chip := ch.setTask t (f (ch.task t))
/-- The core of a number. -/
def Chip.core (ch : Chip) (k : Nat) : CoreSt := mGet ch.cores k CoreSt.reset
/-- Change the core of a number. -/
def Chip.updCore (ch : Chip) (k : Nat) (f : CoreSt → CoreSt) : Chip :=
  { ch with cores := mPut ch.cores k (f (ch.core k)) CoreSt.reset }
/-- The cluster of a key; a cluster not listed is as after reset with T = 16. -/
def Chip.clu (ch : Chip) (c : Nat) : Cluster := mGet ch.clusters c (Cluster.reset 1)
/-- Change the cluster of a key. -/
def Chip.updClu (ch : Chip) (c : Nat) (f : Cluster → Cluster) : Chip :=
  { ch with clusters := mPut ch.clusters c (f (ch.clu c)) (Cluster.reset 1) }
/-- Change one half's Wick port. -/
def Chip.updWick (ch : Chip) (h : Nat) (f : WickPort → WickPort) : Chip :=
  { ch with wick := tSet ch.wick h (f (tGet ch.wick h)) }

/-- Change one half's flow engine. -/
def Chip.updFlow (ch : Chip) (h : Nat) (f : Flow → Flow) : Chip := { ch with flow := tSet ch.flow h (f (tGet ch.flow h)) }
/-- Change one half's mirror link. -/
def Chip.updMir (ch : Chip) (h : Nat) (f : MirLink → MirLink) : Chip := { ch with mir := tSet ch.mir h (f (tGet ch.mir h)) }
/-- Change one half's command block. -/
def Chip.updAdrus (ch : Chip) (h : Nat) (f : Adrus → Adrus) : Chip :=
  { ch with adrus := tSet ch.adrus h (f (tGet ch.adrus h)) }
/-- Change one half's background services. -/
def Chip.updBg (ch : Chip) (h : Nat) (f : Bg → Bg) : Chip := { ch with bg := tSet ch.bg h (f (tGet ch.bg h)) }
/-- Change one half's reset state. -/
def Chip.updHalf (ch : Chip) (h : Nat) (f : Half → Half) : Chip := { ch with half := tSet ch.half h (f (tGet ch.half h)) }

/-- The DDR5 channel of a half that a line lies on. -/
def chanOf (a : Nat) : Nat := Config.channelOf (a / 64) % 4

/-- The line cannot be read (R79, R465, R469): it is poisoned, or lies on a channel declared failed. -/
def Chip.lineBad (ch : Chip) (a : Nat) : Bool :=
  ch.ram.poisoned a ||
    (paDram a && ((mGet? (tGet ch.bg (paHalf a)).chans (chanOf a)).map (fun c => decide (c.fails ≥ 3))) = some true)

/-- The value of the next free choice, and the chip that has used it (log 2). -/
def Chip.choose (ch : Chip) : Bool × Chip := (Config.freeBit ch.free, { ch with free := ch.free + 1 })

/-- The reset value of one instance of a register: its fields', and those that R324, R323 and R472 give by instance. -/
def regRst (d : RegD) (ix : List Nat) : Nat :=
  let m := ix.headD 0
  if d.base = GRD_KEY.base then if m = 0x100 ∨ m = 0x103 then 0xFFFF else 0
  else if d.base = GRD_SLOT.base then
    8 + (if m ≤ 0x100 ∨ m = 0x103 ∨ (m = 0x102 ∧ ix.getLastD 0 = 8) then 3 else 0)
  else d.rst

/-- The stored value of a control register: the value last written, or its reset value. -/
def Chip.reg (ch : Chip) (d : RegD) (h : Nat) (ix : List Nat) : Nat :=
  match mGet? ch.csr (d.at h ix) with
  | some v => v.toNat
  | none => regRst d ix
/-- A field of a stored control register. -/
def Chip.fld (ch : Chip) (d : RegD) (f : Fld) (h : Nat) (ix : List Nat := []) : Nat := bf (ch.reg d h ix) f.lo f.w
/-- Store a control register. -/
def Chip.setReg (ch : Chip) (d : RegD) (h : Nat) (ix : List Nat) (v : Nat) : Chip :=
  { ch with csr := mPut ch.csr (d.at h ix) (BitVec.ofNat 64 v) (BitVec.ofNat 64 (regRst d ix)) }
/-- Store a field of a control register. -/
def Chip.setFld (ch : Chip) (d : RegD) (f : Fld) (h : Nat) (ix : List Nat) (v : Nat) : Chip :=
  ch.setReg d h ix (bfSet (ch.reg d h ix) f.lo f.w v)
/-- Count in a saturating field of a control register. -/
def Chip.cnt (ch : Chip) (d : RegD) (f : Fld) (h : Nat) (ix : List Nat := []) (n : Nat := 1) : Chip :=
  ch.setFld d f h ix (satAdd (2 ^ f.w - 1) (ch.fld d f h ix) n)
/-- Count in a wrapping field of a control register. -/
def Chip.cntWrap (ch : Chip) (d : RegD) (f : Fld) (h : Nat) (ix : List Nat := []) : Chip :=
  ch.setFld d f h ix (ch.fld d f h ix + 1)
/-- Set a one-bit field of a control register. -/
def Chip.flag (ch : Chip) (d : RegD) (f : Fld) (h : Nat) (ix : List Nat := []) : Chip := ch.setFld d f h ix 1
/-- The capability kept in a capability-width register (R268), by its address. -/
def Chip.capReg (ch : Chip) (d : RegD) (h : Nat) (ix : List Nat := []) : Cap := mGet ch.csrCap (d.at h ix) Cap.null
/-- Write a capability-width register. -/
def Chip.setCapReg (ch : Chip) (d : RegD) (h : Nat) (ix : List Nat) (c : Cap) : Chip :=
  { ch with csrCap := mPut ch.csrCap (d.at h ix) c Cap.null }

/-- The half of a core number. -/
def coreHalf (k : Nat) : Nat := if k ≥ 512 then k - 512 else k / 256
/-- The core number is a service core's (R505). -/
def coreSvc (k : Nat) : Bool := k ≥ 512
/-- The cluster key of a core number. -/
def coreClu (k : Nat) : Nat := k / 16
/-- The core number of a task key. -/
def tCore (t : Nat) : Nat := t / 64
/-- The task number of a task key. -/
def tNum (t : Nat) : Nat := t % 64
/-- The half of a task key. -/
def tHalf (t : Nat) : Nat := coreHalf (tCore t)
/-- The cluster key of a task key (cluster cores only). -/
def tClu (t : Nat) : Nat := coreClu (tCore t)
/-- The master ID of a core's guard (R310). -/
def coreMaster (k : Nat) : Nat := if coreSvc k then 0x100 else k % 256

/-- The task code (R81) of a core: its cluster's, or T = 16 for a service core (R505). -/
def Chip.tcfg (ch : Chip) (k : Nat) : Nat := if coreSvc k then 1 else (ch.clu (coreClu k)).tcfg
/-- T, the tasks of a core (R81). -/
def Chip.tcount (ch : Chip) (k : Nat) : Nat := 8 * 2 ^ (ch.tcfg k)
/-- Entries per task (R82). -/
def Chip.perTask (ch : Chip) (k : Nat) : Nat := 4096 / ch.tcount k
/-- W, the ordinary windows of a task (R82). -/
def Chip.windows (ch : Chip) (k : Nat) : Nat := (ch.perTask k - 32) / 16

/-- Add to a meter counter's accumulator at the block's ring interface (R366, R369): half, minute parity, tenant,
counter index. -/
def Chip.meter (ch : Chip) (h parity tenant idx n : Nat) : Chip :=
  let k := ((h * 2 + parity) * 4096 + tenant) * 32 + idx
  { ch with inc := if n = 0 then ch.inc else mSet ch.inc k (mGet ch.inc k 0 + n) }

end Sys2Proof.Machine
end

