-- ==== Sys2Proof/Machine/Flags.lean ====
section
/-! DEFINITION. Predicates, the status register and the cause register (R92, R93, R107, R108, R115, R116, R124). -/

namespace Sys2Proof.Machine

/-- STATUS.WIN (R107). -/
def Task.win (x : Task) : Nat := bf x.status.toNat 8 5
/-- STATUS.PRIV (R107, R215). -/
def Task.priv (x : Task) : Nat := bf x.status.toNat 13 2
/-- STATUS.TW (R107). -/
def Task.tw (x : Task) : Bool := tb x.status.toNat 15
/-- STATUS.MPOS (R107). -/
def Task.mpos (x : Task) : Nat := bf x.status.toNat 16 6
/-- STATUS.MPV (R107). -/
def Task.mpv (x : Task) : Bool := tb x.status.toNat 22
/-- A predicate; p0 reads 1 (R92). -/
def Task.pred (x : Task) (p : Nat) : Bool := p = 0 || tb x.status.toNat p
/-- A field of STATUS replaced. -/
def Task.putStatus (x : Task) (lo w v : Nat) : Task := { x with status := BitVec.ofNat 32 (bfSet x.status.toNat lo w v) }
/-- Write a predicate; a write to p0 is discarded (R92). -/
def Task.setPred (x : Task) (p : Nat) (v : Bool) : Task := if p = 0 then x else x.putStatus p 1 (b2n v)
/-- ESTATUS.WIN. -/
def Task.ewin (x : Task) : Nat := bf x.estatus.toNat 8 5
/-- ESTATUS.PRIV. -/
def Task.epriv (x : Task) : Nat := bf x.estatus.toNat 13 2

/-- The implemented bits of STATUS and ESTATUS (R107, R7): bits 22:0, P0 reading 1. -/
def statusMask (v : Nat) : BitVec 32 := BitVec.ofNat 32 (bfSet (v % 2 ^ 23) 0 1 1)
/-- The implemented bits of CAUSE (R108): bits 15:0. -/
def causeMask (v : Nat) : BitVec 32 := BitVec.ofNat 32 (v % 2 ^ 16)

/-- CAUSE for an exception (R108). -/
def mkCause (code fpriv : Nat) (imprecise : Bool) (stage level : Nat) (multi : Bool) : BitVec 32 :=
  BitVec.ofNat 32 (code % 256 + (fpriv % 4) * 2 ^ 8 + b2n imprecise * 2 ^ 10 + (stage % 2) * 2 ^ 11 +
    (level % 8) * 2 ^ 12 + b2n multi * 2 ^ 15)

/-- The guard of a word selects it (R116). -/
def selected (x : Task) (w : Nat) : Bool := x.pred (bf w 29 3) != tb w 28

/-- The relations of R124, minors 0 to 6, on 64-bit values. -/
def relation (m a b : Nat) : Bool :=
  match m with
  | 0 => a == b
  | 1 => a != b
  | 2 => decide (sInt 64 a < sInt 64 b)
  | 3 => decide (sInt 64 a ≥ sInt 64 b)
  | 4 => decide (a < b)
  | 5 => decide (a ≥ b)
  | _ => (a &&& b) != 0

/-- Predicate logic (R124, MAJ 0x06). -/
def predLogic (m : Nat) (a b : Bool) : Bool :=
  match m with
  | 0 => a && b
  | 1 => a || b
  | 2 => a != b
  | 3 => a && !b
  | 4 => !a
  | 5 => true
  | _ => false

/-- The vector of a cause code (R217). -/
def causeVector (code : Nat) : Nat :=
  if code ≤ 0x02 then 0 else if code ≤ 0x06 then 1 else if code = 0x07 then 2 else if code = 0x08 then 3
  else if code ≤ 0x15 then 4 else if code ≤ 0x1A then 5 else if code = 0x1B then 6 else if code = 0x20 then 7
  else if code ≤ 0x22 then 8 else if code = 0x28 then 9 else if code = 0x30 then 10 else 11

/-- The route of a cause code is Service (R217). -/
def causeService (code : Nat) : Bool :=
  [0x04, 0x05, 0x06, 0x1A, 0x1B, 0x20, 0x21, 0x22, 0x28, 0x30].contains code

end Sys2Proof.Machine
end

