-- ==== Sys2Proof/Machine/Operands.lean ====
section
/-! DEFINITION. Operand forms: the fields of an instruction word (R115, R117), register names and windows (R80 to R91),
group marks (R99 to R101), fixed-latency results (R169) and the special registers (R106). -/

namespace Sys2Proof.Machine

/-- MAJ, bits 27:22 (R115). -/
def wMaj (w : Nat) : Nat := bf w 22 6
/-- Field A, bits 21:16 (R117). -/
def wA (w : Nat) : Nat := bf w 16 6
/-- Field B, bits 15:10. -/
def wB (w : Nat) : Nat := bf w 10 6
/-- Field C, bits 9:4. -/
def wC (w : Nat) : Nat := bf w 4 6
/-- MIN, bits 3:0. -/
def wMin (w : Nat) : Nat := bf w 0 4
/-- IMM10 as an unsigned field. -/
def wImm10 (w : Nat) : Nat := bf w 0 10
/-- IMM10, signed. -/
def wSimm10 (w : Nat) : Int := sInt 10 (bf w 0 10)
/-- IMM16 as an unsigned field. -/
def wImm16 (w : Nat) : Nat := bf w 0 16
/-- IMM22, signed. -/
def wSimm22 (w : Nat) : Int := sInt 22 (bf w 0 22)
/-- PD, bits 21:19. -/
def wPd (w : Nat) : Nat := bf w 19 3

/-- A 64-bit address plus a signed offset, modulo 2^64. -/
def addOff (a : Nat) (o : Int) : Nat := (w64 (Int.ofNat a + o)).toNat

/-- The first register-store entry of a task, as an entry key (R81). -/
def Chip.base (ch : Chip) (t : Nat) : Nat := tCore t * 4096 + tNum t * ch.perTask (tCore t)

/-- A register field names a register in the present window: fields 40 to 63 are reserved (R83). -/
def regOk (f : Nat) : Bool := f < 40

/-- Names in window `win` (trap window when `tw`) resolve to a task offset; `none` where n0 to n7 have no storage
(R83, R85, R86). -/
def nameOffset (wins : Nat) (tw : Bool) (win f : Nat) : Option Nat :=
  if f < 16 then some f
  else if f < 32 then some (if tw then f else 32 + 16 * win + (f - 16))
  else if f < 40 then if tw ∨ win + 1 ≥ wins then none else some (48 + 16 * win + (f - 32))
  else none

/-- The register-store entry key a field names for a task, or `none` where R86 gives WINDOW_DEPTH. -/
def Chip.entry (ch : Chip) (t f : Nat) : Option Nat :=
  let x := ch.task t
  (nameOffset (ch.windows (tCore t)) x.tw x.win f).map (fun o => ch.base t + o)

/-- The register-store entry that a cross-window field names (R83, R91): `none` where there is no storage. -/
def Chip.crossEntry (ch : Chip) (t f : Nat) : Option Nat :=
  let k := (ch.task t).ewin
  let w := ch.windows (tCore t)
  if k ≥ w then none
  else if f < 56 then some (ch.base t + 32 + 16 * k + (f - 40))
  else if k + 1 = w then none
  else some (ch.base t + 48 + 16 * k + (f - 56))

/-- The register-store entry that bit `f` of an STM or LDM mask selects (R103): in the trap window, bits 40 to 63 are fields of the
interrupted window (R83, R104). -/
def Chip.multiEntry (ch : Chip) (t f : Nat) : Option Nat := if f < 40 then ch.entry t f else ch.crossEntry t f

/-- A field names a register with storage for the task. -/
def Chip.backed (ch : Chip) (t f : Nat) : Bool := (ch.entry t f).isSome

/-- Read a register-store entry: zero with tag 0 under a ZERO mark (R101). -/
def Chip.rdEntry (ch : Chip) (e : Nat) : Cap :=
  if (mGet? ch.zero (e / 8)).isSome then Cap.null else mGet ch.store e Cap.null

/-- Write a register-store entry (R100, R101). -/
def Chip.wrEntry (ch : Chip) (e : Nat) (v : Cap) : Chip :=
  let ch := if (mGet? ch.zero (e / 8)).isSome then
      { ch with zero := mDel ch.zero (e / 8), store := mDelIf ch.store (fun k => k / 8 = e / 8) } else ch
  { ch with store := mPut ch.store e v Cap.null, dirty := mSet ch.dirty (e / 8) (), rsBad := mDel ch.rsBad e }

/-- Set the ZERO mark, and with it DIRTY, of a group (R101). -/
def Chip.zeroGroup (ch : Chip) (g : Nat) : Chip :=
  { ch with zero := mSet ch.zero g (), dirty := mSet ch.dirty g (), rsBad := mDelIf ch.rsBad (fun e => e / 8 = g) }

/-- Set the ZERO mark of groups of a task, by task-relative group number (R99). -/
def Chip.zeroGroups (ch : Chip) (t : Nat) (gs : List Nat) : Chip :=
  gs.foldl (fun ch g => ch.zeroGroup (ch.base t / 8 + g)) ch

/-- Read the register a field names: null where it has no storage. -/
def Chip.rdReg (ch : Chip) (t f : Nat) : Cap :=
  match ch.entry t f with
  | some e => ch.rdEntry e
  | none => Cap.null
/-- Bits 63:0 of a register (R118). -/
def Chip.rdInt (ch : Chip) (t f : Nat) : Nat := (ch.rdReg t f).addr
/-- Write the register a field names. -/
def Chip.wrReg (ch : Chip) (t f : Nat) (v : Cap) : Chip :=
  match ch.entry t f with
  | some e => ch.wrEntry e v
  | none => ch
/-- Write an integer result (R46). -/
def Chip.wrInt (ch : Chip) (t f n : Nat) : Chip := ch.wrReg t f (Cap.ofNat n)

/-- The context a task holds, by number (R194). -/
def CoreSt.ctxOf (k : CoreSt) (tn : Nat) : Option Nat :=
  (k.vctx.find? (fun c => c.2.owner = some tn)).map (·.1)

/-- A context that is free and zero. -/
def VCtx.reset : VCtx := ⟨none, false, false, []⟩
/-- A vector context of a core. -/
def CoreSt.ctx (k : CoreSt) (c : Nat) : VCtx := mGet k.vctx c VCtx.reset
/-- Replace a vector context. -/
def CoreSt.setCtx (k : CoreSt) (c : Nat) (v : VCtx) : CoreSt := { k with vctx := mPut k.vctx c v VCtx.reset }
/-- Read a register of a context (R198). -/
def VCtx.rd (v : VCtx) (r : Nat) : Quad := if v.zero then 0 else mGet v.regs r 0
/-- Write a register of a context (R198). -/
def VCtx.wr (v : VCtx) (r : Nat) (q : Quad) : VCtx :=
  let regs := if v.zero then [] else v.regs
  { v with zero := false, dirty := true, regs := mPut regs r q 0 }
/-- Read a vector register of the context the task holds. -/
def Chip.rdV (ch : Chip) (t r : Nat) : Quad :=
  match (ch.core (tCore t)).ctxOf (tNum t) with
  | some c => ((ch.core (tCore t)).ctx c).rd r
  | none => 0
/-- Write a vector register of the context the task holds. -/
def Chip.wrV (ch : Chip) (t r : Nat) (q : Quad) : Chip :=
  match (ch.core (tCore t)).ctxOf (tNum t) with
  | some c => ch.updCore (tCore t) (fun k => k.setCtx c ((k.ctx c).wr r q))
  | none => ch

/-- Write a fixed-latency result where it lands (R169). -/
def Chip.land (ch : Chip) (t : Nat) (l : Late) : Chip :=
  let n := BitVec.ofNat 64 l.val.addr
  match l.dst with
  | .entry e => ch.wrEntry e l.val
  | .mhml => ch.updTask t (fun x => { x with ml := n, mh := BitVec.ofNat 64 (bf l.val.bits.toNat 64 64) })
  | .loopReg i => ch.updTask t (fun x => if i = 12 then { x with lc := n } else if i = 13 then { x with ls := n }
      else { x with le := n })
  | .vreg r m =>
    ch.wrV t r (BitVec.ofNat 128 (((ch.rdV t r).toNat &&& (2 ^ 128 - 1 - m)) ||| (l.val.bits.toNat &&& m)))

/-- Write the results of a task that are visible in the core's present cycle, in issue order (R169). -/
def Chip.settle (ch : Chip) (t : Nat) : Chip :=
  let cyc := (ch.core (tCore t)).cyc
  let x := ch.task t
  let now := x.late.filter (fun l => l.due ≤ cyc)
  let ch := ch.updTask t (fun x => { x with late := x.late.filter (fun l => !(l.due ≤ cyc)) })
  now.foldl (fun ch l => ch.land t l) ch

/-- Write every fixed-latency result of a task (R97, R171: a task that stops issuing sees them all land). -/
def Chip.flush (ch : Chip) (t : Nat) : Chip :=
  let x := ch.task t
  let ch := ch.updTask t (fun x => { x with late := [] })
  x.late.foldl (fun ch l => ch.land t l) ch

/-- R171: a stall may let results become visible: a free choice between none and all of them. -/
def Chip.flushMaybe (ch : Chip) (t : Nat) : Chip :=
  let r := ch.choose
  if r.1 then r.2.flush t else r.2

/-- A fixed-latency result of latency `l` (R169): written at once when `l` is 1, later otherwise. -/
def Chip.later (ch : Chip) (t l : Nat) (dst : LateDst) (v : Cap) : Chip :=
  if l ≤ 1 then ch.land t ⟨0, dst, v⟩
  else ch.updTask t (fun x => { x with late := x.late ++ [⟨(ch.core (tCore t)).cyc + l, dst, v⟩] })

/-- Write the register a field names with latency `l`. -/
def Chip.laterReg (ch : Chip) (t f l : Nat) (v : Cap) : Chip :=
  match ch.entry t f with
  | some e => ch.later t l (.entry e) v
  | none => ch

/-- TASKINFO (R109). A service core, which has no cluster and no number in one, reads 0 for both (log 117). -/
def Chip.taskInfo (v : Vig) (ch : Chip) (t : Nat) : Nat :=
  let x := ch.task t
  let k := tCore t
  let core := if coreSvc k then 0 else k % 16
  let clu := if coreSvc k then 0 else k / 16 % 16
  x.comp + x.tenant * 2 ^ 16 + tNum t * 2 ^ 28 + core * 2 ^ 34 + clu * 2 ^ 38 + tHalf t * 2 ^ 42 +
    v.pair.pos * 2 ^ 43 + ch.tcfg k * 2 ^ 44

/-- TASKINFO bits 43:28, the task's unit path in notices (R224, R246). -/
def Chip.taskPath (v : Vig) (ch : Chip) (t : Nat) : Nat := bf (Chip.taskInfo v ch t) 28 16

/-- Device time as a task reads it: 10 ns resolution (R106, R373). -/
def Vig.time (v : Vig) : Nat := v.dt - v.dt % 10

/-- Read a special register (R106). -/
def Chip.rdSpecial (v : Vig) (ch : Chip) (t n : Nat) : Cap :=
  let x := ch.task t
  match n with
  | 0 => x.pcc
  | 1 => Cap.ofNat x.status.toNat
  | 2 => Cap.ofNat x.estatus.toNat
  | 3 => x.epc
  | 4 => Cap.ofNat x.cause.toNat
  | 5 => Cap.ofNat x.faddr.toNat
  | 6 => Cap.ofNat x.fdata.toNat
  | 7 => Cap.ofNat x.mh.toNat
  | 8 => Cap.ofNat x.ml.toNat
  | 9 => Cap.ofNat x.rc.toNat
  | 10 => x.rsrc
  | 11 => x.rdst
  | 12 => Cap.ofNat x.lc.toNat
  | 13 => Cap.ofNat x.ls.toNat
  | 14 => Cap.ofNat x.le.toNat
  | 15 => Cap.ofNat x.crcpoly.toNat
  | 16 => Cap.ofNat x.vl.toNat
  | 17 => Cap.ofNat v.time
  | 18 => Cap.ofNat x.evmask.toNat
  | 19 => x.rsc
  | _ => Cap.ofNat (Chip.taskInfo v ch t)

/-- Reading a special register is permitted (R106): RSC needs Service or Machine. -/
def readPermitted (x : Task) (n : Nat) : Bool := if n = 19 then x.priv ≠ 0 else true

/-- Writing a special register is permitted (R106). -/
def writePermitted (x : Task) (n : Nat) : Bool :=
  if n = 0 ∨ n = 17 ∨ n = 20 then false
  else if 2 ≤ n ∧ n ≤ 6 then x.tw
  else if n = 19 then x.priv ≠ 0
  else true

/-- The implemented bits of RC (R143). -/
def rcMask (n : Nat) : Nat := n &&& 0x81FF01FFFFFFFFFF
/-- The implemented bits of CRCPOLY (R110). -/
def crcMask (n : Nat) : Nat := n % 2 ^ 38
/-- VL.LEN (R111): a write above 64 sets 64. -/
def vlMask (n : Nat) : Nat := min (n % 2 ^ 7) 64

/-- The task after a write of `c` to special register `n`, other than LC, LS and LE (R106 to R112). -/
def Task.wrSpecial (x : Task) (n : Nat) (c : Cap) : Task :=
  let a := c.addr
  match n with
  | 1 => x.putStatus 1 7 (bf a 1 7)
  | 2 => { x with estatus := statusMask a }
  | 3 => { x with epc := c }
  | 4 => { x with cause := causeMask a }
  | 5 => { x with faddr := BitVec.ofNat 64 a }
  | 6 => { x with fdata := BitVec.ofNat 64 a }
  | 7 => { x with mh := BitVec.ofNat 64 a }
  | 8 => { x with ml := BitVec.ofNat 64 a }
  | 9 => { x with rc := BitVec.ofNat 64 (rcMask a) }
  | 10 => { x with rsrc := c }
  | 11 => { x with rdst := c }
  | 12 => { x with lc := BitVec.ofNat 64 a }
  | 13 => { x with ls := BitVec.ofNat 64 a }
  | 14 => { x with le := BitVec.ofNat 64 a }
  | 15 => { x with crcpoly := BitVec.ofNat 64 (crcMask a) }
  | 16 => { x with vl := BitVec.ofNat 64 (vlMask a) }
  | 18 => { x with evmask := BitVec.ofNat 64 (a % 256) }
  | 19 => { x with rsc := c }
  | _ => x

end Sys2Proof.Machine
end

