-- ==== Sys2Proof/Machine/Records.lean ====
section
/-! DEFINITION. The tables that Lamplighter and the walkers read in DRAM: compartment records (R239, R240), the tenant
table (R280, R372) and the stage-1 table (R281); and which task a compartment is bound to (R254). -/

namespace Sys2Proof.Machine

/-- A byte as a read without colour check returns it: zero in a colour-0 line (R69, R77). -/
def Ram.vis (m : Ram) (a : Nat) : Byte := if m.colour a = 0 then 0 else m.rd a
/-- `n` bytes as a read without colour check returns them. -/
def Ram.visN (m : Ram) (a n : Nat) : List Byte := (List.range n).map (fun i => m.vis (a + i))
/-- A little-endian number read without colour check. -/
def Ram.visLe (m : Ram) (a n : Nat) : Nat := leNat (m.visN a n)
/-- A capability read without colour check: zero with tag 0 in a colour-0 line. -/
def Ram.visCap (m : Ram) (a : Nat) : Cap := if m.colour a = 0 then Cap.null else m.rdCap a

/-- The half of a compartment ID (R12). -/
def compHalf (id : Nat) : Nat := bf id 15 1

/-- The address of a compartment's record (R239). -/
def Chip.recAddr (ch : Chip) (id : Nat) : Nat :=
  let h := compHalf id
  h * 2 ^ 40 + ch.fld SCH_CTAB SCH_CTAB_BASE_8M h * 2 ^ 23 + 256 * (id % 2 ^ 15)

/-- FLAGS bit numbers (R239). -/
def fValid : Nat := 0
def fCompound : Nat := 1
def fHasParent : Nat := 2
def fHasSuper : Nat := 3
def fPinned : Nat := 4
def fExtinguished : Nat := 8
def fPaused : Nat := 9
def fSaved : Nat := 10
def fVsaved : Nat := 11
def fMoving : Nat := 12

/-- A FLAGS bit of a record. -/
def CompRec.flag (r : CompRec) (i : Nat) : Bool := tb r.flags i

/-- The fields of the record at an address (R239). -/
def Ram.readRec (m : Ram) (a : Nat) : CompRec :=
  { gate := m.visCap a, start := m.visCap (a + 16), trapent := m.visCap (a + 32), rsc := m.visCap (a + 48)
    dsc := m.visCap (a + 64), save := m.visCap (a + 80), id := m.visLe (a + 96) 2, parent := m.visLe (a + 98) 2
    super := m.visLe (a + 100) 2, front := m.visLe (a + 102) 2, tenant := m.visLe (a + 104) 2
    priv := m.visLe (a + 106) 1, depth := m.visLe (a + 107) 1, wneed := m.visLe (a + 108) 1
    qlog2 := m.visLe (a + 109) 1, cluster := m.visLe (a + 110) 1
    qslot := m.visLe (a + 111) 1 * 256 + m.visLe (a + 112) 1, budget := m.visLe (a + 116) 4
    qgen := m.visLe (a + 120) 4, flags := m.visLe (a + 124) 4 }

/-- A SAVE capability that R239 and R249 allow. -/
def saveOk (c : Cap) : Bool :=
  c.tag && c.otype = 0 && c.has pLoad && c.has pStore && c.has pLoadCap && c.has pStoreCap && c.has pStoreLocal &&
    c.base % 64 = 0 && c.base + 9216 ≤ c.top

/-- A capability that CGATE could have sealed (R59): what GATE of a record may hold beside an untagged value. -/
def gateOk (c : Cap) : Bool :=
  !c.tag || (c.otype = 0xFFF && c.has pLoad && c.has pExec && c.addr % 16 = 0 && c.base ≤ c.addr && c.addr + 64 ≤ c.top)

/-- A record that obeys the rules of R239 and R259 (R240). -/
def CompRec.ok (r : CompRec) (id : Nat) (zeros : List Byte) : Bool :=
  r.flag fValid && r.id = id && r.tenant < 4096 && r.priv ≤ 1 && 1 ≤ r.depth && r.depth ≤ 8 &&
    2 ≤ r.wneed && r.wneed ≤ 30 && (r.qlog2 = 0 || (4 ≤ r.qlog2 && r.qlog2 ≤ 12)) && r.cluster < 16 && r.qslot < 1024 &&
    (r.priv = 1 || 64 ≤ r.budget) && r.flags &&& 0xFFFFE0E0 = 0 && zeros.all (fun b => b = 0) &&
    gateOk r.gate &&
    (r.flag fCompound ||
      (saveOk r.save && r.start.otype = 0 && r.start.has pExec && r.start.tag && r.rsc.addr = r.rsc.top))

/-- The record of a compartment, if it exists (R240). -/
def Chip.record (ch : Chip) (id : Nat) : Option CompRec :=
  let a := ch.recAddr id
  let r := ch.ram.readRec a
  if r.ok id (ch.ram.visN (a + 113) 3 ++ ch.ram.visN (a + 144) 112) then some r else none

/-- Distinct neighbours of a list. -/
def dedupNext : List Nat → List Nat
  | [] => []
  | a :: r => match dedupNext r with
    | [] => [a]
    | b :: l => if a = b then b :: l else a :: b :: l

/-- The compartment IDs of a half whose place in the compartment table is not all zero bytes, ascending (R239). -/
def Chip.tableIds (ch : Chip) (h : Nat) : List Nat :=
  let a := ch.recAddr (h * 32768)
  (dedupNext ((ch.ram.cells.filter (fun e => a ≤ e.1 && e.1 < a + 2 ^ 23)).map (fun e => (e.1 - a) / 256))).map (fun i => h * 32768 + i)

/-- The simple compartments whose record names a cluster (R239): those that it hosts. -/
def Chip.compsOf (ch : Chip) (c : Nat) : List CompRec :=
  (ch.tableIds (c / 16)).filterMap (fun i => match ch.record i with
    | some r => if r.cluster = c % 16 ∧ !r.flag fCompound then some r else none
    | none => none)

/-- Write a little-endian field of a record (R46, R239). -/
def Chip.setRec (ch : Chip) (id off n v : Nat) : Chip := { ch with ram := ch.ram.put (ch.recAddr id + off) n v }

/-- Set or clear FLAGS bits of a record. -/
def Chip.setFlag (ch : Chip) (id bit : Nat) (v : Bool) : Chip :=
  let a := ch.recAddr id + 124
  { ch with ram := ch.ram.put a 4 (bfSet (ch.ram.rdLe a 4) bit 1 (b2n v)) }

/-- The record is of a direct member of a compound. -/
def CompRec.memberOf (r : CompRec) (id : Nat) : Bool := r.flag fHasParent && r.parent = id

/-- The simple compartment that shows the queue and gate of a compartment (R241), within eight levels: a compound whose FRONT
names none of its direct members has none. -/
def Chip.frontOf (ch : Chip) : Nat → Nat → Option Nat
  | 0, _ => none
  | f + 1, id =>
    match ch.record id with
    | none => none
    | some r =>
      if r.flag fCompound then
        if ((ch.record r.front).map (·.memberOf id)) = some true then ch.frontOf f r.front else none
      else some id

/-- The address of a tenant descriptor (R280). -/
def Chip.tenantAddr (ch : Chip) (h ten : Nat) : Nat :=
  h * 2 ^ 40 + ch.fld XLT_TTAB XLT_TTAB_BASE_512K h * 2 ^ 19 + 128 * ten

/-- WEIGHT of a tenant (R372): 0 acts as 1. -/
def Chip.weightOf (ch : Chip) (h ten : Nat) : Nat := max 1 (ch.ram.visLe (ch.tenantAddr h ten + 64) 1)

/-- The address of a stage-1 descriptor (R281). -/
def Chip.s1Addr (ch : Chip) (id : Nat) : Nat :=
  compHalf id * 2 ^ 40 + ch.fld XLT_S1TAB XLT_S1TAB_BASE_8M (compHalf id) * 2 ^ 23 + 256 * (id % 2 ^ 15)

/-- The task a compartment is bound to (R254). -/
def Chip.boundTo (ch : Chip) (id : Nat) : Option Nat := (ch.tasks.find? (fun e => e.2.bound = some id)).map (·.1)

/-- The address of a compartment's save area (R249): SAVE's base, as a device physical address. -/
def CompRec.saveAt (r : CompRec) : Nat := r.save.base % 2 ^ 41

/-- EVMASK of an unbound compartment: as saved, or 0xFF when no state is saved (R248, R249). -/
def Chip.savedMask (ch : Chip) (r : CompRec) : Nat :=
  if r.flag fSaved then ch.ram.rdLe (r.saveAt + 0x2060 + 80) 8 % 256 else 0xFF

end Sys2Proof.Machine
end

