-- ==== Sys2Proof/Machine/Events.lean ====
section
/-! DEFINITION. Event queues (R243 to R247), notices (R37, R224, R246) and the sending side of a Wick message (R20). -/

namespace Sys2Proof.Machine

/-- The bytes of an event's payload. -/
def Ev.bytes (e : Ev) : List Byte := leBytes 16 e.lo.bits.toNat ++ leBytes 16 e.hi.bits.toNat

/-- An event of 32 untagged bytes. -/
def evOfBytes (cls : Nat) (l : List Byte) : Ev :=
  ⟨⟨false, BitVec.ofNat 128 (fieldB l 0 16)⟩, ⟨false, BitVec.ofNat 128 (fieldB l 16 16)⟩, cls⟩

/-- The metadata block of a misdirected frame (R335), of the frame's numbers (`Frm.info`); a frame for the other half's compartments
or ports is preceded by a block of zeros (log 122). -/
def wickMeta (kind len : Nat) (i : List Nat) : List Byte :=
  let n := fun (k : Nat) => i.getD k 0
  if kind = 0 then
    leBytes 40 (n 3) ++ leBytes 1 (n 2 % 16) ++ leBytes 1 (n 0) ++ leBytes 1 (n 1) ++ [0] ++ leBytes 4 (n 4) ++ leBytes 2 len ++
      leBytes 2 (n 5) ++ leBytes 4 0
  else List.replicate 56 0

/-- The data bytes a message body takes (R20). -/
def WBody.bytes : WBody → List Byte
  | .memReq r => leBytes 8 ((r.pieces.head?.map (·.pa)).getD 0) ++ leBytes 16 r.val.bits.toNat ++
      (if r.kind = .push then leBytes 16 r.val2.bits.toNat else []) ++ r.data
  | .memRsp r => r.data
  | .event e => e.ev.bytes
  | .frame k b i => wickMeta k b.length i ++ b
  | .mgmt _ n b => (n.flatMap (fun v => leBytes 8 v)) ++ b

/-- A message with its LEN (R20). -/
def mkMsg (vc typ src tag : Nat) (b : WBody) : WMsg := ⟨vc, typ, b.bytes.length, src, tag, b⟩

/-- The header and data bytes of a message (R20). -/
def WMsg.bytes (m : WMsg) : List Byte :=
  leBytes 8 (m.typ % 256 + (m.len % 65536) * 2 ^ 8 + (m.src % 2 ^ 24) * 2 ^ 24 + (m.tag % 65536) * 2 ^ 48) ++
    sliceB m.body.bytes 0 m.len

/-- The flits of a message before their control words are completed at transmission (R19, R20): VC, SOM and EOM set. -/
def WMsg.flits (m : WMsg) : List Flit :=
  let b := m.bytes
  let n := (b.length + 55) / 56
  (List.range n).map (fun i =>
    ⟨m.vc * 2 ^ 33 + b2n (i = 0) * 2 ^ 36 + b2n (i + 1 = n) * 2 ^ 37, sliceB b (56 * i) 56,
      if i + 1 = n then some m else none⟩)

/-- Put a message in half `h`'s transmit queue of its virtual channel. -/
def Chip.wickSend (ch : Chip) (h : Nat) (m : WMsg) : Chip :=
  ch.updWick h (fun p => { p with txq := mSet p.txq m.vc (mGet p.txq m.vc [] ++ m.flits) })

/-- Wick is not down for half `h` (R28): both halves have left reset, and messages may be queued; they wait while the link trains. -/
def Chip.wickUp (ch : Chip) (h : Nat) : Bool := !(tGet ch.wick h).down && !ch.half.h0.inReset && !ch.half.h1.inReset

/-- The entries of a ring. -/
def EvSlot.cap (q : EvSlot) : Nat := 2 ^ q.qlog2

/-- The address of a ring in the local memory of cluster `c` (R243, R264, R266). -/
def ringBase (c : Nat) (q : EvSlot) : Nat := c / 16 * 2 ^ 40 + 0x8040000000 + c % 16 * 2 ^ 24 + 64 * q.off

/-- The address of entry `i` of a ring, of 32 bytes. -/
def evEntry (c : Nat) (q : EvSlot) (i : Nat) : Nat := ringBase c q + 32 * i

/-- The address of the class byte of entry `i` of a ring: class bytes follow the entries (R243). -/
def evClass (c : Nat) (q : EvSlot) (i : Nat) : Nat := ringBase c q + (32 * q.cap + 63) / 64 * 64 + i

/-- The event in entry `i` of a ring, with the tags of its halves (R243). -/
def Ram.evAt (m : Ram) (c : Nat) (q : EvSlot) (i : Nat) : Ev :=
  ⟨m.rdCap (evEntry c q i), m.rdCap (evEntry c q i + 16), (m.rd (evClass c q i)).toNat % 8⟩

/-- Write an event into entry `i` of a ring (R243). -/
def Ram.evPut (m : Ram) (c : Nat) (q : EvSlot) (i : Nat) (e : Ev) : Ram :=
  ((m.wrCap (evEntry c q i) e.lo).wrCap (evEntry c q i + 16) e.hi).put (evClass c q i) 1 e.cls

/-- The entry that the next event takes: the first one after the last written that holds no event (log 102). -/
def EvSlot.next (q : EvSlot) : Nat :=
  (((List.range q.cap).map (fun j => (q.last + 1 + j) % q.cap)).find? (fun i => !q.ents.contains i)).getD 0

/-- The events of a ring, oldest first (R247). -/
def Chip.ringEvs (ch : Chip) (c : Nat) (q : EvSlot) : List Ev := q.ents.map (ch.ram.evAt c q)

/-- The queue slot that a compartment holds in the cluster that hosts it (R243): none for a capacity of 0. -/
def Chip.slotFor (ch : Chip) (r : CompRec) : Option EvSlot :=
  if r.qlog2 = 0 then none
  else (mGet? (ch.clu (compHalf r.id * 16 + r.cluster)).slots r.qslot).filter (fun q => q.comp = r.id)

/-- The events queued for a compartment, oldest first. -/
def Chip.queued (ch : Chip) (r : CompRec) : List Ev :=
  match ch.slotFor r with
  | some q => ch.ringEvs (compHalf r.id * 16 + r.cluster) q
  | none => []

/-- Replace the queue slot of a compartment. -/
def Chip.setSlot (ch : Chip) (r : CompRec) (q : EvSlot) : Chip :=
  ch.updClu (compHalf r.id * 16 + r.cluster) (fun k => { k with slots := mSet k.slots r.qslot q })

/-- Put an event in the queue of a simple compartment (R246, R247): `none` when the queue is full for its class or the
compartment holds no slot. A compartment that is unbound and may run becomes pending (R248). -/
def Chip.enqueue (ch : Chip) (id : Nat) (r : CompRec) (ev : Ev) : Option Chip :=
  let c := compHalf id * 16 + r.cluster
  match ch.slotFor r with
  | none => none
  | some q =>
    if q.cap - q.ents.length < (if ev.cls = 7 then 1 else 5) then none
    else
      let i := q.next
      let ch := ({ ch with ram := ch.ram.evPut c q i ev }).setSlot r { q with ents := q.ents ++ [i], last := i }
      if (ch.boundTo id).isNone && !r.flag fPaused && !r.flag fExtinguished && tb (ch.savedMask r) ev.cls &&
          !(ch.clu c).pend.contains id then
        some (ch.updClu c (fun k => { k with pend := k.pend ++ [id] }))
      else some ch

/-- The supervisor of a compartment (R37): `none` stands for Chandler of its half. -/
def CompRec.supervisor (r : CompRec) : Option Nat :=
  if r.flag fHasParent then some r.parent else if r.flag fHasSuper then some r.super else none

/-- An event for Chandler of a half and, through GET_EVENT, for its host (R246, R262, R434): the type and record. The half
keeps up to 65,536 of them, notices on the service-core notice ring among them; a later one is counted in CMD_EVLOST. -/
def Chip.hostEvent (ch : Chip) (h typ : Nat) (rec : List Byte) : Chip :=
  if (tGet ch.hev h).length ≥ 65536 then
    { ch.cnt CMD_EVLOST CMD_EVLOST_COUNT h with evLost := tSet ch.evLost h (tGet ch.evLost h + 1) }
  else { ch with hev := tSet ch.hev h (tGet ch.hev h ++ [(typ, rec)]) }

/-- Place a notice on a half's service-core notice ring (R246). -/
def Chip.ringNotice (ch : Chip) (h : Nat) (ev : Ev) : Chip := ch.hostEvent h 1 ev.bytes

/-- The destination's cluster accepts events now: it is not in reset (R34), and the slot of the compartment that shows the
queue is placed (R435). -/
def Chip.reachable (ch : Chip) (id : Nat) : Bool :=
  match (ch.frontOf 8 id).bind ch.record with
  | some r => !(ch.clu (compHalf r.id * 16 + r.cluster)).inReset && (r.qlog2 = 0 || (ch.slotFor r).isSome)
  | none => true

/-- Keep an event or notice at its source until its destination accepts events (R34): `k` is the source's key. -/
def Chip.holdOut (ch : Chip) (k : Nat) (e : OutEv) : Chip := ch.updClu k (fun c => { c with outb := c.outb ++ [e] })

/-- Send a notice about compartment `id` to its supervisor (R37, R246). A supervisor on the other half is reached on
Wick EVENT; a notice that finds its queue full is counted in SCH_NOTICE_LOST, and one whose supervisor's cluster accepts no
event now waits at its source (R34). A compound supervisor that has no front shows no queue: its notice goes to Chandler. -/
def Chip.notify (ch : Chip) (id : Nat) (bytes : List Byte) : Chip :=
  let h := compHalf id
  let ev := evOfBytes 7 bytes
  match (ch.record id).bind CompRec.supervisor with
  | none => ch.ringNotice h ev
  | some s =>
    let out : OutEv := ⟨s, 0, ev, id, 0, 0, 17, false, 0, 0⟩
    if compHalf s = h then
      match (ch.frontOf 8 s).bind ch.record with
      | none => ch.ringNotice h ev
      | some r =>
        if !ch.reachable s || (ch.clu (32 + h)).outb.any (fun e => e.dst = s) then ch.holdOut (32 + h) out
        else (ch.enqueue r.id r ev).getD (ch.cnt SCH_NOTICE_LOST SCH_NOTICE_LOST_COUNT h [r.cluster])
    else if ch.wickUp h then ch.wickSend h (mkMsg 3 7 0xFFFFFF s (.event out))
    else ch.cnt SCH_NOTICE_LOST SCH_NOTICE_LOST_COUNT h [((ch.record id).map (·.cluster)).getD 0]

/-- The UNDELIVERABLE notice for an event that was discarded (R246): `reason` as the table gives it. The sending
cluster counts it, and the sender's tenant is metered (R366). -/
def Chip.undeliverable (v : Vig) (ch : Chip) (e : OutEv) (reason : Nat) : Chip :=
  let h := compHalf e.scomp
  let b := leBytes 16 e.ev.lo.bits.toNat ++ leBytes 2 e.dst ++ leBytes 2 e.scomp ++
    [BitVec.ofNat 8 reason, BitVec.ofNat 8 e.ev.cls, 0, 0] ++ leBytes 2 e.sinfo ++ leBytes 5 0 ++ [1]
  let ch := ch.notify e.scomp b
  let ch := if e.scluster < 16 then ch.cnt SCH_UNDELIV SCH_UNDELIV_COUNT h [e.scluster] else ch
  ch.meter h v.parity e.stenant 21 1

end Sys2Proof.Machine
end

