-- ==== Sys2Proof/Machine/InsnTypes.lean ====
section
/-! DEFINITION. The instruction rows a word can belong to (R119), and what the body of an instruction answers. -/

namespace Sys2Proof.Machine

/-- One row of the operation table for each instruction a core issues. -/
inductive Row where
  | aluOp | aluImm | shiftImm | movi | movsh | mul | div | compare | cmpi | predLogic | unary | crc
  | cpos | cadv | ccut | cfit | cdrop | ctint | cwrap | cunwrap | cgate | ccopy | cround | camask | cpaint | cdiff
  | capInspect | cadvi | ccuti | cpcrel | load | lcap | store | scap | amoadd | amoswp | cas | stm | ldm
  | b | call | jr | callr | ret | loop | rep | gcall | gret | post | waitq | waitqN | sync | syncM | syncP
  | iflush | dflushI | dflushC | dflushCi | tlbiVa | tlbiTag | tlbiAll | wci | wciIpa
  | nop | mfs | mts | xget | xput | eret | fence | fenceSt | fenceLd | trap | brk
  | vsetvl | vv | vs | vred | vperm | vrelease | vld | vst | vldff
deriving DecidableEq, Repr

/-- What the body of a selected, legal instruction answers: it completes and falls through; it transfers control to a
PCC with so many issue cycles lost (R188); it takes a precise exception; it reports the oldest failure of its long
operations (R177), precisely or not; it stalls (R173); it issues and then waits (R255); it halts for the Taper port
before any effect, with attention causes (R545); it stops at a register boundary (R105); or its operands do not
describe an occasion. -/
inductive Res where
  | ok (ch : Chip)
  | jump (ch : Chip) (pcc : Cap) (lost : Nat)
  | flt (ch : Chip) (f : Flt)
  | report (ch : Chip) (f : Fail) (multi precise : Bool)
  | stall (ch : Chip)
  | wait (ch : Chip) (w : Wait)
  | halt (ch : Chip) (causes : Nat)
  | part (ch : Chip)
  | none

/-- An exception to be taken (R219): cause fields (R108), FADDR, FDATA and the PCC to save. -/
structure Exc where
  code : Nat
  fpriv : Nat
  imprecise : Bool
  stage : Nat
  level : Nat
  multi : Bool
  faddr : Nat
  fdata : Nat
  pcc : Cap
deriving DecidableEq, Repr

end Sys2Proof.Machine
end

