-- ==== Sys2Proof/Machine/Insn.lean ====
section
/-! DEFINITION. Which row a word belongs to (R119), which words are reserved encodings (R159), which registers a word
names (R83, R86), and pairing (R165 to R167). -/

namespace Sys2Proof.Machine

/-- The row of a word (R119 and the minor tables). A word of a reserved major belongs to the ALU row, one of a reserved
minor to a row of its major; it raises RESERVED_INSN there. -/
def rowOf (w : Nat) : Row :=
  let m := wMin w
  let maj := wMaj w
  if maj = 0x03 then .unary
  else if maj = 0x04 then if m < 2 then .mul else .div
  else if maj = 0x05 then .compare
  else if maj = 0x06 then .predLogic
  else if maj = 0x07 then .crc
  else if 0x08 ≤ maj ∧ maj ≤ 0x0B then .aluImm
  else if maj = 0x0C then .shiftImm
  else if maj = 0x0D then .cmpi
  else if maj = 0x0E then .movi
  else if maj = 0x0F then .movsh
  else if maj = 0x10 then
    (match m with
     | 1 => .cadv | 2 => .ccut | 3 => .cfit | 4 => .cdrop | 5 => .ctint | 6 => .cwrap | 7 => .cunwrap | 8 => .cgate
     | 9 => .ccopy | 10 => .cround | 11 => .camask | 12 => .cpaint | 13 => .cdiff | _ => .cpos)
  else if maj = 0x11 then .capInspect
  else if maj = 0x12 then .cadvi
  else if maj = 0x13 then .ccuti
  else if maj = 0x14 then .cpcrel
  else if 0x18 ≤ maj ∧ maj ≤ 0x1E then .load
  else if maj = 0x1F then .lcap
  else if 0x20 ≤ maj ∧ maj ≤ 0x23 then .store
  else if maj = 0x24 then .scap
  else if maj = 0x25 then if m = 7 then .lcap else .load
  else if maj = 0x26 then if m = 4 then .scap else .store
  else if maj = 0x27 then if m = 1 ∨ m = 4 then .amoswp else if m = 2 ∨ m = 5 then .cas else .amoadd
  else if maj = 0x28 then .stm
  else if maj = 0x29 then .ldm
  else if maj = 0x30 then .b
  else if maj = 0x31 then .call
  else if maj = 0x32 then if m = 1 then .callr else if m = 2 then .ret else .jr
  else if maj = 0x33 then .loop
  else if maj = 0x34 then .rep
  else if maj = 0x36 then
    (match m with
     | 0 => .gcall | 1 => .gret | 3 => .waitq | 4 => .waitqN | _ => .post)
  else if maj = 0x37 then if m = 1 then .syncM else if m = 2 then .syncP else .sync
  else if maj = 0x38 then
    (match m with
     | 1 => .dflushI | 2 => .dflushC | 3 => .dflushCi | 4 => .tlbiVa | 5 => .tlbiTag | 6 => .tlbiAll | 7 => .wci
     | 8 => .wciIpa | _ => .iflush)
  else if maj = 0x39 then .vv
  else if maj = 0x3A then .vs
  else if maj = 0x3B then
    (let v := bf w 0 6
     if 1 ≤ v ∧ v ≤ 7 then .vred else if v = 8 then .vperm else if v = 9 then .vrelease else .vsetvl)
  else if maj = 0x3C then
    (match m with
     | 1 => .mfs | 2 => .mts | 3 => .xget | 4 => .xput | 5 => .eret
     | 6 => if bf w 8 2 = 1 then .fenceSt else if bf w 8 2 = 2 then .fenceLd else .fence
     | 7 => .trap | 8 => .brk | _ => .nop)
  else if maj = 0x3D then if m = 1 then .vst else if m = 2 then .vldff else .vld
  else .aluOp

/-- A group size of R200; GRP 0b11 is reserved. -/
def vGrp (w : Nat) : Nat := 2 ^ bf w 6 2
/-- A vector register field is in range and a multiple of the group size (R158). -/
def vOk (w f : Nat) : Bool := f < 32 && f % vGrp w = 0

/-- The block operation word of a REP pair is allowed with its prefix (R141, R142, R159). -/
def repOk (w w2 : Nat) : Bool :=
  let esz := bf w 19 3
  let cond := bf w 17 2
  let crc := bf w 16 1
  let op := wMin w2
  bf w 0 16 = 0 && wMaj w2 = 0x35 && bf w2 28 4 = 0 && op ≤ 4 && wB w2 = 0 && wC w2 = 0 &&
    (if op = 1 ∨ op = 3 ∨ op = 4 then regOk (wA w2) else wA w2 = 0) &&
    (if op ≤ 1 then esz ≤ 4 else esz ≤ 3) &&
    (if op = 2 ∨ op = 3 then cond = 1 || cond = 2 else cond = 0) && (op = 4 || crc = 0)

/-- The word is a reserved encoding (R159, R160); `tw` is STATUS.TW, `w2` the word after a REP prefix. -/
def reservedInsn (tw : Bool) (w w2 : Nat) : Bool :=
  let m := wMin w
  let a := wA w
  let b := wB w
  let c := wC w
  let maj := wMaj w
  let ra := regOk a
  let rb := regOk b
  let rc := regOk c
  !(match maj with
    | 0x01 => m ≤ 13 && ra && rb && rc
    | 0x02 => (m ≤ 1 || (6 ≤ m && m ≤ 8)) && ra && rb && rc
    | 0x03 => m ≤ 14 && ra && rb && c = 0
    | 0x04 => m ≤ 5 && rb && rc && (if m < 2 then a = 0 else ra)
    | 0x05 => m ≤ 7 && bf w 16 3 = 0 && rb && rc
    | 0x06 => m ≤ 6 && bf w 16 3 = 0 && bf w 10 3 = 0 && bf w 4 3 = 0 && (m < 4 || bf w 7 3 = 0) &&
        (m < 5 || bf w 13 3 = 0)
    | 0x07 => m ≤ 7 && ra && rb && rc
    | 0x08 | 0x09 | 0x0A | 0x0B => ra && rb
    | 0x0C => ra && rb && bf w 6 2 = 0
    | 0x0D => bf w 16 3 ≤ 6 && rb
    | 0x0E | 0x0F | 0x14 => ra
    | 0x10 => m ≤ 13 && rb && (if m = 12 then a = 0 else ra) && (if 8 ≤ m ∧ m ≤ 12 then c = 0 else rc)
    | 0x11 => m ≤ 9 && ra && rb && c = 0
    | 0x12 | 0x13 => ra && rb
    | 0x18 | 0x19 | 0x1A | 0x1B | 0x1C | 0x1D | 0x1E | 0x1F => ra && rb
    | 0x20 | 0x21 | 0x22 | 0x23 | 0x24 => ra && rb
    | 0x25 => m ≤ 7 && ra && rb && rc
    | 0x26 => m ≤ 4 && ra && rb && rc
    | 0x27 => m ≤ 5 && ra && rb && rc
    | 0x28 | 0x29 => ra && rb
    | 0x30 | 0x31 => true
    | 0x32 => m ≤ 2 && a = 0 && c = 0 && (if m = 2 then b = 0 else rb)
    | 0x33 => ra && wImm16 w ≠ 0
    | 0x34 => repOk w w2
    | 0x36 =>
      (match m with
       | 0 => a = 0 && rb && c = 0
       | 1 => a = 0 && b = 0 && c = 0
       | 2 => a % 2 = 0 && a ≤ 38 && rb
       | 3 | 4 => a % 2 = 0 && a ≤ 38 && b = 0 && bf w 4 3 = 0
       | _ => false)
    | 0x37 => m ≤ 2 && b = 0 && c = 0 && (m = 1 || a = 0)
    | 0x38 =>
      (match m with
       | 0 | 1 | 2 | 3 | 5 | 8 => a = 0 && rb && c = 0
       | 4 => a = 0 && rb && rc
       | 6 | 7 => a = 0 && b = 0 && c = 0
       | _ => false)
    | 0x39 => bf w 0 6 ≤ 19 && bf w 6 2 ≠ 3 && vOk w a && vOk w b
    | 0x3A => bf w 0 6 ≤ 10 && bf w 6 2 ≠ 3 && vOk w a && rb
    | 0x3B =>
      (let v := bf w 0 6
       bf w 6 2 ≠ 3 &&
       (if v = 0 then ra && rb
        else if v ≤ 7 then ra && vOk w b
        else if v = 8 then vOk w a && vOk w b && bf w 8 2 = 0
        else v = 9 && a = 0 && b = 0 && bf w 6 4 = 0))
    | 0x3C =>
      (match m with
       | 0 | 5 | 8 => a = 0 && b = 0 && c = 0
       | 1 => ra && b ≤ 20 && c = 0
       | 2 => a ≤ 20 && rb && c = 0
       | 3 => tw && ra && 40 ≤ b && c = 0
       | 4 => tw && 40 ≤ a && rb && c = 0
       | 6 => a = 0 && b = 0 && bf w 4 4 = 0 && bf w 8 2 ≠ 3
       | 7 => bf w 20 2 = 0
       | _ => false)
    | 0x3D => m ≤ 2 && bf w 4 2 = 0 && bf w 6 2 ≠ 3 && vOk w a && rb
    | _ => false)

/-- The general registers a legal word names (R83, R86), the masks of STM and LDM apart. -/
def gprFields (w w2 : Nat) : List Nat :=
  let m := wMin w
  let a := wA w
  let b := wB w
  let c := wC w
  match wMaj w with
  | 0x01 | 0x02 | 0x07 | 0x25 | 0x26 | 0x27 => [a, b, c]
  | 0x03 | 0x08 | 0x09 | 0x0A | 0x0B | 0x0C | 0x11 | 0x12 | 0x13 => [a, b]
  | 0x04 => if m < 2 then [b, c] else [a, b, c]
  | 0x05 => [b, c]
  | 0x0D => [b]
  | 0x0E | 0x0F | 0x14 | 0x33 => [a]
  | 0x10 => if m = 12 then [b] else if 8 ≤ m ∧ m ≤ 11 then [a, b] else [a, b, c]
  | 0x18 | 0x19 | 0x1A | 0x1B | 0x1C | 0x1D | 0x1E | 0x1F | 0x20 | 0x21 | 0x22 | 0x23 | 0x24 | 0x28 | 0x29 => [a, b]
  | 0x32 => if m = 2 then [] else [b]
  | 0x34 => if wMin w2 = 1 ∨ wMin w2 = 3 ∨ wMin w2 = 4 then [wA w2] else []
  | 0x36 => if m = 0 then [b] else if m = 2 then [a, a + 1, b] else if m = 1 then [] else [a, a + 1]
  | 0x38 => if m = 4 then [b, c] else if m = 6 ∨ m = 7 then [] else [b]
  | 0x3A | 0x3D => [b]
  | 0x3B => if bf w 0 6 = 0 then [a, b] else if bf w 0 6 ≤ 7 then [a] else []
  | 0x3C => if m = 1 ∨ m = 3 then [a] else if m = 2 ∨ m = 4 then [b] else []
  | _ => []

/-- The general registers that a legal word reads (R118): those it names but a destination it only writes. -/
def gprSources (w w2 : Nat) : List Nat :=
  let m := wMin w
  match wMaj w with
  | 0x01 | 0x02 | 0x04 | 0x07 | 0x25 => [wB w, wC w]
  | 0x03 | 0x08 | 0x09 | 0x0A | 0x0B | 0x0C | 0x11 | 0x12 | 0x13 | 0x18 | 0x19 | 0x1A | 0x1B | 0x1C | 0x1D | 0x1E | 0x1F | 0x3B =>
    if wMaj w = 0x3B ∧ bf w 0 6 ≠ 0 then [] else [wB w]
  | 0x0E | 0x14 => []
  | 0x10 => if 8 ≤ m ∧ m ≤ 12 then [wB w] else [wB w, wC w]
  | 0x27 => if m = 2 ∨ m = 5 then [wA w, wB w, wC w] else [wB w, wC w]
  | 0x36 => if m = 0 ∨ m = 2 then gprFields w w2 else []
  | 0x3C => if m = 2 ∨ m = 4 then [wB w] else []
  | _ => gprFields w w2

/-- A pairing class (R165); `none` is SOLO. -/
inductive PClass where
  | int | mul | div | mem | br | vec | vmem | solo
deriving DecidableEq, Repr

/-- The pairing class of a word (R165). -/
def pairClass (tw : Bool) (w : Nat) : PClass :=
  let maj := wMaj w
  if reservedInsn tw w 0 then .solo
  else if maj = 0x04 then if wMin w < 2 then .mul else .div
  else if maj ≤ 0x14 then if maj = 0x10 ∧ wMin w = 12 then .solo else .int
  else if maj ≤ 0x26 then .mem
  else if 0x30 ≤ maj ∧ maj ≤ 0x32 then .br
  else if 0x39 ≤ maj ∧ maj ≤ 0x3B then .vec
  else if maj = 0x3D then .vmem
  else if maj = 0x3C ∧ wMin w ≤ 1 then .int
  else .solo

/-- The table of R166, first and second. -/
def pairTable : PClass → PClass → Bool
  | .int, .solo => false
  | .int, _ => true
  | .mul, .mul | .mul, .div | .div, .mul | .div, .div => false
  | .mul, .solo | .div, .solo => false
  | .mul, _ | .div, _ => true
  | .mem, .mem | .mem, .vmem | .mem, .solo => false
  | .mem, _ => true
  | .vec, .vec | .vec, .vmem | .vec, .solo => false
  | .vec, _ => true
  | .vmem, .int | .vmem, .mul | .vmem, .div | .vmem, .br => true
  | _, _ => false

/-- What a word writes and what it reads, in one number space: registers 0 to 39, predicates 100 to 107, special
registers 200 to 220, vector registers 300 to 331 (R167). -/
def wordWrites (w : Nat) : List Nat :=
  let m := wMin w
  let a := wA w
  let g : Nat → List Nat := fun r => (List.range (vGrp w)).map (fun i => 300 + r + i)
  match wMaj w with
  | 0x04 => if m < 2 then [207, 208] else [a]
  | 0x05 | 0x06 | 0x0D => [100 + wPd w]
  | 0x20 | 0x21 | 0x22 | 0x23 | 0x24 | 0x26 | 0x30 => []
  | 0x31 | 0x32 => [219]
  | 0x39 | 0x3A => g a
  | 0x3B => if bf w 0 6 = 0 then [a, 216] else if bf w 0 6 ≤ 7 then [a] else if bf w 0 6 = 8 then g a else []
  | 0x3C => if m = 1 then [a] else []
  | 0x3D => if m = 1 then [] else if m = 2 then 216 :: g a else g a
  | _ => [a]

/-- What a word reads (R167), its guard predicate included; an MFS of STATUS reads p1 to p7 (R106). -/
def wordReads (w : Nat) : List Nat :=
  let m := wMin w
  let a := wA w
  let b := wB w
  let c := wC w
  let g : Nat → List Nat := fun r => (List.range (vGrp w)).map (fun i => 300 + r + i)
  let gd := if bf w 29 3 = 0 then [] else [100 + bf w 29 3]
  gd ++
  (match wMaj w with
   | 0x06 => [100 + bf w 13 3, 100 + bf w 7 3]
   | 0x07 => b :: c :: (if m ≥ 4 then [215] else [])
   | 0x0E => []
   | 0x0F => [a]
   | 0x14 => []
   | 0x20 | 0x21 | 0x22 | 0x23 | 0x24 => [a, b]
   | 0x26 => [a, b, c]
   | 0x30 => []
   | 0x31 => [219]
   | 0x32 => if m = 0 then [b] else if m = 1 then [b, 219] else [219]
   | 0x39 => 216 :: (g a ++ g b ++ g 0)
   | 0x3A => 216 :: b :: g a
   | 0x3B => if bf w 0 6 = 0 then [b] else if bf w 0 6 ≤ 7 then 216 :: a :: g b else 216 :: (g a ++ g b)
   | 0x3C => if m = 1 then (200 + b) :: (if b = 1 then (List.range 7).map (101 + ·) else []) else []
   | 0x10 => if 8 ≤ m ∧ m ≤ 11 then [b] else [b, c]
   | 0x3D => 216 :: b :: (if m = 1 then g a else [])
   | 0x08 | 0x09 | 0x0A | 0x0B | 0x0C | 0x0D | 0x12 | 0x13 | 0x03 | 0x11 => [b]
   | 0x18 | 0x19 | 0x1A | 0x1B | 0x1C | 0x1D | 0x1E | 0x1F => [b]
   | _ => [b, c])

/-- Two consecutive words issue as a pair (R166, R167), the first not being at LE of an active loop. A write to p0 is no
write. -/
def pairs (tw : Bool) (w1 w2 : Nat) : Bool :=
  let ws := (wordWrites w1).filter (· ≠ 100)
  pairTable (pairClass tw w1) (pairClass tw w2) &&
    ws.all (fun r => !(wordReads w2).contains r && !(wordWrites w2).contains r)

end Sys2Proof.Machine
end

