-- ==== Sys2Proof/Machine/MemAcc.lean ====
section
/-! DEFINITION. Accesses to DRAM, the packet buffer and cluster local memory after the guard check: the holding check of
frame buffers (R349), the colour check (R69), uncorrectable memory (R79), and the access itself (R62). -/

namespace Sys2Proof.Machine

/-- The base of a half's packet buffer (R266). -/
def pbBase (h : Nat) : Nat := h * 2 ^ 40 + 0x8000000000
/-- The hand-back window's offset in the packet buffer, and the end of the frame buffers (R350). -/
def hbOffset : Nat := 0x1FF0000

/-- The address lies in a frame buffer: its buffer number (R349). -/
def frameBuf (pa : Nat) : Option Nat :=
  let l := paLocal pa
  if 0x8000000000 ≤ l ∧ l < 0x8000000000 + hbOffset then some ((l - 0x8000000000) / 2048) else none
/-- The address lies in the hand-back window: its port (R350). -/
def hbPort (pa : Nat) : Option Nat :=
  let l := paLocal pa
  if 0x8000000000 + hbOffset ≤ l ∧ l < 0x8002000000 then some ((l - 0x8000000000 - hbOffset) / 16) else none

/-- The run that holds a buffer (R349). -/
def Chip.runOf (ch : Chip) (h buf : Nat) : Option Run :=
  ((tGet ch.runs h).find? (fun e => e.2.first ≤ buf && buf < e.2.first + e.2.size)).map (·.2)

/-- R349: a Tenant access to a frame buffer passes only while the run is HELD by the tenant. `own` is the tenant current
at the access's issue for a core access at Tenant privilege, and `none` otherwise. -/
def Chip.holdOk (ch : Chip) (own : Option Nat) (pa : Nat) : Bool :=
  match own, frameBuf pa with
  | some t, some b =>
    match ch.runOf (paHalf pa) b with
    | some r => r.held && r.tenant = t
    | none => false
  | _, _ => true

/-- The 64-byte lines of a piece. -/
def linesOf (p : Piece) : List Nat :=
  if p.len = 0 then [] else (List.range ((p.pa + p.len - 1) / 64 + 1 - p.pa / 64)).map (fun i => (p.pa / 64 + i) * 64)

/-- The cause of the first line check that fails (R69, R79, R349), 0 when all pass. `k` is the capability's colour,
`st` says store. Every access to a line that cannot be read fails with MEM_UE, whatever its colour (R79, R465). -/
def Chip.lineCode (ch : Chip) (own : Option Nat) (k : Nat) (st : Bool) (a : Nat) : Nat :=
  let c := ch.ram.colour a
  if (hbPort a).isSome then if k = 0 ∨ k = 3 then 0 else 0x15
  else if ch.lineBad a then 0x30
  else if !ch.holdOk own a then 0x15
  else if c = 0 then if st then (if k = 0 then 0x15 else 0) else 0
  else if k ≠ 0 ∧ k ≠ c then 0x15
  else 0

/-- The cause of the first failing line of the pieces, with its address. -/
def Chip.checkLines (ch : Chip) (own : Option Nat) (k : Nat) (st : Bool) (ps : List Piece) : Nat :=
  ((ps.flatMap linesOf).map (ch.lineCode own k st)).find? (· ≠ 0) |>.getD 0

/-- The bytes of pieces as a load reads them: zero in a colour-0 line and in the hand-back window (R69, R350). -/
def Chip.loadBytes (ch : Chip) (ps : List Piece) : List Byte :=
  ps.flatMap (fun p => (List.range p.len).map (fun i => if (hbPort (p.pa + i)).isSome then 0 else ch.ram.vis (p.pa + i)))

/-- The tags of the granules of an access as a load reads them (R65, R69): granule `i` of its first piece in bit `i`. -/
def Chip.loadTags (ch : Chip) (ps : List Piece) : Nat :=
  match ps with
  | [] => 0
  | p :: _ => (List.range (p.len / 16)).foldl (fun n i =>
      let a := p.pa + 16 * i
      n + b2n (!((hbPort a).isSome || ch.ram.colour a = 0) && ch.ram.tag a) * 2 ^ i) 0

/-- Prepare a line for a store through colour `k`: a colour-0 line is zeroed and claimed (R69). -/
def Ram.prepare (m : Ram) (k a : Nat) : Ram := if m.colour a = 0 then m.claim (alignDown a 64) k else m

/-- Perform a store whose lines have passed: claims, bytes, cleared tags (R46, R69). -/
def Ram.storeBytes (m : Ram) (k : Nat) (ps : List Piece) (d : List Byte) : Ram :=
  (ps.foldl (fun (acc : Ram × List Byte) p =>
    let m := (linesOf p).foldl (fun m a => m.prepare k a) acc.1
    (m.write p.pa (acc.2.take p.len), acc.2.drop p.len)) (m, d)).1

/-- Perform a capability store whose line has passed (R64, R66). -/
def Ram.storeCap (m : Ram) (k : Nat) (pa : Nat) (c : Cap) : Ram := (m.prepare k (alignDown pa 64)).wrCap pa c

/-- A capability store notes whose task's capability a granule of cluster local memory holds (R73, log 112). -/
def Chip.noteOwner (ch : Chip) (tenant pa : Nat) : Chip :=
  match ch.ram.region pa with
  | .clm _ => { ch with clmTen := mSet ch.clmTen (pa / 16) tenant }
  | _ => ch

/-- Store to memory (not to a control block): the cause of a failing check, or 0 and the chip with the store performed.
A store to the hand-back window becomes a hand-back when it is a capability store of a tagged value, and is discarded
and counted otherwise (R350). `by_` is the storing task and the store's number (R278). -/
def Chip.memStore (ch : Chip) (own : Option Nat) (k tenant : Nat) (by_ : Nat × Nat) (ps : List Piece) (capw : Bool) (val : Cap)
    (d : List Byte) : Nat × Chip :=
  let code := ch.checkLines own k true ps
  if code ≠ 0 then (code, ch)
  else
    match ps with
    | [] => (0, ch)
    | p :: _ =>
      match hbPort p.pa with
      | some port =>
        let h := paHalf p.pa
        if capw && val.tag then (0, { ch with hbq := tSet ch.hbq h (tGet ch.hbq h ++ [⟨port, val, tenant, by_.1, by_.2⟩]) })
        else (0, ch.cnt FLW_HB_REFUSED FLW_HB_REFUSED_COUNT h)
      | none =>
        if capw then (0, ({ ch with ram := ch.ram.storeCap k p.pa val }).noteOwner tenant p.pa)
        else (0, { ch with ram := ch.ram.storeBytes k ps d })

end Sys2Proof.Machine
end

