-- ==== Sys2Proof/Machine/Cache.lean ====
section
/-! DEFINITION. The caches between the cores and DRAM as far as a counter shows them: the tag cache of a half (R76, R77), the
lines of each cluster's L2 with the tenant that dirtied them (R271, R272, R367), and what a DDR5 controller reads and writes
for each access (R366). What a cached line holds is memory's content. Which line a full set gives up is a free choice. -/

namespace Sys2Proof.Machine

/-- A free choice among `n` (log 2), and the chip that has used it. -/
def Chip.pick (ch : Chip) (n : Nat) : Nat × Chip := (Config.freeNat ch.free % n, { ch with free := ch.free + 1 })

/-- A DDR5 controller of half `h` reads (meter 6) or writes (meter 7) one line for `who`; none is charged to nobody (R367). -/
def Chip.dramCount (v : Vig) (ch : Chip) (h : Nat) (who : Option Nat) (wr : Bool) : Chip :=
  match who with
  | none => ch
  | some ten => ch.meter h v.parity ten (if wr then 7 else 6) 64

/-- The tag-cache set of a line (R76): 4,096 sets over the pages of its half. -/
def tagKey (a : Nat) : Nat := paHalf a * 4096 + a / 4096 % 4096

/-- A band of a cache is out of use (R487, R489): slice `n` of half `h` tests it, or it has failed. -/
def Chip.bandOff (ch : Chip) (h n : Nat) : Bool :=
  let b := tGet ch.bg h
  b.bad.contains n || b.slice.any (fun s => s.testing && s.num = n)

/-- The tag-cache band of a set key (R484): 64 sets in a row (log 128). -/
def Chip.tagcOff (ch : Chip) (key : Nat) : Bool := ch.bandOff (key / 4096) (2304 + key % 4096 / 64)

/-- The tag byte of a DRAM line is looked up in the tag cache of its half (R76). A summarised block needs none (R77); a band out of use
misses, and holds nothing (R487). -/
def Chip.tagAccess (v : Vig) (ch : Chip) (who : Option Nat) (wr : Bool) (a : Nat) : Chip :=
  if ch.ram.summarised a then ch
  else
    let key := tagKey a
    let set := mGet ch.tagc key []
    let put := fun (c : Chip) (l : List TagLine) => { c with tagc := mSet c.tagc key l }
    if set.any (fun l => l.page = a / 4096) then
      if wr then put ch (set.map (fun l => if l.page = a / 4096 then { l with dirty := true } else l)) else ch
    else
      let ch := (ch.cnt HALF_TAGC_MISS HALF_TAGC_MISS_COUNT (paHalf a)).dramCount v (paHalf a) who false
      if ch.tagcOff key then if wr then ch.dramCount v (paHalf a) who true else ch
      else if set.length < 16 then put ch (⟨a / 4096, wr⟩ :: set)
      else
        let p := ch.pick 16
        let gone := (set[p.1]?.map (·.dirty)) = some true
        put (if gone then p.2.dramCount v (paHalf a) who true else p.2) (⟨a / 4096, wr⟩ :: set.eraseIdx p.1)

/-- One DRAM access to a line (R76, R77): its tag byte, and the line itself unless a line of colour 0 is read. -/
def Chip.dramLine (v : Vig) (ch : Chip) (who : Option Nat) (wr : Bool) (a : Nat) : Chip :=
  let ch := ch.tagAccess v who wr a
  if !wr && ch.ram.colour a = 0 then ch else ch.dramCount v (paHalf a) who wr

/-- The set of a line in an L2: 2 MiB of 16 ways (R271). -/
def l2Key (a : Nat) : Nat := a / 64 % 2048
/-- The L2 band of a line is out of use (R484): 32 sets in a row (log 128). -/
def Chip.l2Off (ch : Chip) (c a : Nat) : Bool := ch.bandOff (c / 16) (256 + 128 * (c % 16) + l2Key a / 32)
/-- The line of an L2 that holds an address. -/
def Cluster.l2Line (k : Cluster) (a : Nat) : Option L2Line := (mGet k.l2 (l2Key a) []).find? (fun l => l.line = a / 64)

/-- The DDR5 channel of a DRAM line is held by a step of its retraining (R467). -/
def Chip.chanHeld (v : Vig) (ch : Chip) (a : Nat) : Bool :=
  paDram a && (mGet? (tGet ch.bg (paHalf a)).chans (chanOf a)).any (fun c => c.running && decide (v.clk < c.stepEnd))

/-- An access of task `t` to its own half needs a channel that is held (R467): a line that its cluster's L2 holds needs none. -/
def Chip.heldFor (v : Vig) (ch : Chip) (t : Nat) (ps : List Piece) : Bool :=
  ps.any (fun p => decide (paHalf p.pa = tHalf t) && (linesOf p).any (fun a =>
    ch.chanHeld v a && (coreSvc (tCore t) || decide (p.attr ≠ 0) || ((ch.clu (tClu t)).l2Line a).isNone)))

/-- Change the lines of an L2 set. -/
def Chip.l2Upd (ch : Chip) (c a : Nat) (f : List L2Line → List L2Line) : Chip :=
  ch.updClu c (fun k => { k with l2 := mPut k.l2 (l2Key a) (f (mGet k.l2 (l2Key a) [])) [] })

/-- A cluster's L2 writes a line back if it is dirty (R367), and keeps it or not. -/
def Chip.l2Back (v : Vig) (ch : Chip) (c a : Nat) (keep : Bool) : Chip :=
  match (ch.clu c).l2Line a with
  | none => ch
  | some l =>
    let ch := match l.dirty with
      | some ten => ch.dramLine v (some ten) true a
      | none => ch
    ch.l2Upd c a (fun s => if keep then s.map (fun e => if e.line = a / 64 then { e with dirty := none } else e)
      else s.filter (fun e => e.line ≠ a / 64))

/-- The snoop filter of a half (R271, R272): the copies that clusters other than `but` hold are written back, and removed
before a write. -/
def Chip.snoop (v : Vig) (ch : Chip) (but : Option Nat) (wr : Bool) (a : Nat) : Chip :=
  (List.range 16).foldl (fun c i =>
    let k := paHalf a * 16 + i
    if but = some k then c else c.l2Back v k a (!wr)) ch

/-- An access through the L2 of cluster `c` for tenant `ten` (R271): a miss reads the line, unless a store claims it (R69) or a
load finds it of colour 0 (R77), and takes a way of its set, unless its band is out of use (R487). -/
def Chip.l2Access (v : Vig) (ch : Chip) (c ten : Nat) (wr : Bool) (a : Nat) : Chip :=
  let ch := ch.snoop v (some c) wr a
  match (ch.clu c).l2Line a with
  | some _ =>
    if wr then ch.l2Upd c a (fun s => s.map (fun e => if e.line = a / 64 then { e with dirty := some ten } else e)) else ch
  | none =>
    let free := ch.ram.colour a = 0
    let ch := ch.dramLine v (some ten) false a
    if free && !wr then ch
    else if ch.l2Off c a then if wr then ch.dramLine v (some ten) true a else ch
    else
      let set := mGet (ch.clu c).l2 (l2Key a) []
      let new : L2Line := ⟨a / 64, if wr then some ten else none⟩
      if set.length < 16 then ch.l2Upd c a (fun s => new :: s)
      else
        let p := ch.pick 16
        match set[p.1]? with
        | some old => (p.2.l2Back v c (old.line * 64) false).l2Upd c a (fun s => new :: s)
        | none => p.2

/-- An access to a DRAM line by a master that caches nothing (R272). -/
def Chip.busLine (v : Vig) (ch : Chip) (who : Option Nat) (wr : Bool) (a : Nat) : Chip :=
  (ch.snoop v none wr a).dramLine v who wr a

/-- What an access of task `t` for tenant `ten` asks of the L2 of its cluster and of DRAM (R76, R270, R271, R367): `wr` says that
it stores. A service core has no L2 and no tenant. -/
def Chip.dramTouch (v : Vig) (ch : Chip) (t ten : Nat) (wr : Bool) (ps : List Piece) : Chip :=
  ps.foldl (fun c p =>
    if c.ram.region p.pa = .dram then
      let own := !coreSvc (tCore t) && paHalf p.pa = tHalf t && p.attr = 0
      (linesOf p).foldl (fun c a =>
        if own then c.l2Access v (tClu t) ten wr a else c.busLine v (if coreSvc (tCore t) then none else some ten) wr a) c
    else c) ch

/-- Lamplighter's accesses to `n` bytes of a save area through the L2 of cluster `c`, for the compartment's tenant (R250, R258). -/
def Chip.areaTouch (v : Vig) (ch : Chip) (c ten : Nat) (wr : Bool) (a n : Nat) : Chip :=
  (linesOf ⟨a, n, false, 0⟩).foldl (fun ch l => if ch.ram.region l = .dram then ch.l2Access v c ten wr l else ch) ch

/-- What a master that is no core asks of DRAM for `n` bytes (R76, R272, R367): charged to nobody. -/
def Chip.busTouch (v : Vig) (ch : Chip) (wr : Bool) (a n : Nat) : Chip :=
  (linesOf ⟨a, n, false, 0⟩).foldl (fun ch l => if ch.ram.region l = .dram then ch.busLine v none wr l else ch) ch

/-- The dirty lines of a cluster's L2 are written back, and none is held any more (R498, R500). -/
def Chip.l2Flush (v : Vig) (ch : Chip) (c : Nat) : Chip :=
  let ls := ((ch.clu c).l2.flatMap (·.2)).map (·.line)
  (ls.foldl (fun ch l => ch.l2Back v c (l * 64) false) ch).updClu c (fun k => { k with l2 := [] })

end Sys2Proof.Machine
end

