-- ==== Sys2Proof/Machine/Guard.lean ====
section
/-! DEFINITION. The access guards (R310 to R319): slots, key masks, violations and their record. -/

namespace Sys2Proof.Machine

/-- What a guard answers: it admits the access, refuses a permission with CAP_PERM (R314), or finds a violation with
the record's reason, slot (when a control block) and colour (R319, R323). -/
inductive GVerdict where
  | pass | perm | violation (reason : Nat) (slot : Option Nat) (colour : Nat)
deriving DecidableEq, Repr

/-- The control block number of a region (R267). -/
def Region.block : Region → Option Nat
  | .half b => some b
  | .clu c => some (16 + c)
  | _ => Option.none

/-- The region of an address as the guards of half `h` decode it (R311): the other half's DRAM limit is the one
exchanged at Wick training. -/
def Chip.regionFor (ch : Chip) (h a : Nat) : Region :=
  if paDram a ∧ a < 2 ^ 41 ∧ paHalf a ≠ h then
    if paLocal a < (tGet ch.wick h).farTop then .dram else .none
  else ch.ram.region a

/-- R314: slot `b` of guard `m` of half `h` permits a read (`wr` false) or a write. -/
def Chip.slotAllows (ch : Chip) (h m b : Nat) (wr : Bool) : Bool := tb (ch.reg GRD_SLOT h [m, b]) (b2n wr)

/-- The key mask of a guard (R313). -/
def Chip.guardMask (ch : Chip) (h m : Nat) : Nat := ch.fld GRD_KEY GRD_KEY_MASK h [m]

/-- The check of a guard keyed by a capability's colour (R312 to R314): `masked` says that the key mask applies (Tenant
privilege, and every DMA access). An access to the packet buffer needs Packet (R47; log 101). -/
def Chip.guardCap (ch : Chip) (h m : Nat) (c : Cap) (masked rd wr : Bool) (pa : Nat) : GVerdict :=
  match ch.regionFor h pa with
  | .none => .violation 3 none 0
  | r =>
    match r.block with
    | some b =>
      if !(c.has pSystem || ((b = 10 || b = 11) && c.has pMeter)) then .perm
      else if (rd && !ch.slotAllows h m b false) || (wr && !ch.slotAllows h m b true) then .violation 0 (some b) 0
      else .pass
    | none =>
      let k := c.colour
      let mask := if masked then ch.guardMask h m else 0xFFFF
      if r = .pbuf && !c.has pPacket then .perm
      else if (k = 0 && mask = 0xFFFF) || (k ≠ 0 && tb mask k) then .pass else .violation 1 none k

/-- The colour of the line at an address; the hand-back window has colour 3 always (R350). -/
def Ram.lineCol (m : Ram) (pa : Nat) : Nat :=
  if 0x8001FF0000 ≤ paLocal pa ∧ paLocal pa < 0x8002000000 then 3 else m.colour pa

/-- The check of a guard keyed by the line's colour for one line (R313). -/
def Chip.guardLine (ch : Chip) (h m : Nat) (wr : Bool) (pa : Nat) : GVerdict :=
  match ch.regionFor h pa with
  | .none => .violation 3 none 0
  | r =>
    match r.block with
    | some b => if ch.slotAllows h m b wr then .pass else .violation 0 (some b) 0
    | none =>
      let c := ch.ram.lineCol pa
      if wr && c = 0 then .violation 4 none 0
      else if tb (ch.guardMask h m) c then .pass else .violation 2 none c

/-- The lowest master ID of a half whose guard holds a valid record (R320). -/
def Chip.guardFirst (ch : Chip) (h : Nat) : Option Nat := (List.range 0x108).find? (fun m => tb (ch.reg GRD_VINFO h [m]) 0)

/-- GRD_HSTAT (R320, R323). -/
def Chip.grdHstat (ch : Chip) (h : Nat) : Nat :=
  match ch.guardFirst h with
  | some m => 1 + m * 2
  | none => 0

/-- Record a violation (R319): task and privilege for core guards only. When it is the half's first, the guard interrupt
rises and Chandler reports it (R320, R434). -/
def Chip.violate (ch : Chip) (h m : Nat) (wr : Bool) (reason : Nat) (slot : Option Nat) (colour task priv pa : Nat) :
    Chip :=
  if tb (ch.reg GRD_VINFO h [m]) 0 then ch.cnt GRD_VOVF GRD_VOVF_COUNT h [m]
  else
    let v := 1 + b2n wr * 2 + reason * 4 + b2n slot.isSome * 32 + (slot.getD 0) * 64 + colour * 2 ^ 11 +
      (if m ≤ 0x100 then task * 2 ^ 15 + priv * 2 ^ 21 else 0)
    let quiet := (ch.guardFirst h).isNone
    let ch := ((ch.setReg GRD_VINFO h [m] v).setReg GRD_VADDR_LO h [m] (pa % 2 ^ 32)).setReg GRD_VADDR_HI h [m] (bf pa 32 9)
    if quiet then
      ch.hostEvent h 5 (leBytes 4 (ch.grdHstat h) ++ leBytes 4 v ++ leBytes 4 (pa % 2 ^ 32) ++ leBytes 4 (bf pa 32 9))
    else ch

/-- Clear a guard's record (R319). -/
def Chip.clearViolation (ch : Chip) (h m : Nat) : Chip :=
  (((ch.setReg GRD_VINFO h [m] 0).setReg GRD_VADDR_LO h [m] 0).setReg GRD_VADDR_HI h [m] 0).setReg GRD_VOVF h [m] 0

/-- The guard check of an access that a core's task issued at privilege `priv`, over its pieces, lowest first (R317): a
fault code, with the violation recorded. -/
def Chip.guardAs (ch : Chip) (t priv : Nat) (c : Cap) (rd wr : Bool) : List Nat → Chip × Nat
  | [] => (ch, 0)
  | pa :: r =>
    let k := tCore t
    match ch.guardCap (coreHalf k) (coreMaster k) c (priv = 0 && !coreSvc k) rd wr pa with
    | .pass => ch.guardAs t priv c rd wr r
    | .perm => (ch, 0x12)
    | .violation reason slot col => (ch.violate (coreHalf k) (coreMaster k) wr reason slot col (tNum t) priv pa, 0x28)

/-- The guard check of a task's access as the task stands. -/
def Chip.guardCore (ch : Chip) (t : Nat) (c : Cap) (rd wr : Bool) (pas : List Nat) : Chip × Nat :=
  ch.guardAs t (ch.task t).priv c rd wr pas

end Sys2Proof.Machine
end

