-- ==== Sys2Proof/Machine/Xlt.lean ====
section
/-! DEFINITION. Translation (R279 to R298): stage 1 block registers, stage 2 tables, the translation caches. Any cached
entry that covers the address may be used, or the tables walked again: a free choice (R287, R294, log 2). -/

namespace Sys2Proof.Machine

/-- What one translation answers: the physical address, ATTR, mirrored; or a fault with the leaf entry's address where
an access or dirty bit is wanted (R298). -/
inductive XRes where
  | ok (pa attr : Nat) (mir : Bool)
  | bad (f : Flt) (leaf : Nat)
deriving DecidableEq, Repr

/-- A fault of translation. -/
def xFault (code stage level va : Nat) (leaf : Nat := 0) : XRes := .bad ⟨code, stage, level, va⟩ leaf

/-- A block register of stage 1 (R281). -/
structure Blk where
  perms : Nat
  mir : Bool
  vbase : Nat
  pages : Nat
  obase : Nat
deriving DecidableEq, Repr

/-- Block register `i` of a descriptor's 256 bytes, if it counts as valid (R281). -/
def blkOf (l : List Byte) (full : Bool) (i : Nat) : Option Blk :=
  let w0 := fieldB l (32 * i) 8
  let w1 := fieldB l (32 * i + 8) 8
  let w2 := fieldB l (32 * i + 16) 8
  let w3 := fieldB l (32 * i + 24) 8
  let b : Blk := ⟨bf w0 1 3, tb w0 4, bf w0 12 36 * 4096, bf w1 0 36 + 1, bf w2 12 36 * 4096⟩
  if tb w0 0 && bf w0 5 7 = 0 && w0 < 2 ^ 48 && w1 < 2 ^ 36 && bf w2 0 12 = 0 && w2 < 2 ^ 48 && w3 = 0 &&
      b.vbase + b.pages * 4096 ≤ 2 ^ 48 && b.obase + b.pages * 4096 ≤ (if full then 2 ^ 48 else 2 ^ 41) then some b
  else none

/-- The lowest-numbered valid block that contains `va` (R282). -/
def blkFind (l : List Byte) (full : Bool) (va : Nat) : Option (Nat × Blk) :=
  (List.range 8).findSome? (fun i =>
    match blkOf l full i with
    | some b => if b.vbase ≤ va ∧ va < b.vbase + b.pages * 4096 then some (i, b) else none
    | none => none)

/-- A stage-2 leaf (R284, R287): output base of its whole extent, extent, permissions, A, D, ATTR, entry address. -/
structure Leaf where
  out : Nat
  size : Nat
  perms : Nat
  a : Bool
  d : Bool
  attr : Nat
  at_ : Nat
deriving DecidableEq, Repr

/-- The bytes one entry maps at a level (R283). -/
def lvlSize (l : Nat) : Nat := 2 ^ (39 - 9 * l)

/-- What a stage-2 walk answers: the pointers read, the addresses of the entries read, and the leaf or the fault's level. -/
structure Walk where
  ptrs : List WalkE
  reads : List Nat
  res : Nat ⊕ Leaf

/-- A walker's read of a line fails (R79, R296, R521): the line cannot be read, or the read has expired. -/
def Chip.walkBad (ch : Chip) (a : Nat) : Bool := ch.lineBad a || decide (ch.walkX = some (a / 64))

/-- One stage-2 walk from `table` at `level` (R283 to R287, R296). Bit 9 of a table pointer is ignored (R287, log 103). -/
def Chip.walk2 (ch : Chip) (h tenant ipa : Nat) : Nat → Nat → Nat → List WalkE → List Nat → Walk
  | 0, level, _, acc, rd => ⟨acc, rd, .inl level⟩
  | f + 1, level, table, acc, rd =>
    if table / 2 ^ 40 ≠ h ∨ paLocal table ≥ ch.ram.dramTop h then ⟨acc, rd, .inl level⟩
    else
      let ea := table + 8 * bf ipa (39 - 9 * level) 9
      let rd := rd ++ [ea]
      let e := ch.ram.visLe ea 8
      let out := bf e 12 29 * 4096
      if ch.walkBad ea ∨ !tb e 0 ∨ bf e 10 2 ≠ 0 ∨ e ≥ 2 ^ 41 then ⟨acc, rd, .inl level⟩
      else if tb e 1 then
        let sz := lvlSize level
        if level = 0 ∨ bf e 7 2 = 3 ∨ out % sz ≠ 0 then ⟨acc, rd, .inl level⟩
        else
          let cont := tb e 9 && level ≥ 2
          let sz := if cont then sz * 16 else sz
          ⟨acc, rd, .inr ⟨alignDown out sz, sz, bf e 2 3, tb e 5, tb e 6, bf e 7 2, ea⟩⟩
      else if level = 3 ∨ bf e 2 7 ≠ 0 then ⟨acc, rd, .inl level⟩
      else ch.walk2 h tenant ipa f (level + 1) out (acc ++ [⟨tenant, level, ipa / lvlSize level, out⟩]) rd

/-- The size of a combined entry (R288). -/
def combinedSize (b : Blk) (limit va : Nat) : Nat :=
  ([2 ^ 30, 2 ^ 25, 2 ^ 21, 2 ^ 16].find? (fun s => s ≤ limit && alignDown va s ≥ b.vbase &&
    alignDown va s + s ≤ b.vbase + b.pages * 4096 && (b.obase + 2 ^ 48 - b.vbase) % s = 0)).getD 4096

/-- Add to a cache of `n` entries; which one a full cache gives up is a free choice. -/
def Chip.fill {α : Type} [DecidableEq α] (ch : Chip) (n : Nat) (l : List α) (x : α) : List α × Chip :=
  let l := l.filter (· ≠ x)
  if l.length < n then (x :: l, ch) else (x :: l.eraseIdx (ch.pick l.length).1, (ch.pick l.length).2)

/-- A combined entry covers an access (R288). -/
def TlbE.covers (e : TlbE) (tenant comp va : Nat) : Bool :=
  e.tenant = tenant && e.comp = comp && e.vbase ≤ va && va < e.vbase + e.size

/-- The set of the 128 of an L2 TLB (R288) that a virtual address takes for an entry of its size; not given (log 104). -/
def tlbSet (va size : Nat) : Nat := va / size % 128

/-- The combined entries of an L2 TLB that cover an access (R288). -/
def Cluster.tlbHits (k : Cluster) (tenant comp va : Nat) : List TlbE :=
  (([2 ^ 30, 2 ^ 25, 2 ^ 21, 2 ^ 16, 2 ^ 12].map (tlbSet va)).eraseDups.flatMap (fun i => mGet k.tlb i [])).filter
    (fun e => e.covers tenant comp va)

/-- Keep the combined entries of an L2 TLB that satisfy `p`. -/
def tlbKeep (p : TlbE → Bool) (m : NMap (List TlbE)) : NMap (List TlbE) :=
  (m.map (fun e => (e.1, e.2.filter p))).filter (fun e => !e.2.isEmpty)

/-- Fill a core's micro-TLB, where there is a core. -/
def Chip.fillMicro (ch : Chip) (k : Option Nat) (e : TlbE) : Chip :=
  match k with
  | none => ch
  | some k =>
    let r := ch.fill 32 (ch.core k).utlb e
    r.2.updCore k (fun c => { c with utlb := r.1 })

/-- Fill a cluster's L2 TLB and a core's micro-TLB with a walk's entry (R288, R289). -/
def Chip.fillTlb (ch : Chip) (c : Nat) (k : Option Nat) (e : TlbE) : Chip :=
  let r := ch.fill 8 (mGet (ch.clu c).tlb (tlbSet e.vbase e.size) []) e
  (r.2.updClu c (fun q => { q with tlb := mSet q.tlb (tlbSet e.vbase e.size) r.1 })).fillMicro k e

/-- What a cached entry answers (R286, R296): `need` has bit 0 for R, 1 for W, 2 for X. -/
def TlbE.answer (e : TlbE) (va need : Nat) : XRes :=
  if e.bperms &&& need ≠ need then xFault 0x20 0 e.blk va
  else if e.lperms &&& need ≠ need then xFault 0x20 1 e.level va
  else .ok (e.pbase + (va - e.vbase)) e.attr e.mir

/-- The walker's coherent reads of table entries (R285), for `who` (R367). -/
def Chip.walkReads (v : Vig) (ch : Chip) (who : Option Nat) (l : List Nat) : Chip :=
  l.foldl (fun c a => if c.ram.region a = .dram then c.busLine v who false a else c) ch

/-- The stage-1 descriptor of a compartment as the cluster's cache or memory gives it (R281, R289): its bytes, none with an
uncorrectable error. -/
def Chip.descriptor (v : Vig) (ch : Chip) (who : Option Nat) (c comp tenant : Nat) (fresh : Bool) : List Byte × Chip :=
  let hit := if fresh then none else (ch.clu c).dcache.find? (fun e => e.comp = comp && e.tenant = tenant)
  let p := if hit.isSome then ch.choose else (false, ch)
  match hit, p.1 with
  | some e, true => (e.blocks, p.2)
  | _, _ =>
    let sa := ch.s1Addr comp
    let lines := (List.range 4).map (fun i => sa + 64 * i)
    let bad := lines.any ch.walkBad
    let bytes := if bad then [] else ch.ram.visN sa 256
    let ch := p.2.walkReads v who lines
    if bad then (bytes, ch)
    else
    let r := ch.fill 32 ((ch.clu c).dcache.filter (fun e => !(e.comp = comp && e.tenant = tenant))) ⟨comp, tenant, bytes⟩
    (bytes, r.2.updClu c (fun k => { k with dcache := r.1 }))

/-- Keep the table pointers of a walk (R289). -/
def Chip.fillWalk (ch : Chip) (c : Nat) (l : List WalkE) : Chip :=
  l.foldl (fun ch e =>
    let r := ch.fill 64 (ch.clu c).wcache e
    r.2.updClu c (fun k => { k with wcache := r.1 })) ch

/-- A walk for a compartment and tenant (R280 to R289, R296), filling the caches. -/
def Chip.walkFor (v : Vig) (ch : Chip) (c : Nat) (k : Option Nat) (comp tenant va need : Nat) : Chip × XRes :=
  let h := c / 16
  let st := tb need 1
  let who := k.map (fun _ => tenant)
  let da := ch.tenantAddr h tenant
  let w := ch.ram.visLe da 8
  let bad := ch.walkBad da || !tb w 0 || bf w 2 10 ≠ 0 || w ≥ 2 ^ 41 || ch.ram.visLe (da + 8) 8 ≠ 0
  let ch := ch.walkReads v who [da]
  if bad then (ch, xFault 0x20 1 0 va)
  else
    let full := tb w 1
    let d := ch.descriptor v who c comp tenant false
    let ch := d.2
    match blkFind d.1 full va with
    | none => (ch, xFault 0x20 0 0 va)
    | some (i, b) =>
      if b.perms &&& need ≠ need then (ch, xFault 0x20 0 i va)
      else
        let ipa := b.obase + (va - b.vbase)
        if !full then
          let s := combinedSize b (2 ^ 30) va
          (ch.fillTlb c k ⟨tenant, comp, alignDown va s, s, ipa - va % s, b.perms, 7, i, 0, 0, b.mir, true⟩, .ok ipa 0 b.mir)
        else
          let find := fun l => (ch.clu c).wcache.find? (fun e => e.tenant = tenant && e.level = l && e.ipa = ipa / lvlSize l)
          let start := [2, 1, 0].findSome? find
          let p := if start.isSome then ch.choose else (false, ch)
          let r := match start, p.1 with
            | some e, true => ch.walk2 h tenant ipa 4 (e.level + 1) e.table [] []
            | _, _ => ch.walk2 h tenant ipa 4 0 (bf w 12 29 * 4096) [] []
          let ch := ((p.2.cnt XLT_WALKS XLT_WALKS_COUNT h).walkReads v who r.reads).fillWalk c r.ptrs
          match r.res with
          | .inl level => (ch, xFault 0x20 1 level va)
          | .inr leaf =>
            let level := if leaf.size ≥ 2 ^ 30 then 1 else if leaf.size ≥ 2 ^ 21 then 2 else 3
            if leaf.perms &&& need ≠ need then (ch, xFault 0x20 1 level va)
            else if !leaf.a then (ch, xFault 0x21 1 level va leaf.at_)
            else if st && !leaf.d then (ch, xFault 0x22 1 level va leaf.at_)
            else
              let pa := leaf.out + ipa % leaf.size
              let s := combinedSize b leaf.size va
              (ch.fillTlb c k ⟨tenant, comp, alignDown va s, s, pa - va % s, b.perms, leaf.perms, i, level, leaf.attr, b.mir,
                leaf.d⟩, .ok pa leaf.attr b.mir)

/-- Translate one address for a compartment and tenant of cluster `c` (R280 to R289, R294, R296), for core `k` where there is
one: some cached entry that covers it answers, or a walk. A store walks again rather than use an entry with D = 0 (R289).
`need` has bit 0 for R, 1 for W, 2 for X. -/
def Chip.xlate (v : Vig) (ch : Chip) (c : Nat) (k : Option Nat) (comp tenant va need : Nat) : Chip × XRes :=
  let micro := ((k.map (fun k => (ch.core k).utlb)).getD []).filter (fun e => e.covers tenant comp va)
  let hits := (micro ++ (ch.clu c).tlbHits tenant comp va).filter (fun e => !tb need 1 || e.d)
  let p := if hits.isEmpty then (0, ch) else ch.pick (hits.length + 1)
  match hits[p.1]? with
  | some e => (if micro.contains e then p.2 else p.2.fillMicro k e, e.answer va need)
  | none => p.2.walkFor v c k comp tenant va need

/-- Remove the combined entries for which `p` holds from cluster `c` and the micro-TLBs of its cores. -/
def Chip.dropTlb (ch : Chip) (c : Nat) (p : TlbE → Bool) : Chip :=
  { (ch.updClu c (fun k => { k with tlb := tlbKeep (fun e => !p e) k.tlb })) with
    cores := ch.cores.map (fun e =>
      if coreClu e.1 = c && !coreSvc e.1 then (e.1, { e.2 with utlb := e.2.utlb.filter (fun x => !p x) }) else e) }

/-- Remove the combined entries of a tenant that contain `va` in one cluster (R298). -/
def Chip.dropPage (ch : Chip) (c tenant va : Nat) : Chip :=
  ch.dropTlb c (fun e => e.tenant = tenant && e.vbase ≤ va && va < e.vbase + e.size)

/-- An access that task `t` issued at privilege `priv` with STATUS.TW `tw` is translated (R279). -/
def translatedAs (t priv : Nat) (tw : Bool) : Bool := !coreSvc (tCore t) && (priv = 0 || (priv = 1 && !tw))

/-- The pieces of an access of `n` bytes at `va`, one for each 4 KiB page (R62). -/
def pageSpans (va n : Nat) : List (Nat × Nat) :=
  let first := min n (4096 - va % 4096)
  if n = 0 then [] else if first = n then [(va, n)] else [(va, first), (va + first, n - first)]

/-- A fault of translating an access: the fault, the entry whose A or D bit is wanted, the address in the faulting page, and
whether the access stores. -/
structure XBad where
  flt : Flt
  leaf : Nat
  page : Nat
  st : Bool
deriving DecidableEq, Repr

/-- What translating an access answers: the chip, its pieces, and the fault if there is one. -/
abbrev XAcc := Chip × List Piece × Option XBad

/-- Translate an access issued by task `t` for a compartment and tenant at a privilege and trap-window state, lower page
first (R62, R279, R296). An untranslated address above 41 bits is unpopulated. -/
def Chip.xlateAs (v : Vig) (ch : Chip) (t comp ten priv : Nat) (tw : Bool) (va n need : Nat) : XAcc :=
  (pageSpans va n).foldl (fun acc s =>
    match acc with
    | (ch, ps, some f) => (ch, ps, some f)
    | (ch, ps, none) =>
      if !translatedAs t priv tw then (ch, ps ++ [⟨s.1, s.2, false, 0⟩], none)
      else
        let r := ch.xlate v (tClu t) (some (tCore t)) comp ten s.1 need
        match r.2 with
        | .ok pa attr mir => (r.1, ps ++ [⟨pa, s.2, mir, attr⟩], none)
        | .bad f leaf => (r.1, ps, some ⟨{ f with fdata := va }, leaf, s.1, tb need 1⟩)) (ch, [], none)

/-- Translate an access of a task as it stands. -/
def Chip.xlateAcc (v : Vig) (ch : Chip) (t va n need : Nat) : XAcc :=
  let x := ch.task t
  ch.xlateAs v t x.comp x.tenant x.priv x.tw va n need

/-- A trap for an access or dirty bit (R298, R299): the page leaves the issuing cluster's caches; in host-assisted mode the trap
is forwarded to the host and the faulting compartment is paused (R434, R442). -/
def Chip.adTrap (ch : Chip) (t : Nat) (b : XBad) : Chip :=
  if b.flt.code = 0x21 ∨ b.flt.code = 0x22 then
    let x := ch.task t
    let h := tHalf t
    let ch := ch.dropPage (tClu t) x.tenant b.page
    match x.bound with
    | some id =>
      if ch.fld XLT_CTRL XLT_CTRL_ADMODE h = 1 && !x.tw then
        (ch.hostEvent h 3 (leBytes 8 b.leaf ++ leBytes 2 x.tenant ++ [BitVec.ofNat 8 (b2n b.st), 1] ++
          leBytes 2 id)).setFlag id fPaused true
      else ch
    | none => ch
  else ch

end Sys2Proof.Machine
end

