-- ==== Sys2Proof/Machine/Ops.lean ====
section
/-! DEFINITION. The shared operations of a core: charging (R257), taking an exception (R219 to R221), extinction
(R223, R224), saving a task (R249, R250), return validation (R225), and issuing one instruction (R160, R161, R163). -/

namespace Sys2Proof.Machine

/-- Raise Taper attention causes (R537). -/
def Chip.raiseAttn (ch : Chip) (causes : Nat) : Chip := { ch with attn := ch.attn ||| causes }

/-- The open session has rights over a task (R534, R535); in BLANK every operation is allowed without one. -/
def Vig.rights (v : Vig) (x : Task) : Bool :=
  v.lc = 0 || (match v.session with
    | some s => s.kind = 1 || (s.kind = 2 && x.tenant = s.scope && x.priv = 0)
    | none => false)

/-- Charge `n` cycles of a core to tenant `ten` (R257), and to a task's event count (R259), the slice (R255) and the load
counts of R261. A task of the service core has no tenant and is charged to nobody. -/
def Chip.chargeTo (v : Vig) (ch : Chip) (t ten n : Nat) : Chip :=
  let k := tCore t
  let ch := ch.updCore k (fun c => { c with cyc := c.cyc + n, slice := c.slice - n })
  if coreSvc k then ch
  else
    let ch := ch.meter (coreHalf k) v.parity ten 4 n
    let ch := ch.updTask t (fun x => { x with evcount := x.evcount + n })
    let ch := ch.updClu (coreClu k) (fun c => { c with loadCyc := c.loadCyc + n })
    match (ch.task t).bound with
    | some b => { ch with compLoad := mSet ch.compLoad b ((mGet ch.compLoad b (0, 0)).1 + n, (mGet ch.compLoad b (0, 0)).2) }
    | none => ch

/-- Charge `n` cycles to a task's current tenant (R257). -/
def Chip.charge (v : Vig) (ch : Chip) (t n : Nat) : Chip := ch.chargeTo v t (ch.task t).tenant n

/-- Count uncharged cycles of a core (R257). -/
def Chip.idle (ch : Chip) (k n : Nat) : Chip :=
  let ch := ch.updCore k (fun c => { c with cyc := c.cyc + n })
  if coreSvc k then ch else ch.cnt SCH_IDLE SCH_IDLE_COUNT (coreHalf k) [k / 16 % 16] n

/-- Free the vector context a task holds (R197); contents are discarded. -/
def Chip.freeCtx (ch : Chip) (t : Nat) : Chip :=
  match (ch.core (tCore t)).ctxOf (tNum t) with
  | some c =>
    (ch.updCore (tCore t) (fun k => k.setCtx c VCtx.reset)).updTask t (fun x =>
      { x with late := x.late.filter (fun l => match l.dst with
          | .vreg _ _ => false
          | _ => true) })
  | none => ch

/-- The task has a vector memory operation outstanding. -/
def Task.vecOut (x : Task) : Bool := x.ops.any (fun o => o.kind = .vld || o.kind = .vst || o.kind = .vldff)

/-- Stop a task's block repeat at its element boundary (R146); where it came from stays with the suspended operation. -/
def Task.stopRep (x : Task) : Task :=
  match x.rep with
  | some r => { x with rep := none, org := some r.org, rc := BitVec.ofNat 64 (bfSet x.rc.toNat 63 1 1) }
  | none => x

/-- STATUS.MPOS and MPV as a stop of STM or LDM leaves them (R105): `f` is the first register not transferred. -/
def Task.markStop (x : Task) (f : Nat) : Task := { ((x.putStatus 16 6 f).putStatus 22 1 1) with multi := none }

/-- A stalled STM or LDM that has transferred registers stops where it stands (R105). -/
def Task.stopMulti (x : Task) : Task :=
  match x.multi with
  | some m => if m.n = 0 then { x with multi := none } else x.markStop m.next
  | none => x

/-- A task's instruction and block repeat stop where they stand (R105, R146). -/
def Task.stopAll (x : Task) : Task := x.stopRep.stopMulti

/-- Save a task's vector context to its compartment's save area where R196 and R197 save it: nothing is written when the
ZERO mark is set (zero is recorded) or DIRTY is clear. -/
def Chip.saveCtx (ch : Chip) (t : Nat) (r : CompRec) : Chip :=
  let k := ch.core (tCore t)
  match k.ctxOf (tNum t) with
  | none => ch
  | some c =>
    let x := k.ctx c
    if x.zero then ch.setFlag r.id fVsaved false
    else if !x.dirty then ch
    else
      let ram := (List.range 32).foldl (fun m i => m.wrCap (r.saveAt + 0x2200 + 16 * i) ⟨false, x.rd i⟩) ch.ram
      ({ ch with ram := ram }).setFlag r.id fVsaved true

/-- The bytes of one pending failure (R249). -/
def Fail.bytes (f : Fail) : List Byte :=
  leBytes 8 f.faddr ++ leBytes 8 f.fdata ++ [BitVec.ofNat 8 f.code,
    BitVec.ofNat 8 (f.fpriv % 4 + (f.stage % 2) * 4 + (f.level % 8) * 8), BitVec.ofNat 8 f.cls,
    BitVec.ofNat 8 (b2n f.tw)] ++ leBytes 12 0

/-- What the hardware keeps beside the save area of a task that is saved (R146, R179). -/
def Task.carry (x : Task) : Carry :=
  ⟨x.org, (((x.fails.take 8).zipIdx).find? (fun e => x.lastOp = some e.1.id)).map (·.2)⟩

/-- Write a task's state to its compartment's save area (R249, R250 steps 1 and 2). Of more than eight failures the oldest eight
are saved, and the rest are lost (log 105). -/
def Chip.saveState (ch : Chip) (t : Nat) (r : CompRec) : Chip :=
  let x := ch.task t
  let a := r.saveAt
  let k := tCore t
  let g0 := ch.base t / 8
  let old := if r.flag fSaved then ch.ram.rdLe (a + 0x20C0) 8 else 0
  let save := (List.range (ch.perTask k / 8)).foldl (fun (acc : Ram × Nat) g =>
    if (mGet? ch.dirty (g0 + g)).isNone then acc
    else if (mGet? ch.zero (g0 + g)).isSome then (acc.1, bfSet acc.2 g 1 0)
    else ((List.range 8).foldl (fun m i => m.wrCap (a + 128 * g + 16 * i) (ch.rdEntry ((g0 + g) * 8 + i))) acc.1,
      bfSet acc.2 g 1 1)) (ch.ram, old)
  let caps := [x.pcc, x.epc, x.rsrc, x.rdst, x.rsc]
  let m := (List.range 5).foldl (fun m i => m.wrCap (a + 0x2000 + 16 * i) (caps.getD i Cap.null)) save.1
  let m := m.write (a + 0x2050) (leBytes 4 x.status.toNat ++ leBytes 4 x.estatus.toNat ++ leBytes 4 x.cause.toNat ++
    leBytes 4 0)
  let ws := [x.faddr, x.fdata, x.mh, x.ml, x.rc, x.lc, x.ls, x.le, x.crcpoly, x.vl, x.evmask, 0]
  let m := m.write (a + 0x2060) (ws.flatMap (fun (w : Word) => leBytes 8 w.toNat))
  let fails := x.fails.take 8
  let m := m.write (a + 0x20C0) (leBytes 8 save.2 ++ leBytes 8 fails.length ++ leBytes 8 x.evcount ++
    leBytes 8 (x.comp + x.tenant * 2 ^ 16) ++ leBytes 32 0)
  let m := m.write (a + 0x2100) (fails.flatMap Fail.bytes)
  ({ ch with ram := m, carry := mSet ch.carry r.id x.carry }).setFlag r.id fSaved true

/-- Free a task: what remains are its outstanding long operations, whose results are discarded (R181, R223). -/
def Chip.freeTask (ch : Chip) (t : Nat) : Chip :=
  let x := ch.task t
  let ch := if x.halted ∨ x.haltReq ∨ x.stepping then ch.raiseAttn 8 else ch
  let ch := if x.vecOut then ch else ch.freeCtx t
  let ch := ch.setTask t { Task.reset with ops := x.ops.map (fun o => { o with drop := true }) }
  let ch := ch.updCore (tCore t) (fun k => { k with sb := k.sb.map (fun e => if e.task = t then { e with drop := true } else e) })
  ch.updCore (tCore t) (fun k => if k.holder = some (tNum t) then { k with holder := none } else k)

/-- The task's compartment becomes pending again if an enabled event is queued (R248, R260). -/
def Chip.repend (ch : Chip) (id : Nat) : Chip :=
  match ch.record id with
  | none => ch
  | some r =>
    let c := compHalf id * 16 + r.cluster
    if (ch.boundTo id).isNone && !r.flag fPaused && !r.flag fExtinguished && !r.flag fMoving &&
        (ch.queued r).any (fun e => tb (ch.savedMask r) e.cls) && !(ch.clu c).pend.contains id then
      ch.updClu c (fun k => { k with pend := k.pend ++ [id] })
    else ch

/-- Unbind a task that has no long operation outstanding (R250): its state goes to the save area. -/
def Chip.unbind (ch : Chip) (t : Nat) : Chip :=
  let ch := (ch.flush t).updTask t Task.stopAll
  match (ch.task t).bound with
  | none => ch
  | some id =>
    match ch.record id with
    | none => ch.freeTask t
    | some r => (((ch.saveState t r).saveCtx t r).freeTask t).repend id

/-- Cycles of binding or unbinding work in which the core issues nothing (R250, R252, R257): at least `n`, and more where a line
is not in L2; how many is not given (log 2). -/
def Chip.bindIdle (ch : Chip) (t n : Nat) : Chip :=
  if (ch.core (tCore t)).holder.isSome then ch else ({ ch with free := ch.free + 1 }).idle (tCore t) (n + Config.freeNat ch.free)

/-- The lines of a save area that binding (`wr` false) or unbinding task `t` moves for the groups in `map` (R250, R252), through L2 for
the compartment's tenant (R258, R367), and the work's cycles. -/
def Chip.saveUse (v : Vig) (ch : Chip) (t : Nat) (r : CompRec) (wr : Bool) (map : Nat) : Chip :=
  let gs := (List.range 64).filter (fun g => tb map g)
  let ch := gs.foldl (fun c g => c.areaTouch v (tClu t) r.tenant wr (r.saveAt + 128 * g) 128) ch
  (ch.areaTouch v (tClu t) r.tenant wr (r.saveAt + 0x2000) 0x200).bindIdle t (if wr then 16 + 8 * gs.length else 12 + 4 * gs.length)

/-- The register groups of a task that unbinding writes (R250). -/
def Chip.dirtyMap (ch : Chip) (t : Nat) : Nat :=
  let g0 := ch.base t / 8
  (List.range (ch.perTask (tCore t) / 8)).foldl (fun n g =>
    n + b2n ((mGet? ch.dirty (g0 + g)).isSome && (mGet? ch.zero (g0 + g)).isNone) * 2 ^ g) 0

/-- Extinguish a task (R223): `code` is the extinguishing fault's cause, `addr` its instruction's address, `level` the
handler level. -/
def Chip.extinguish (v : Vig) (ch : Chip) (t code addr level : Nat) : Chip :=
  let k := tCore t
  let h := coreHalf k
  let ch := (ch.flush t).updTask t Task.stopAll
  let x := ch.task t
  if coreSvc k then
    let ch := ch.cnt HALF_SCEXTCOUNT HALF_SCEXTCOUNT_COUNT h
    let ch := ch.setFld HALF_SCXSTAT HALF_SCXSTAT_LAST_CODE h [] code
    let ch := if level = 3 then ch.flag HALF_SCXSTAT HALF_SCXSTAT_MACH_EXT h else ch
    let ch := ch.updTask t (fun x =>
      { x with dead := true, halted := true, fresh := false, ops := x.ops.map (fun o => { o with drop := true }) })
    let ch := if (ch.task t).vecOut then ch else ch.freeCtx t
    ch.updCore k (fun c => if c.holder = some (tNum t) then { c with holder := none } else c)
  else
    let c := k / 16 % 16
    let ch := ch.cnt CLU_EXTCOUNT CLU_EXTCOUNT_COUNT h [c]
    let ch := ch.setFld CLU_XSTAT CLU_XSTAT_LAST_CODE h [c] code
    let ch := if level = 3 then ch.flag CLU_XSTAT CLU_XSTAT_MACH_EXT h [c] else ch
    match x.bound with
    | none => ch.freeTask t
    | some id =>
      let r := (ch.record id)
      let ten := ((r.map (·.tenant)).getD 0) % 4096
      let notice := leBytes 8 addr ++ leBytes 8 x.epc.addr ++ leBytes 2 id ++ leBytes 2 ten ++
        [BitVec.ofNat 8 code, BitVec.ofNat 8 (bf x.cause.toNat 0 8),
         BitVec.ofNat 8 (b2n (tb x.cause.toNat 10) + level * 2), 0] ++ leBytes 2 (Chip.taskPath v ch t) ++ leBytes 6 0
      let ch := match r with
        | some r => ((ch.saveState t r).setFlag id fExtinguished true).saveUse v t r true (ch.dirtyMap t)
        | none => ch
      let ch := (ch.freeTask t).notify id notice
      ch.meter h v.parity ten 20 1

/-- The trap entry of a handler level (R220). -/
def Chip.trapEntry (ch : Chip) (t level : Nat) : Cap :=
  let k := tCore t
  let h := coreHalf k
  let c := k / 16 % 16
  if level = 0 then ((ch.record (ch.task t).comp).map (·.trapent)).getD Cap.null
  else if coreSvc k then
    if level = 1 then ch.capReg HALF_SCXVEC_SVC h else ch.capReg HALF_SCXVEC_MCH h
  else if level = 1 then ch.capReg CLU_XVEC_SVC h [c] else ch.capReg CLU_XVEC_MCH h [c]

/-- PCC as saved for a return at Machine privilege: sealed with 0xFFE (R219, R226). -/
def sealReturn (priv : Nat) (c : Cap) : Cap := if priv = 3 then c.put 80 12 0xFFE else c

/-- The handler level of an exception (R219 step 2). -/
def Chip.handlerLevel (ch : Chip) (t : Nat) (e : Exc) : Nat :=
  let x := ch.task t
  let noEntry := !(((ch.record x.comp).map (·.trapent.tag)).getD false)
  let own := max x.priv e.fpriv
  max own (if causeService e.code || (own = 0 && noEntry) then 1 else 0)

/-- Take an exception (R219 to R221): save STATUS and PCC, choose the handler level, enter the trap window; in the trap
window the task is extinguished instead (R90). -/
def Chip.takeExc (v : Vig) (ch : Chip) (t : Nat) (e : Exc) : Chip :=
  let x := ch.task t
  if x.tw then ch.extinguish v t e.code e.faddr x.priv
  else
    let level := ch.handlerLevel t e
    let entry := ch.trapEntry t level
    let pcc := cadv entry (0x40 * causeVector e.code)
    let ch := ch.updTask t (fun x => { x with
      estatus := x.status, epc := sealReturn x.priv e.pcc
      cause := mkCause e.code e.fpriv e.imprecise e.stage e.level e.multi
      faddr := BitVec.ofNat 64 e.faddr, fdata := BitVec.ofNat 64 e.fdata })
    if !entry.tag || entry.otype ≠ 0 || !entry.has pExec || (level ≠ 0 && !entry.has pSystem) || !pcc.tag then
      let k := tCore t
      let ch := if coreSvc k then ch.flag HALF_SCXSTAT HALF_SCXSTAT_ENTRY_BAD (coreHalf k)
        else ch.flag CLU_XSTAT CLU_XSTAT_ENTRY_BAD (coreHalf k) [k / 16 % 16]
      ch.extinguish v t 0x3F pcc.addr level
    else
      let ch := ch.updTask t (fun x =>
        { ((((x.putStatus 13 2 level).putStatus 15 1 1).putStatus 16 6 0).putStatus 22 1 0) with
          pcc := pcc, fq := [], ffault := none, lastOp := none, pairOpen := false, wait := .none, multi := none, fresh := true })
      ch.charge v t 4

/-- R225: a return to privilege `p` with PCC `c` is valid. -/
def validReturn (p : Nat) (c : Cap) : Bool :=
  if p = 0 then true
  else if p = 1 then c.tag && c.has pSystem
  else if p = 3 then c.tag && c.has pSystem && c.otype = 0xFFE
  else false

/-- The PCC a valid return installs (R225). -/
def returnPcc (p : Nat) (c : Cap) : Cap := if p = 3 then c.put 80 12 0 else c

/-- The task's fixed-latency results on their way to its register groups `gs` are discarded. -/
def Chip.dropLate (ch : Chip) (t : Nat) (gs : List Nat) : Chip :=
  let g0 := ch.base t / 8
  ch.updTask t (fun x => { x with late := x.late.filter (fun l => match l.dst with
    | .entry e => !gs.contains (e / 8 - g0)
    | _ => true) })

/-- Return from an exception (R227, R228): the task's state after a valid ERET. When it lowers the privilege, no result of the
handler reaches the trap window any more. -/
def Chip.eret (ch : Chip) (t : Nat) : Chip :=
  let x := ch.task t
  let low := x.epriv < x.priv
  let ch := ch.updTask t (fun x =>
    { x with status := BitVec.ofNat 32 (bfSet x.estatus.toNat 15 1 0), pcc := returnPcc x.epriv x.epc })
  if low then (ch.dropLate t [2, 3]).zeroGroups t [2, 3] else ch

/-- PCC moved to another cursor; the tag stays only where the cursor is representable (R136). -/
def movePcc (c : Cap) (a : Nat) : Cap := (c.put 0 64 a).withTag (c.tag && c.representable (a % 2 ^ 64))

/-- A fault of the sequential fetch at the task's PCC (R61, R136), if its check fails. -/
def fetchCheck (pcc : Cap) : Option Nat := checkCap pcc pcc.addr 4 [pExec] 4

/-- The fault of fetching the word after the REP prefix `w` at PCC, where the queue does not hold it (R136, R141). -/
def Task.secondFault (x : Task) (w : Nat) : Option Flt :=
  if wMaj w ≠ 0x34 ∨ x.fq.length ≠ 1 then none
  else
    let a := (x.pcc.addr + 4) % 2 ^ 64
    if !x.pcc.representable a then some ⟨0x14, 0, 0, a⟩
    else
      match fetchCheck (movePcc x.pcc a) with
      | some c => some ⟨c, 0, 0, a⟩
      | none => x.ffault

/-- Instructions that keep a loop body out of the loop buffer (R189). -/
def Row.noLoop : Row → Bool
  | .call | .callr | .jr | .ret | .gcall | .gret | .eret | .trap | .brk | .rep => true
  | _ => false

/-- The loop buffer notes the word that task `t` issues next (R189): the owner's first iteration is recorded, and a body found to
hold an instruction that never enters the buffer leaves it (log 106). -/
def Chip.loopNote (ch : Chip) (t : Nat) : Chip :=
  match (ch.task t).fq with
  | [] => ch
  | (a, w) :: _ =>
    ch.updCore (tCore t) (fun k =>
      match k.loopBuf with
      | none => k
      | some b =>
        if b.task ≠ t ∨ a < b.start ∨ b.last < a then k
        else if (rowOf w.toNat).noLoop then { k with loopBuf := none }
        else if b.filling then { k with loopBuf := some { b with words := mSet b.words a w } }
        else k)

/-- The loop that a task's LE ends has finished an iteration: its recorded body serves from here on (R189). -/
def CoreSt.loopDone (k : CoreSt) (t le : Nat) : CoreSt :=
  match k.loopBuf with
  | some b => if b.task = t ∧ b.last = le then { k with loopBuf := some { b with filling := false } } else k
  | none => k

/-- An instruction completes without transferring control: the loop-end action (R138) and the next PCC. A next cursor
that is not representable leaves PCC with tag 0 and the bounds fault of its fetch (R136). The last iteration of a loop whose LE
names a REP prefix goes on at LE + 4, the operation word, as R138 says of any LE (log 107). -/
def Chip.advance (ch : Chip) (t len : Nat) : Chip :=
  let x := ch.task t
  let ch := if x.lc.toNat > 1 ∧ x.pcc.addr = x.le.toNat then ch.updCore (tCore t) (fun k => k.loopDone t x.le.toNat) else ch
  ch.updTask t (fun x =>
    let pc := x.pcc.addr
    let lc := x.lc.toNat
    let atEnd := lc ≠ 0 && pc = x.le.toNat
    let next := if atEnd then if lc > 1 then x.ls.toNat else (x.le.toNat + 4) % 2 ^ 64 else (pc + len) % 2 ^ 64
    let x := if atEnd then { x with lc := BitVec.ofNat 64 (lc - 1) } else x
    let fq := x.fq.drop (len / 4)
    let ok := match fq.head? with
      | some w => w.1 == next
      | none => true
    let ff := if !x.pcc.representable next then some ⟨0x14, 0, 0, next⟩ else if ok then x.ffault else none
    { x with pcc := movePcc x.pcc next, fq := if ok then fq else [], ffault := ff })

/-- The first word of the queue may be followed by its pair's second (R166, R167). -/
def Task.opensPair (x : Task) (w : Nat) : Bool :=
  !(x.lc.toNat ≠ 0 && x.pcc.addr = x.le.toNat) &&
    (match x.fq.drop 1 with
     | w2 :: _ => pairs x.tw w w2.2.toNat
     | [] => false)

/-- The branch target buffer set of a core for an address (R186). -/
def CoreSt.btbSet (k : CoreSt) (a : Nat) : List Btb := mGet k.btb (bf a 2 8) []

/-- Resolve a branch at `a` (R186 to R188): the buffer moves, and the issue cycles lost are returned. `neg` says that the
static rule predicts taken; `target` is used when taken. -/
def Chip.resolve (ch : Chip) (t a : Nat) (neg taken : Bool) (target : Nat) : Nat × Chip :=
  let k := tCore t
  let ten := (ch.task t).tenant
  let set := (ch.core k).btbSet a
  let hit := set.find? (fun b => b.addr = bf a 2 46 && b.tenant = ten)
  let put := fun (b : Btb) => ch.updCore k (fun c =>
    { c with btb := mSet c.btb (bf a 2 8) ((b :: set.filter (fun x => !(x.addr = b.addr && x.tenant = b.tenant))).take 2) })
  match hit with
  | some b =>
    let pt := b.ctr ≥ 2
    let lost := if taken then if pt ∧ b.target = target then 0 else 4 else if pt then 4 else 0
    let ctr := if taken then min 3 (b.ctr + 1) else b.ctr - 1
    (lost, put { b with ctr := ctr, target := if taken then target else b.target })
  | none =>
    if taken then (if neg then 2 else 4, put ⟨bf a 2 46, ten, target, 2⟩)
    else (if neg then 4 else 0, ch)

/-- The static prediction of a word (R187): B and CALL with a negative imm22. -/
def staticTaken (w : Nat) : Bool := (wMaj w = 0x30 || wMaj w = 0x31) && tb w 21

/-- Count an instruction that issues without taking an exception (R366). -/
def Chip.countInsn (v : Vig) (ch : Chip) (t ten : Nat) : Chip :=
  let k := tCore t
  let ch := ch.updCore k (fun c => { c with lastIssue := v.clk })
  let ch := ch.updTask t (fun x => { x with lastPc := x.pcc.addr })
  if coreSvc k then ch else ch.meter (coreHalf k) v.parity ten 5 1

/-- An instruction breakpoint of the core matches the task's next instruction (R544): its ACTION, where one matches that
acts. -/
def Chip.ibpMatch (v : Vig) (ch : Chip) (t : Nat) : Option Nat :=
  let k := tCore t
  let x := ch.task t
  (List.range 8).findSome? (fun i =>
    let r := ch.reg DBG_IBP (coreHalf k) [coreMaster k, i]
    if tb r 0 && bf r 2 46 = bf x.pcc.addr 2 46 && (tb r 60 || bf r 48 12 = x.tenant) then
      if tb r 1 then some 1 else if v.rights x then some 0 else none
    else none)

/-- A data watchpoint of the core matches an access of a task (R545), and a session has rights over it. -/
def Chip.watchHit (v : Vig) (ch : Chip) (t a n : Nat) (ld st : Bool) : Bool :=
  let k := tCore t
  let x := ch.task t
  v.rights x && (List.range 4).any (fun i =>
    let wa := ch.reg DBG_WPA (coreHalf k) [coreMaster k, i]
    let wc := ch.reg DBG_WPC (coreHalf k) [coreMaster k, i]
    let sz := 2 ^ min 12 (bf wc 4 4)
    let lo := alignDown (bf wa 0 48) sz
    tb wc 0 && ((ld && tb wc 2) || (st && tb wc 3)) && (tb wc 20 || bf wc 8 12 = x.tenant) &&
      lo < a + n && a < lo + sz)

/-- Halt a task for the Taper port (R538). -/
def Chip.haltTask (ch : Chip) (t causes : Nat) : Chip :=
  let ch := (ch.updTask t Task.stopAll).updTask t (fun x => { x with halted := true, haltReq := false, stepping := false, pairOpen := false })
  let ch := ch.updCore (tCore t) (fun k => if k.holder = some (tNum t) then { k with holder := none } else k)
  ch.raiseAttn causes

/-- The privilege test of an instruction (R106, R153, R155). -/
def privOk (x : Task) (w : Nat) : Bool :=
  if wMaj w = 0x38 ∧ wMin w ≥ 4 then x.priv ≠ 0
  else if wMaj w = 0x3C ∧ wMin w = 1 then readPermitted x (wB w)
  else if wMaj w = 0x3C ∧ wMin w = 2 then writePermitted x (wA w)
  else if wMaj w = 0x3C ∧ wMin w = 5 then x.tw
  else true

/-- The registers an STM or LDM mask selects (R103). -/
def maskFields (m : Nat) : List Nat := (List.range 64).filter (fun i => tb m i)

/-- R104: the mask of an STM or LDM makes it a reserved encoding. -/
def Chip.maskReserved (ch : Chip) (t w : Nat) : Bool :=
  if wMaj w = 0x28 ∨ wMaj w = 0x29 then
    let m := ch.rdInt t (wA w)
    (!(ch.task t).tw && m ≥ 2 ^ 40) || (wMaj w = 0x29 && tb m (wB w))
  else false

/-- WINDOW_DEPTH of R86: a named register, or a mask bit of STM or LDM, has no storage. In the trap window, mask bits 40
to 63 select registers of the interrupted window by their field values (R83, log 9), which have storage where XGET finds it. -/
def Chip.depthFault (ch : Chip) (t w w2 : Nat) : Bool :=
  (gprFields w w2).any (fun f => !ch.backed t f) ||
    ((wMaj w = 0x28 || wMaj w = 0x29) && (maskFields (ch.rdInt t (wA w))).any (fun f => (ch.multiEntry t f).isNone))

/-- The word reads a register-store entry that an uncorrectable error has poisoned (R466). -/
def Chip.readsBad (ch : Chip) (t w w2 : Nat) : Bool :=
  !ch.rsBad.isEmpty && (gprSources w w2).any (fun f => match ch.entry t f with
    | some e => (mGet? ch.rsBad e).isSome
    | none => false)

/-- A precise exception of the instruction at PCC. -/
def Chip.preciseExc (v : Vig) (ch : Chip) (t code stage level fdata : Nat) : Chip :=
  let x := ch.task t
  ch.takeExc v t ⟨code, x.priv, false, stage, level, false, x.pcc.addr, fdata, x.pcc⟩

/-- A word's control-transfer class for prediction: unselected branches resolve as not taken (R186). -/
def isBranchWord (w : Nat) : Bool := wMaj w = 0x30 || wMaj w = 0x31 || (wMaj w = 0x32 && wMin w ≤ 2)

/-- Finish an instruction that fell through. -/
def Chip.retire (v : Vig) (ch : Chip) (t ten w len : Nat) (op : Option Nat) : Chip :=
  let a := (ch.task t).pcc.addr
  let r := if isBranchWord w then ch.resolve t a (staticTaken w) false 0 else (0, ch)
  let ch := ((r.2.countInsn v t ten).updTask t (fun x => { x with lastOp := op, wait := .none, noBp := false, fresh := false, multi := none })).advance t len
  if r.1 = 0 then ch else ch.charge v t r.1

/-- Finish an instruction that transferred control (R163: the fetch queue is emptied). -/
def Chip.transfer (v : Vig) (ch : Chip) (t ten : Nat) (pcc : Cap) (lost : Nat) : Chip :=
  let ch := (ch.countInsn v t ten).updTask t (fun x =>
    { x with pcc := pcc, fq := [], ffault := none, lastOp := none, pairOpen := false, wait := .none, noBp := false, fresh := false })
  if lost = 0 then ch else ch.charge v t lost

/-- The load or atomic of a fence's set (R277). -/
def OpKind.loads : OpKind → Bool
  | .load | .vld | .vldff | .atomic => true
  | _ => false
/-- The store or atomic of a fence's set (R277). -/
def OpKind.stores : OpKind → Bool
  | .store | .vst | .atomic | .push | .paint => true
  | _ => false

/-- The stores of a task whose deferred colour check (R174, R185) is outstanding. -/
def Chip.sbOps (ch : Chip) (t : Nat) : Nat :=
  ((ch.core (tCore t)).sb.filter (fun e => decide (e.task = t) && !e.checked && !e.drop)).length

/-- Every long operation of a task has completed or failed (R100, R250), the deferred checks of its stores among them. -/
def Chip.opsDone (ch : Chip) (t : Nat) : Bool := (ch.task t).ops.isEmpty && ch.sbOps t = 0

/-- Something of an awaited set is still outstanding for the task (R177 to R179, R277). A request of its present instruction is part of that
instruction, one of its block repeat of the block repeat. -/
def Chip.awaits (ch : Chip) (t mask : Nat) : Bool :=
  let x := ch.task t
  let sb := (ch.core (tCore t)).sb.any (fun e => e.task = t)
  x.ops.any (fun o => o.inst = 0 && tb mask o.cls) || (tb mask 0 && ch.sbOps t ≠ 0) || (tb mask 4 && x.rep.isSome) || (tb mask 6 && sb) ||
    (tb mask 7 && x.ops.any (fun o => o.kind.loads && o.inst = 0)) ||
    (tb mask 8 && (sb || x.ops.any (fun o => o.kind.stores && o.inst = 0)))

/-- A store of the task issued before operation number `id` is not performed yet (R274, R278). -/
def Chip.storesBefore (ch : Chip) (t id : Nat) : Bool :=
  (ch.core (tCore t)).sb.any (fun e => e.task = t && e.id < id) ||
    (ch.task t).ops.any (fun o => (o.kind = .store || o.kind = .push) && o.inst = 0 && o.id < id)

/-- A FLAGS bit of a compartment's record as the table holds it. -/
def Chip.recFlag (ch : Chip) (id bit : Nat) : Bool := tb (ch.ram.visLe (ch.recAddr id + 124) 4) bit

/-- The compartment is paused or being moved: none of its events is dispatched (R247), and its task issues nothing (R251). -/
def Chip.resting (ch : Chip) (id : Nat) : Bool := ch.recFlag id fPaused || ch.recFlag id fMoving

/-- The event count of a task has reached its compartment's BUDGET (R260). -/
def Chip.overBudget (ch : Chip) (t id : Nat) : Bool :=
  let b := ch.ram.visLe (ch.recAddr id + 116) 4
  decide (b ≠ 0) && decide (b ≤ (ch.task t).evcount)

/-- The task is to be unbound or killed (R251, R260): it issues nothing further. -/
def Chip.leaving (ch : Chip) (t : Nat) : Bool :=
  match (ch.task t).bound with
  | none => false
  | some id => ch.resting id || (ch.core (tCore t)).drained || ch.overBudget t id

/-- A GCALL or GRET of the task has issued and waits (R97, R234). -/
def Task.inGate (x : Task) : Bool :=
  x.wait ≠ .none && (match x.fq with
    | w :: _ => decide (rowOf w.2.toNat = .gcall) || decide (rowOf w.2.toNat = .gret)
    | [] => false)

/-- The task is not at a boundary at which an event is taken: it stands between the two instructions of a pair (R168), before the
first instruction of an exception handler (R193), within a gate instruction (R234), or its instruction has an access under way
in the other half (R105, R192). -/
def Task.busy (x : Task) : Bool := x.pairOpen || x.fresh || x.inGate || x.ops.any (fun o => o.inst = 1 && !o.drop)

/-- A task could issue if it held the slot (R255). -/
def Chip.ready (ch : Chip) (t : Nat) : Bool :=
  let x := ch.task t
  (x.bound.isSome || (coreSvc (tCore t) && x.pcc ≠ Cap.null)) && !x.halted && !x.dead &&
    (x.busy || !ch.leaving t) &&
    (match x.wait with
     | .none => true
     | .sync m => !ch.awaits t m
     | _ => false)

/-- The task stands where no event is taken (R168, R192, R193, R234), or an access of its block repeat is under way in the other
half, at whose end the repeat stops (R146). -/
def Chip.midPair (ch : Chip) (t : Nat) : Bool := (ch.task t).busy || (ch.task t).ops.any (fun o => o.inst = 2 && !o.drop)

/-- Another task of the core is ready. -/
def Chip.otherReady (ch : Chip) (t : Nat) : Bool :=
  ch.tasks.any (fun e => tCore e.1 = tCore t && e.1 ≠ t && ch.ready e.1)

/-- R173, R257: an instruction stalls. Cycles that no other task can use are charged; how many is not fixed (log 2). -/
def Chip.stallFor (v : Vig) (ch : Chip) (t : Nat) : Chip :=
  let ch := ch.flushMaybe t
  if ch.otherReady t then ch
  else ({ ch with free := ch.free + 1 }).charge v t (Config.freeNat ch.free)

/-- The occasion of an instruction row: the task holds its core's issue slot, may issue, and the word is the next of its
fetch queue (or the fetch at PCC faults). -/
def Chip.mayIssue (ch : Chip) (t : Nat) (step : Bool) (w : IWord) (w2 : Option IWord) : Bool :=
  let x := ch.task t
  let k := ch.core (tCore t)
  !k.inReset && !k.failed && !x.dead && tNum t < ch.tcount (tCore t) &&
    (x.bound.isSome || (coreSvc (tCore t) && x.pcc ≠ Cap.null)) &&
    (if step then x.halted else !x.halted && k.holder = some (tNum t) && (x.busy || !ch.leaving t)) &&
    (match x.wait with
     | .none => true
     | .sync m => !ch.awaits t m
     | _ => false) &&
    ((fetchCheck x.pcc).isSome || (x.fq = [] && x.ffault.isSome) ||
      (match x.fq with
       | a :: r => a = (x.pcc.addr, w) && (wMaj w.toNat ≠ 0x34 || (match r, w2 with
           | b :: _, some u => b.2 = u
           | [], _ => (x.secondFault w.toNat).isSome
           | _, _ => false))
       | [] => false))

/-- An instruction that has passed the checks before its body: the chip as it was, the chip for the body, whether it issues
again after a wait, whether it is the second of a pair, and whether it opens one. -/
structure Issue where
  ch0 : Chip
  ch : Chip
  again : Bool
  second : Bool
  opens : Bool

/-- The issue cycle is paid for (R257): once for an instruction that waits, and by the first of a pair. The cycle in which an
instruction takes an exception counts as one (log 97). -/
def Issue.pay (i : Issue) (v : Vig) (t : Nat) (c : Chip) : Chip :=
  let c := c.updTask t (fun x => { x with pairOpen := i.opens })
  if i.again ∨ i.second then c
  else (c.updCore (tCore t) (fun k => { k with cyc := k.cyc - 1 })).chargeTo v t (i.ch.task t).tenant 1

/-- The length of an instruction in bytes. -/
def insnLen (w : Nat) : Nat := if wMaj w = 0x34 then 8 else 4

/-- A fetch fault is taken: where it wants an access bit, the trap has the effects of R298 and R299. -/
def Chip.fetchTrap (v : Vig) (ch : Chip) (t : Nat) (f : Flt) : Chip :=
  let x := ch.task t
  let leaf := match (ch.walkFor v (tClu t) none x.comp x.tenant f.fdata 4).2 with
    | .bad _ a => a
    | .ok _ _ _ => 0
  ch.adTrap t ⟨f, leaf, f.fdata, false⟩

/-- The checks of an instruction before its body, in the common order (R160, R161): it ends here, or its body follows. `step`
is a Taper STEP of a halted task (R541). Two causes that R161 does not place stand here by choice (log 108): an instruction
breakpoint (R544) comes after the fetch faults and before RESERVED_INSN, and MEM_UE of a poisoned register-store entry (R466)
after WINDOW_DEPTH and before the checks of the instruction's body. -/
def Chip.issueChecks (v : Vig) (ch : Chip) (t : Nat) (w : IWord) (w2 : Option IWord) (row : Row) (step : Bool) : Chip ⊕ Issue :=
  let wn := w.toNat
  let un := (w2.map (·.toNat)).getD 0
  if !ch.mayIssue t step w w2 ∨ rowOf wn ≠ row then .inl ch
  else
    let again := (ch.task t).wait ≠ .none
    let second := (ch.task t).pairOpen && !step
    let ch0 := ch
    let ch := if again ∨ second then ch else ch.updCore (tCore t) (fun c => { c with cyc := c.cyc + 1 })
    let ch := (ch.settle t).loopNote t
    let x := ch.task t
    let i : Issue := ⟨ch0, ch, again, second, !second && !again && !step && x.opensPair wn⟩
    let paid := i.pay v t ch
    let fc := fetchCheck x.pcc
    match fc, (if x.fq = [] then x.ffault else none), x.secondFault wn with
    | some code, none, _ => .inl (paid.preciseExc v t code 0 0 x.pcc.addr)
    | _, some f, _ => .inl ((paid.fetchTrap v t f).preciseExc v t f.code f.stage f.level f.fdata)
    | none, none, some f =>
      .inl ((paid.fetchTrap v t f).takeExc v t ⟨f.code, x.priv, false, f.stage, f.level, false, f.fdata, f.fdata, movePcc x.pcc f.fdata⟩)
    | none, none, none =>
      match (if step ∨ x.noBp then none else ch.ibpMatch v t) with
      | some 0 => .inl (ch0.haltTask t 3)
      | some _ => .inl (paid.preciseExc v t 0x08 0 0 0)
      | none =>
        if reservedInsn x.tw wn un || ch.maskReserved t wn then .inl (paid.preciseExc v t 0x01 0 0 0)
        else if !selected x wn then .inl (paid.retire v t x.tenant wn (insnLen wn) none)
        else if !privOk x wn then .inl (paid.preciseExc v t 0x02 0 0 0)
        else if ch.depthFault t wn un then .inl (paid.preciseExc v t 0x03 0 0 0)
        else if ch.readsBad t wn un then .inl (paid.preciseExc v t 0x30 0 0 0)
        else .inr i

/-- A LOOP that skipped its body to an address that is not a representable cursor: the fetch fails its bounds check there
(R61, R136, R137). -/
def Chip.skipTo (ch : Chip) (t w : Nat) (pcc : Cap) : Chip :=
  if wMaj w = 0x33 ∧ !pcc.tag ∧ (ch.task t).pcc = pcc then
    ch.updTask t (fun x => { x with ffault := some ⟨0x14, 0, 0, pcc.addr⟩ }) else ch

/-- What follows an instruction's body. -/
def Issue.finish (i : Issue) (v : Vig) (t w : Nat) (r : Res) : Chip :=
  let ten := (i.ch.task t).tenant
  let seq := (i.ch.core (tCore t)).seq
  match r with
  | .ok c => (i.pay v t c).retire v t ten w (insnLen w) (if (c.core (tCore t)).seq = seq then none else some seq)
  | .jump c pcc lost => ((i.pay v t c).transfer v t ten pcc lost).skipTo t w pcc
  | .flt c f => (i.pay v t c).preciseExc v t f.code f.stage f.level f.fdata
  | .report c f multi precise =>
    let xp := c.task t
    let pcc := if precise then movePcc xp.pcc f.faddr else xp.pcc
    (i.pay v t c).takeExc v t ⟨f.code, f.fpriv, !precise, f.stage, f.level, multi, f.faddr, f.fdata, pcc⟩
  | .stall c => c.stallFor v t
  | .wait c wt =>
    if wt = .vctx then c.updTask t (fun x => { x with wait := wt })
    else if i.again then c.updTask t (fun x => { x with wait := wt })
    else ((i.pay v t c).updTask t (fun x => { x with wait := wt, fresh := false, pairOpen := i.second }))
  | .halt _ causes => i.ch0.haltTask t causes
  | .part c => (i.pay v t c).updTask t (fun x => { x with pairOpen := false, noBp := false, fresh := false })
  | .none => i.ch0

/-- The body of an instruction: what it answers, and the Vigil island as its accesses leave it. -/
abbrev Body := Vig → Chip → Nat → Nat → Vig × Res

/-- Issue one instruction of a task (R160, R161, R163). -/
def Chip.issue (v : Vig) (ch : Chip) (t : Nat) (w : IWord) (w2 : Option IWord) (row : Row) (step : Bool) (body : Body) :
    Vig × Chip :=
  match ch.issueChecks v t w w2 row step with
  | .inl c => (v, c)
  | .inr i =>
    let r := body v i.ch t w.toNat
    (r.1, i.finish v t w.toNat r.2)

/-- A stepped task has issued its one instruction (R541): `old` is the task before. It halts where the session has rights over
it, and otherwise at the next boundary at which it has. -/
def Chip.stepDone (v : Vig) (ch : Chip) (t : Nat) (old : Task) : Chip :=
  let x := ch.task t
  if !x.halted ∨ !x.stepping ∨ x.wait ≠ .none ∨ x.dead then ch
  else if x.noBp ∧ x.pcc = old.pcc ∧ x.tw = old.tw then ch
  else if v.rights x then ch.haltTask t 32
  else ch.updTask t (fun x => { x with halted := false, haltReq := true })

/-- An instruction row's event: a halt that is due comes first (R538), but for a task that stands where no event is taken; and a
halted task issues only under STEP (R541). -/
def Chip.issueBody (v : Vig) (ch : Chip) (t : Nat) (w : IWord) (w2 : Option IWord) (row : Row) (body : Body) : Vig × Chip :=
  let x := ch.task t
  if x.haltReq && v.rights x && !x.busy then (v, ch)
  else if x.halted && x.stepping then
    let r := ch.issue v t w w2 row true body
    (r.1, r.2.stepDone v t x)
  else ch.issue v t w w2 row false body

/-- An instruction row's event, for a body that leaves the Vigil island as it is. -/
def Chip.issueRow (v : Vig) (ch : Chip) (t : Nat) (w : IWord) (w2 : Option IWord) (row : Row)
    (body : Vig → Chip → Nat → Nat → Res) : Chip :=
  (ch.issueBody v t w w2 row (fun v c t n => (v, body v c t n))).2

/-- The addresses of the instructions whose words a fetch queue holds; a REP pair is one instruction, at its prefix (R140). -/
def queueStarts : List (Nat × IWord) → List Nat
  | [] => []
  | [p] => [p.1]
  | p :: q :: r => if wMaj p.2.toNat = 0x34 then p.1 :: queueStarts r else p.1 :: queueStarts (q :: r)

/-- A fetch queue ends with a REP prefix whose operation word is still to come (R141). -/
def queueOpen : List (Nat × IWord) → Bool
  | [] => false
  | [p] => wMaj p.2.toNat = 0x34
  | p :: q :: r => if wMaj p.2.toNat = 0x34 then queueOpen r else queueOpen (q :: r)

/-- The address of the next word to fetch (R163): sequential, and from LE to LS while the words in the queue stand for the ends
of an active loop (R138, R140). -/
def Task.nextFetch (x : Task) : Nat :=
  match x.fq.getLast? with
  | none => x.pcc.addr
  | some w =>
    let le := x.le.toNat
    let at_ := queueStarts x.fq
    if !queueOpen x.fq && at_.getLast? = some le && at_.count le < x.lc.toNat then x.ls.toNat else (w.1 + 4) % 2 ^ 64

/-- A fault of the next fetch concerns the word that issues next: the queue is empty, or holds a lone REP prefix (R136, R163). -/
def Task.fetchNow (x : Task) : Bool := x.fq.isEmpty || (x.fq.length = 1 && queueOpen x.fq)

end Sys2Proof.Machine
end

