-- ==== Sys2Proof/Machine/State.lean ====
section
/-! DEFINITION. The state of the block, its reset, and the reasons a step can stop. -/

namespace Sys2Proof.Machine

/-- The block: the Vigil island, everything else, and the commands that wait, first in first out. -/
structure State where
  vig : Vig
  chip : Chip
  pending : List Instr
deriving DecidableEq, Repr

/-- Why a command stops the machine. No meaning raises one. -/
inductive Fault where
  /-- Raised by no meaning (safe): every command has a next state. -/
  | never
deriving DecidableEq, Repr

/-- Why a command has no meaning. -/
inductive Refusal where
  /-- Raised by an arm of `exec` whose row has no meaning yet (safe): the row's mnemonic. -/
  | notModelled (mnemonic : String)
deriving DecidableEq, Repr

/-- The state right after power-on reset is asserted: registers at their reset values, every memory empty. -/
def State.reset : State := { vig := Vig.reset, chip := Chip.reset, pending := [] }

end Sys2Proof.Machine
end

