-- ==== Sys2Proof/Machine/Lift.lean ====
section
/-! DEFINITION. How a meaning over a part of the state becomes a meaning over the whole: the queue and the other part
stay as they are. -/

namespace Sys2Proof.Machine

/-- The outcome type of a command. -/
abbrev Out := Host.Outcome State Fault Refusal

/-- A command that changes only what lies outside the Vigil island. -/
def chipStep (f : Vig → Chip → Chip) (s : State) : Out := .next { s with chip := f s.vig s.chip }

/-- A command that changes only the Vigil island. -/
def vigStep (f : Chip → Vig → Vig) (s : State) : Out := .next { s with vig := f s.chip s.vig }

/-- A command that changes both. -/
def bothStep (f : Vig → Chip → Vig × Chip) (s : State) : Out :=
  .next { s with vig := (f s.vig s.chip).1, chip := (f s.vig s.chip).2 }

/-- An instruction issued by a task. -/
def insn (t : Nat) (w : IWord) (row : Row) (body : Vig → Chip → Nat → Nat → Res) (s : State) : Out :=
  chipStep (fun v ch => ch.issueRow v t w none row body) s

/-- An instruction issued by a task whose accesses may reach a control block at once. -/
def insnBoth (t : Nat) (w : IWord) (row : Row) (body : Body) (s : State) : Out :=
  bothStep (fun v ch => ch.issueBody v t w none row body) s

end Sys2Proof.Machine
end

