-- ==== Sys2Proof/Machine/Alu.lean ====
section
/-! DEFINITION. The scalar integer, compare, predicate and bit instructions (R120 to R126). -/

namespace Sys2Proof.Machine

/-- R120, R121 on 64 bits. -/
def alu64 (m : Nat) (a b : Word) : Word :=
  let n := b.toNat % 64
  match m with
  | 0 => a + b
  | 1 => a - b
  | 2 => a &&& b
  | 3 => a ||| b
  | 4 => a ^^^ b
  | 5 => a &&& ~~~b
  | 6 => a <<< n
  | 7 => a >>> n
  | 8 => a.sshiftRight n
  | 9 => if a.slt b then a else b
  | 10 => if a.slt b then b else a
  | 11 => if a.ult b then a else b
  | 12 => if a.ult b then b else a
  | _ => a.rotateRight n

/-- R120, R121 on 32 bits. -/
def alu32 (m : Nat) (a b : BitVec 32) : BitVec 32 :=
  let n := b.toNat % 32
  match m with
  | 0 => a + b
  | 1 => a - b
  | 6 => a <<< n
  | 7 => a >>> n
  | _ => a.sshiftRight n

/-- The result of an ALU word (R120). -/
def aluResult (w : Nat) (a b : Word) : Word :=
  if wMaj w = 0x02 then (alu32 (wMin w) (a.truncate 32) (b.truncate 32)).signExtend 64 else alu64 (wMin w) a b

/-- A 64-bit register operand (R118). -/
def Chip.rdW (ch : Chip) (t f : Nat) : Word := BitVec.ofNat 64 (ch.rdInt t f)

/-- Write an integer result with latency 1 and complete. -/
def wrOk (ch : Chip) (t f : Nat) (r : Word) : Res := .ok (ch.wrInt t f r.toNat)

/-- ALU_OP (R120). -/
def bodyAluOp (_v : Vig) (ch : Chip) (t w : Nat) : Res :=
  wrOk ch t (wA w) (aluResult w (ch.rdW t (wB w)) (ch.rdW t (wC w)))

/-- The result of an immediate form (R122). -/
def aluImmResult (w : Nat) (a : Word) : Word :=
  let i := w64 (wSimm10 w)
  match wMaj w with
  | 0x08 => a + i
  | 0x09 => a &&& i
  | 0x0A => a ||| i
  | _ => a ^^^ i

/-- ALU_IMMEDIATE (R122). -/
def bodyAluImm (_v : Vig) (ch : Chip) (t w : Nat) : Res := wrOk ch t (wA w) (aluImmResult w (ch.rdW t (wB w)))

/-- The result of a shift immediate (R122). -/
def shiftImmResult (w : Nat) (a : Word) : Word :=
  let n := bf w 0 6
  match bf w 8 2 with
  | 0 => a <<< n
  | 1 => a >>> n
  | 2 => a.sshiftRight n
  | _ => a.rotateRight n

/-- SHIFT_IMMEDIATE (R122). -/
def bodyShiftImm (_v : Vig) (ch : Chip) (t w : Nat) : Res := wrOk ch t (wA w) (shiftImmResult w (ch.rdW t (wB w)))

/-- MOVI (R122). -/
def bodyMovi (_v : Vig) (ch : Chip) (t w : Nat) : Res := wrOk ch t (wA w) (w64 (sInt 16 (wImm16 w)))

/-- MOVSH (R122). -/
def bodyMovsh (_v : Vig) (ch : Chip) (t w : Nat) : Res :=
  wrOk ch t (wA w) (((ch.rdW t (wA w)) <<< 16) ||| BitVec.ofNat 64 (wImm16 w))

/-- The 128-bit product, signed for minor 0 (R123). -/
def mulResult (m : Nat) (a b : Word) : Quad :=
  if m = 0 then BitVec.ofInt 128 (a.toInt * b.toInt) else BitVec.ofNat 128 (a.toNat * b.toNat)

/-- MUL, MULU (R123, R170: latency 3). -/
def bodyMul (_v : Vig) (ch : Chip) (t w : Nat) : Res :=
  .ok (ch.later t 3 .mhml ⟨false, mulResult (wMin w) (ch.rdW t (wB w)) (ch.rdW t (wC w))⟩)

/-- The result of a divide (R123). -/
def divResult (m : Nat) (a b : Word) : Word :=
  if b = 0 then if m = 2 ∨ m = 3 then BitVec.allOnes 64 else a
  else
    match m with
    | 2 => a.sdiv b
    | 3 => a.udiv b
    | 4 => a.srem b
    | _ => a.umod b

/-- The duration of a divide (R182). -/
def divCycles (m : Nat) (a : Word) : Nat :=
  let n := sigBits 64 (if m = 3 ∨ m = 5 then a.toNat else a.toInt.natAbs)
  12 + 7 * n / 16

/-- The outstanding long operations of a core (R176). -/
def Chip.coreOps (ch : Chip) (k : Nat) : Nat :=
  (ch.tasks.filter (fun e => tCore e.1 = k)).foldl (fun n e => n + (e.2.ops.filter (fun o => o.inst = 0)).length) 0 +
    ((ch.core k).sb.filter (fun e => !e.checked)).length

/-- A limit of R176 is reached; accesses of a block repeat do not count. -/
def Chip.opsFull (ch : Chip) (t : Nat) : Bool :=
  ((ch.task t).ops.filter (fun o => o.inst = 0)).length + ch.sbOps t ≥ 8 || ch.coreOps (tCore t) ≥ 32

/-- A long operation with every field at a plain value, as task `t` issues it now. -/
def Chip.newOp (v : Vig) (ch : Chip) (t : Nat) (kind : OpKind) (cls : Nat) : LongOp :=
  let x := ch.task t
  { id := (ch.core (tCore t)).seq, kind := kind, cls := cls, addr := x.pcc.addr, va := 0, pieces := [], size := 0, dst := 0
    sext := false, capw := false, colour := 0, loadCap := false, fpriv := x.priv, tw := x.tw, fn := 0, a := Cap.null
    b := Cap.null, cap := Cap.null, data := [], n := 0, tenant := x.tenant, comp := x.comp, drop := false, due := 0
    remote := false, resp := none, adWait := none, started := v.clk, inst := 0, pass := 0, ord := 0, bad := none }

/-- Issue a long operation of a task (R174). -/
def Chip.addOp (ch : Chip) (t : Nat) (o : LongOp) : Chip :=
  (ch.updTask t (fun x => { x with ops := x.ops ++ [o] })).updCore (tCore t)
    (fun k => { k with seq := k.seq + 1, passes := k.passes + 1 })

/-- DIV, DIVU, REM, REMU (R123, R182): one divide per core is in progress at a time, a second waits for it. -/
def bodyDiv (v : Vig) (ch : Chip) (t w : Nat) : Res :=
  if ch.opsFull t then .stall ch
  else
    let k := ch.core (tCore t)
    let a := ch.rdW t (wB w)
    let due := max k.cyc k.divDue + divCycles (wMin w) a
    let o := { ch.newOp v t .div 2 with
      dst := (ch.entry t (wA w)).getD 0, fn := wMin w, a := Cap.ofNat a.toNat, b := ch.rdReg t (wC w), due := due }
    .ok ((ch.addOp t o).updCore (tCore t) (fun k => { k with divDue := due }))

/-- Write a predicate of a task and complete (R124). -/
def predOk (ch : Chip) (t p : Nat) (b : Bool) : Res := .ok (ch.updTask t (fun x => x.setPred p b))

/-- Compare to predicate (R124, MAJ 0x05). -/
def bodyCompare (_v : Vig) (ch : Chip) (t w : Nat) : Res :=
  let a := ch.rdReg t (wB w)
  let b := ch.rdReg t (wC w)
  predOk ch t (wPd w) (if wMin w = 7 then a == b else relation (wMin w) a.addr b.addr)

/-- CMPI (R124). -/
def bodyCmpi (_v : Vig) (ch : Chip) (t w : Nat) : Res :=
  predOk ch t (wPd w) (relation (bf w 16 3) (ch.rdInt t (wB w)) (w64 (wSimm10 w)).toNat)

/-- Predicate logic (R124, MAJ 0x06). -/
def bodyPredLogic (_v : Vig) (ch : Chip) (t w : Nat) : Res :=
  let x := ch.task t
  predOk ch t (wPd w) (predLogic (wMin w) (x.pred (bf w 13 3)) (x.pred (bf w 7 3)))

/-- The result of a unary bit operation (R125). -/
def unaryResult (m a : Nat) : Nat :=
  match m with
  | 0 => 64 - sigBits 64 a
  | 1 => trailZeros 64 a
  | 2 => popCount 64 a
  | 3 => popCount 64 a % 2
  | 4 => revBits 64 a
  | 5 => leNat ((leBytes 8 a).map (fun b => BitVec.ofNat 8 (revBits 8 b.toNat)))
  | 6 => beNat (leBytes 2 a)
  | 7 => beNat (leBytes 4 a)
  | 8 => beNat (leBytes 8 a)
  | 9 => sExt 8 64 a
  | 10 => sExt 16 64 a
  | 11 => sExt 32 64 a
  | 12 => a % 2 ^ 8
  | 13 => a % 2 ^ 16
  | _ => a % 2 ^ 32

/-- Unary bit operations (R125). -/
def bodyUnary (_v : Vig) (ch : Chip) (t w : Nat) : Res :=
  .ok (ch.wrInt t (wA w) (unaryResult (wMin w) (ch.rdInt t (wB w))))

/-- One bit of crcp (R126). -/
def crcBit (refl : Bool) (w poly acc bit : Nat) : Nat :=
  if refl then
    let fb := (acc % 2 + bit) % 2
    (acc / 2) ^^^ (if fb = 1 then poly else 0)
  else
    let fb := (bf acc (w - 1) 1 + bit) % 2
    ((acc * 2) % 2 ^ w) ^^^ (if fb = 1 then poly else 0)

/-- crcp over `n` bytes of `data` (R126): width, polynomial and reflection given. -/
def crcp (refl : Bool) (w poly acc data n : Nat) : Nat :=
  (List.range (8 * n)).foldl (fun acc i =>
    let byte := bf data (8 * (i / 8)) 8
    crcBit refl w (poly % 2 ^ w) acc (if refl then bf byte (i % 8) 1 else bf byte (7 - i % 8) 1)) (acc % 2 ^ w)

/-- A CRC step under CRC32C settings, or under CRCPOLY (R110, R126). -/
def crcStep (own : Bool) (crcpoly acc data n : Nat) : Nat :=
  if own then crcp (tb crcpoly 37) (bf crcpoly 32 5 + 1) (bf crcpoly 0 32) acc data n
  else crcp true 32 0x82F63B78 acc data n

/-- CRC_STEP (R126, R170: latency 2). -/
def bodyCrc (_v : Vig) (ch : Chip) (t w : Nat) : Res :=
  let m := wMin w
  let r := crcStep (m ≥ 4) (ch.task t).crcpoly.toNat (ch.rdInt t (wB w)) (ch.rdInt t (wC w)) (2 ^ (m % 4))
  .ok (ch.laterReg t (wA w) 2 (Cap.ofNat r))

/-- ALU_OP. -/
def execAluOp (t : Nat) (w : IWord) (s : State) : Out := insn t w .aluOp bodyAluOp s
/-- ALU_IMMEDIATE. -/
def execAluImmediate (t : Nat) (w : IWord) (s : State) : Out := insn t w .aluImm bodyAluImm s
/-- SHIFT_IMMEDIATE. -/
def execShiftImmediate (t : Nat) (w : IWord) (s : State) : Out := insn t w .shiftImm bodyShiftImm s
/-- MOVI. -/
def execMovi (t : Nat) (w : IWord) (s : State) : Out := insn t w .movi bodyMovi s
/-- MOVSH. -/
def execMovsh (t : Nat) (w : IWord) (s : State) : Out := insn t w .movsh bodyMovsh s
/-- MUL. -/
def execMul (t : Nat) (w : IWord) (s : State) : Out := insn t w .mul bodyMul s
/-- DIV. -/
def execDiv (t : Nat) (w : IWord) (s : State) : Out := insn t w .div bodyDiv s
/-- COMPARE. -/
def execCompare (t : Nat) (w : IWord) (s : State) : Out := insn t w .compare bodyCompare s
/-- CMPI. -/
def execCmpi (t : Nat) (w : IWord) (s : State) : Out := insn t w .cmpi bodyCmpi s
/-- PREDICATE_LOGIC. -/
def execPredicateLogic (t : Nat) (w : IWord) (s : State) : Out := insn t w .predLogic bodyPredLogic s
/-- UNARY_BIT_OP. -/
def execUnaryBitOp (t : Nat) (w : IWord) (s : State) : Out := insn t w .unary bodyUnary s
/-- CRC_STEP. -/
def execCrcStep (t : Nat) (w : IWord) (s : State) : Out := insn t w .crc bodyCrc s

end Sys2Proof.Machine
end

