-- ==== Sys2Proof/Machine/CapInsn.lean ====
section
/-! DEFINITION. Capability derivation and inspection (R127 to R129); CPAINT stands with the block repeats. -/

namespace Sys2Proof.Machine

/-- A derivation of rs1 and rs2 written to rd with a latency. -/
def capOk (ch : Chip) (t w l : Nat) (f : Cap → Cap → Cap) : Res :=
  .ok (ch.laterReg t (wA w) l (f (ch.rdReg t (wB w)) (ch.rdReg t (wC w))))

/-- CPOS (R127). -/
def bodyCpos (_v : Vig) (ch : Chip) (t w : Nat) : Res := capOk ch t w 1 (fun a b => cpos a b.addr)
/-- CADV (R127). -/
def bodyCadv (_v : Vig) (ch : Chip) (t w : Nat) : Res := capOk ch t w 1 (fun a b => cadv a b.addr)
/-- CCUT (R127). -/
def bodyCcut (_v : Vig) (ch : Chip) (t w : Nat) : Res := capOk ch t w 2 (fun a b => ccut a b.addr)
/-- CFIT (R127). -/
def bodyCfit (_v : Vig) (ch : Chip) (t w : Nat) : Res := capOk ch t w 2 (fun a b => cfit a b.addr)
/-- CDROP (R127): rs2 bits 15:0. -/
def bodyCdrop (_v : Vig) (ch : Chip) (t w : Nat) : Res := capOk ch t w 1 (fun a b => cdrop a (b.addr % 2 ^ 16))
/-- CTINT (R127): rs2 bits 3:0. -/
def bodyCtint (_v : Vig) (ch : Chip) (t w : Nat) : Res := capOk ch t w 1 (fun a b => ctint a (b.addr % 16))
/-- CWRAP (R58). -/
def bodyCwrap (_v : Vig) (ch : Chip) (t w : Nat) : Res := capOk ch t w 1 cwrap
/-- CUNWRAP (R58). -/
def bodyCunwrap (_v : Vig) (ch : Chip) (t w : Nat) : Res := capOk ch t w 1 cunwrap
/-- CGATE (R59). -/
def bodyCgate (_v : Vig) (ch : Chip) (t w : Nat) : Res := capOk ch t w 1 (fun a _ => cgate a)
/-- CCOPY (R55). -/
def bodyCcopy (_v : Vig) (ch : Chip) (t w : Nat) : Res := capOk ch t w 1 (fun a _ => a)

/-- CROUND of a length (R53, R127): saturated at 2^64 - 1. -/
def cround (n : Nat) : Nat := let r := encodeBounds 0 n; min (r.top - r.base) (2 ^ 64 - 1)
/-- CAMASK of a length (R53, R127). -/
def camask (n : Nat) : Nat := if n = 0 then 2 ^ 64 - 1 else 2 ^ 64 - 2 ^ (encodeBounds 0 n).e

/-- CROUND (R127). -/
def bodyCround (_v : Vig) (ch : Chip) (t w : Nat) : Res := capOk ch t w 2 (fun a _ => Cap.ofNat (cround a.addr))
/-- CAMASK (R127). -/
def bodyCamask (_v : Vig) (ch : Chip) (t w : Nat) : Res := capOk ch t w 2 (fun a _ => Cap.ofNat (camask a.addr))
/-- CDIFF (R127). -/
def bodyCdiff (_v : Vig) (ch : Chip) (t w : Nat) : Res :=
  capOk ch t w 1 (fun a b => Cap.ofNat (a.addr + 2 ^ 64 - b.addr))

/-- What an inspection returns (R128). -/
def inspect (m : Nat) (c : Cap) : Nat :=
  match m with
  | 0 => c.base
  | 1 => min c.top (2 ^ 64 - 1)
  | 2 => min (c.top - c.base) (2 ^ 64 - 1)
  | 3 => c.perm
  | 4 => c.otype
  | 5 => b2n c.tag
  | 6 => c.colour
  | 7 => c.epoch
  | 8 => c.addr
  | _ => bf c.bits.toNat 64 64

/-- CAP_INSPECT (R128). -/
def bodyInspect (_v : Vig) (ch : Chip) (t w : Nat) : Res :=
  capOk ch t w 1 (fun a _ => Cap.ofNat (inspect (wMin w) a))

/-- CADVI (R129). -/
def bodyCadvi (_v : Vig) (ch : Chip) (t w : Nat) : Res :=
  capOk ch t w 1 (fun a _ => cadv a (w64 (wSimm10 w)).toNat)
/-- CCUTI (R129): the length is zero-extended. -/
def bodyCcuti (_v : Vig) (ch : Chip) (t w : Nat) : Res := capOk ch t w 2 (fun a _ => ccut a (wImm10 w))
/-- CPCREL (R129): cadv of PCC, whose cursor is at the instruction. -/
def bodyCpcrel (_v : Vig) (ch : Chip) (t w : Nat) : Res :=
  .ok (ch.wrReg t (wA w) (cadv (ch.task t).pcc (w64 (4 * sInt 16 (wImm16 w))).toNat))

/-- CPOS. -/
def execCpos (t : Nat) (w : IWord) (s : State) : Out := insn t w .cpos bodyCpos s
/-- CADV. -/
def execCadv (t : Nat) (w : IWord) (s : State) : Out := insn t w .cadv bodyCadv s
/-- CCUT. -/
def execCcut (t : Nat) (w : IWord) (s : State) : Out := insn t w .ccut bodyCcut s
/-- CFIT. -/
def execCfit (t : Nat) (w : IWord) (s : State) : Out := insn t w .cfit bodyCfit s
/-- CDROP. -/
def execCdrop (t : Nat) (w : IWord) (s : State) : Out := insn t w .cdrop bodyCdrop s
/-- CTINT. -/
def execCtint (t : Nat) (w : IWord) (s : State) : Out := insn t w .ctint bodyCtint s
/-- CWRAP. -/
def execCwrap (t : Nat) (w : IWord) (s : State) : Out := insn t w .cwrap bodyCwrap s
/-- CUNWRAP. -/
def execCunwrap (t : Nat) (w : IWord) (s : State) : Out := insn t w .cunwrap bodyCunwrap s
/-- CGATE. -/
def execCgate (t : Nat) (w : IWord) (s : State) : Out := insn t w .cgate bodyCgate s
/-- CCOPY. -/
def execCcopy (t : Nat) (w : IWord) (s : State) : Out := insn t w .ccopy bodyCcopy s
/-- CROUND. -/
def execCround (t : Nat) (w : IWord) (s : State) : Out := insn t w .cround bodyCround s
/-- CAMASK. -/
def execCamask (t : Nat) (w : IWord) (s : State) : Out := insn t w .camask bodyCamask s
/-- CDIFF. -/
def execCdiff (t : Nat) (w : IWord) (s : State) : Out := insn t w .cdiff bodyCdiff s
/-- CAP_INSPECT. -/
def execCapInspect (t : Nat) (w : IWord) (s : State) : Out := insn t w .capInspect bodyInspect s
/-- CADVI. -/
def execCadvi (t : Nat) (w : IWord) (s : State) : Out := insn t w .cadvi bodyCadvi s
/-- CCUTI. -/
def execCcuti (t : Nat) (w : IWord) (s : State) : Out := insn t w .ccuti bodyCcuti s
/-- CPCREL. -/
def execCpcrel (t : Nat) (w : IWord) (s : State) : Out := insn t w .cpcrel bodyCpcrel s

end Sys2Proof.Machine
end

