-- ==== Sys2Proof/Machine/MirOps.lean ====
section
/-! DEFINITION. Sending on a mirror link (R400, R401) and when items are mirrored (R403). -/

namespace Sys2Proof.Machine

/-- The cells of a message (R400): 56 payload bytes each. -/
def mirCells (chn : Nat) (unseq : Bool) (b : List Byte) : List MCell :=
  let n := max 1 ((b.length + 55) / 56)
  (List.range n).map (fun i => ⟨chn, i = 0, i + 1 = n, unseq, sliceB b (56 * i) 56⟩)

/-- Put a message on a channel of half `h`'s mirror link (R401). -/
def Chip.mirSend (ch : Chip) (h chn : Nat) (b : List Byte) (unseq : Bool := false) : Chip :=
  ch.updMir h (fun l => { l with txq := mSet l.txq chn (mGet l.txq chn [] ++ mirCells chn unseq b) })

/-- Put a message on a channel of every link that is up. -/
def Chip.mirSendAll (ch : Chip) (chn : Nat) (b : List Byte) (unseq : Bool := false) : Chip :=
  let go := fun (c : Chip) (h : Nat) => if (tGet c.mir h).up then c.mirSend h chn b unseq else c
  go (go ch 0) 1

/-- Mirroring runs from this device (R403, R409, R414): ACTIVE, or ACTIVE_SOLO from step 2 of a resynchronisation onward, whose peer is in
RESYNC or already in STANDBY. -/
def Vig.mirrors (v : Vig) : Bool :=
  v.pair.role = 1 || (v.pair.role = 2 && (v.pair.peerRole = 4 || v.pair.peerRole = 3) && v.pair.step ≥ 2)

/-- The TAKEOVER ball (R397, R404, R408): high in ACTIVE and ACTIVE_SOLO. -/
def Vig.takeoverBall (v : Vig) : Bool := v.pair.role = 1 || v.pair.role = 2

/-- The device forwards frames (R397). -/
def Vig.forwards (v : Vig) : Bool := v.pair.role ≤ 2

/-- Put a line in the mirror queue (R409): a line queued after the last marker is updated in place; none when the queue
holds 4,096 lines. -/
def mirPut (q : List MirLine) (l : MirLine) : Option (List MirLine) :=
  let tail := (q.reverse.takeWhile (fun e => !e.marker)).reverse
  let head := q.take (q.length - tail.length)
  if tail.any (fun e => e.line = l.line) then some (head ++ tail.map (fun e => if e.line = l.line then l else e))
  else if (q.filter (fun e => !e.marker)).length ≥ 4096 then none
  else some (q ++ [l])

/-- The message of a mirrored line (R409). -/
def lineMsg (l : MirLine) : List Byte :=
  leBytes 2 l.tenant ++ leBytes 2 l.comp ++ leBytes 4 0 ++ leBytes 8 l.vline ++ [BitVec.ofNat 8 l.colour] ++ leBytes 31 0 ++
    sliceB l.data 0 64

/-- The message of a flow-table commit (R403): entry index, 1 written or 0 removed, the entry's 64 bytes. -/
def commitMsg (index : Nat) (valid : Bool) (e : List Byte) : List Byte :=
  leBytes 4 index ++ leBytes 4 (b2n valid) ++ sliceB e 0 64 ++ leBytes 40 0

end Sys2Proof.Machine
end

