-- ==== Sys2Proof/Machine/LoadStore.lean ====
section
/-! DEFINITION. Scalar loads, stores and atomics at issue (R131 to R133, R174, R176, R183 to R185, R28, R72). -/

namespace Sys2Proof.Machine

/-- Put the lines of a store's pieces in the mirror queue (R409): `va` is the virtual address of the first piece. None when a
queue is full. -/
def Chip.mirrorLines (ch : Chip) (ten comp : Nat) : Nat → List Piece → Option Chip
  | _, [] => some ch
  | va, p :: r =>
    let go := if p.mir && ch.ram.region p.pa = .dram then
        (linesOf p).foldl (fun (c : Option Chip) a =>
          c.bind (fun c =>
            let h := paHalf a
            (mirPut (tGet c.mirq h) { marker := false, line := a, tenant := ten, comp := comp
                                      vline := alignDown (va + (max a p.pa - p.pa)) 64, colour := c.ram.colour a
                                      data := c.ram.rdN a 64 }).map (fun q => { c with mirq := tSet c.mirq h q }))) (some ch)
      else some ch
    go.bind (fun c => c.mirrorLines ten comp (va + p.len) r)

/-- Whether a capability's base granule is marked revoked for a tenant (R71, R475). -/
def Chip.revoked (ch : Chip) (h ten : Nat) (c : Cap) : Bool :=
  let a := ch.tenantAddr h ten
  let lo := ch.ram.visLe (a + 24) 8
  let len := ch.ram.visLe (a + 32) 8
  if c.baseIn lo (lo + len) then
    let g := (c.base - lo) / 16
    tb (ch.ram.vis (h * 2 ^ 40 + (ch.ram.visLe (a + 40) 8) % 2 ^ 40 + g / 8)).toNat (g % 8)
  else false

/-- The current epoch of a tenant (R71, R475). -/
def Chip.epochOf (ch : Chip) (h ten : Nat) : Nat := bf (ch.ram.visLe (ch.tenantAddr h ten + 16) 1) 0 2

/-- The epoch check of a capability loaded at Tenant privilege from memory other than cluster local memory (R72). -/
def Chip.epochCheck (ch : Chip) (h ten : Nat) (c : Cap) : Cap :=
  let e := ch.epochOf h ten
  if !c.tag ∨ c.epoch = e then c else if ch.revoked h ten c then c.withTag false else c.put 124 2 e

/-- The size of a load word (R131), and whether it sign-extends. -/
def loadForm (w : Nat) : Nat × Bool :=
  match (if wMaj w = 0x25 then wMin w else wMaj w - 0x18) with
  | 0 => (1, true) | 1 => (1, false) | 2 => (2, true) | 3 => (2, false) | 4 => (4, true) | 5 => (4, false)
  | 6 => (8, false) | _ => (16, false)

/-- The size of a store word (R131). -/
def storeForm (w : Nat) : Nat :=
  match (if wMaj w = 0x26 then wMin w else wMaj w - 0x20) with
  | 0 => 1 | 1 => 2 | 2 => 4 | 3 => 8 | _ => 16

/-- The effective address of a load or store word (R131, R132). -/
def Chip.effAddr (ch : Chip) (t w n : Nat) : Nat :=
  let c := (ch.rdReg t (wB w)).addr
  if wMaj w = 0x25 ∨ wMaj w = 0x26 then (c + ch.rdInt t (wC w)) % 2 ^ 64 else addOff c (wSimm10 w * n)

/-- A load's value from its bytes, zero- or sign-extended to a register (R131). -/
def extendLoad (n : Nat) (sx : Bool) (v : Nat) : Cap := Cap.ofNat (if sx then sExt (8 * n) 64 v else v)

/-- Every piece lies in the local memory of the task's own cluster (R174). -/
def Chip.ownLocal (ch : Chip) (t : Nat) (ps : List Piece) : Bool :=
  !coreSvc (tCore t) && ps.all (fun p => paHalf p.pa = tHalf t && ch.ram.region p.pa = .clm (tClu t % 16))

/-- Some piece lies in the other half (R265). -/
def isRemote (t : Nat) (ps : List Piece) : Bool := ps.any (fun p => paHalf p.pa ≠ tHalf t)

/-- A piece is reached as device memory by a task (R270). -/
def Chip.isDev (ch : Chip) (t : Nat) (p : Piece) : Bool :=
  (ch.ram.region p.pa).isCsr || (p.attr = 2 && ch.ram.region p.pa = .dram && paHalf p.pa = tHalf t)

/-- ORD of the guard slot a piece of a task's access passes (R315), 0 outside control blocks. -/
def Chip.ordOf (ch : Chip) (t : Nat) (p : Piece) : Nat :=
  match (ch.ram.region p.pa).block with
  | some b => bf (ch.reg GRD_SLOT (tHalf t) [coreMaster (tCore t), b]) 4 2
  | none => 0

/-- ORD under which an access passes the guard now (R315, R321). -/
def Chip.ordMax (ch : Chip) (t : Nat) (ps : List Piece) : Nat := ps.foldl (fun n p => max n (ch.ordOf t p)) 0

/-- A long operation whose access passes the guard now (R315, R321). -/
def Chip.passed (ch : Chip) (t : Nat) (ps : List Piece) (o : LongOp) : LongOp :=
  { o with pieces := ps, pass := (ch.core (tCore t)).passes + 1, ord := ch.ordMax t ps }

/-- Two accesses share a byte. -/
def overlap (a b : List Piece) : Bool :=
  a.any (fun p => b.any (fun q => p.pa < q.pa + q.len && q.pa < p.pa + p.len))

/-- A scalar access of task `t` issued before number `id` touches a byte of `ps` and is not performed yet (R275). -/
def Chip.olderTouch (ch : Chip) (t id : Nat) (ps : List Piece) : Bool :=
  (ch.task t).ops.any (fun o => decide (o.id < id) && o.resp.isNone &&
    (o.kind = .load || o.kind = .store || o.kind = .atomic || o.kind = .push) && overlap o.pieces ps)

/-- How older buffered stores of the core meet a load (R184): nothing overlaps, the youngest overlapping one of the same
task matches exactly and is forwarded, or the load must wait. -/
inductive Fwd where
  | clear | forward (c : Cap) | wait
deriving DecidableEq, Repr

/-- R184 for an access of `n` bytes. A device access is performed at its device, never answered from the buffer (R270). -/
def Chip.forwarding (ch : Chip) (t : Nat) (ps : List Piece) (n : Nat) : Fwd :=
  let hits := (ch.core (tCore t)).sb.filter (fun e => overlap e.pieces ps)
  match hits.getLast? with
  | none => .clear
  | some e =>
    if ps.any (ch.isDev t) then .wait
    else if hits.all (fun e => e.task = t) && e.size = n && e.pieces.map (·.pa) = ps.map (·.pa) then .forward e.val else .wait

/-- The tenant whose holding R349 asks for: the current tenant at Tenant privilege. -/
def Task.owner (x : Task) : Option Nat := if x.priv = 0 then some x.tenant else none

/-- Send a memory request of half `h` on MEM_REQ (R20, R21, R27). -/
def Chip.memAsk (v : Vig) (ch : Chip) (h src : Nat) (r : MemReq) : Chip :=
  let tag := (tGet ch.wick h).nextTag
  let ch := ch.updWick h (fun p => { p with nextTag := (p.nextTag + 1) % 65536, reqs := p.reqs ++ [⟨tag, 1, v.clk, r.task, r.op⟩] })
  ch.wickSend h (mkMsg 1 (if r.kind.stores then 1 else 0) src tag (.memReq r))

/-- SRC of a message that a task sends (R20). -/
def srcOf (t : Nat) : Nat :=
  let k := tCore t
  if coreSvc k then 0xFFFFFF else (k / 16 % 16) * 2 ^ 16 + (k % 16) * 2 ^ 8 + tNum t

/-- The request of a task's operation (R265, R272). -/
def LongOp.req (o : LongOp) (t : Nat) : MemReq :=
  { task := t, op := o.id, kind := o.kind, pieces := o.pieces, size := o.size, capw := o.capw, colour := o.colour, fn := o.fn
    val := o.b, val2 := o.cap, cmp := o.a.addr, data := o.data, own := if o.fpriv = 0 then some o.tenant else none
    tenant := o.tenant, comp := o.comp, mach := o.fpriv = 3, va := o.va }

/-- The number of bytes a remote access meters, and its request on Wick; while Wick is down the access fails at issue
(R28, R366). The response names the task and operation. -/
def Chip.remoteIssue (v : Vig) (ch : Chip) (t : Nat) (o : LongOp) (n : Nat) : Chip :=
  let h := tHalf t
  let ch := if coreSvc (tCore t) then ch else ch.meter h v.parity o.tenant 14 n
  if ch.wickUp h then (ch.addOp t { o with remote := true }).memAsk v h (srcOf t) (o.req t)
  else
    let f : Fail := ⟨o.id, o.cls, 0x32, 0, 0, o.fpriv, o.addr, o.va, o.tw⟩
    (ch.updTask t (fun x => { x with fails := x.fails ++ [f] })).updCore (tCore t) (fun k => { k with seq := k.seq + 1 })

/-- What the other half makes of an access of the task's present instruction (`inst` 1) or of its block repeat (`inst` 2): the
request has been sent, or is out; or its answer has come: cause, bytes, tags (R27, R28, R265). -/
inductive Far where
  | sent (ch : Chip)
  | out
  | got (ch : Chip) (code : Nat) (d : List Byte) (tags : Nat)

/-- The request that a task's present instruction or block repeat has out. -/
def Task.reqOf (x : Task) (inst : Nat) : Option LongOp := x.ops.find? (fun o => o.inst = inst && !o.drop)

/-- Make an access of the present instruction or block repeat in the other half, or take its answer. -/
def Chip.farGo (v : Vig) (ch : Chip) (t inst : Nat) (o : LongOp) (n : Nat) : Far :=
  match (ch.task t).reqOf inst with
  | some q =>
    match q.resp with
    | none => .out
    | some (code, d, tags) => .got (ch.updTask t (fun x => { x with ops := x.ops.filter (fun p => p.id ≠ q.id) })) code d tags
  | none =>
    if ch.wickUp (tHalf t) then .sent (ch.remoteIssue v t { o with inst := inst } n)
    else
      .got (if coreSvc (tCore t) then ch else ch.meter (tHalf t) v.parity o.tenant 14 n) 0x32 [] 0

/-- What the checks of a scalar access answer up to the guard check (R61, R218). -/
inductive Acc where
  | go (ch : Chip) (ps : List Piece)
  | bad (r : Res)

/-- The checks of a scalar access up to the guard check, in the order of R161, and the watchpoint of R545. -/
def Chip.scalarAcc (v : Vig) (ch : Chip) (t : Nat) (c : Cap) (a n : Nat) (perms : List Nat) (align need : Nat)
    (ld st : Bool) : Acc :=
  match checkCap c a n perms align with
  | some code => .bad (.flt ch ⟨code, 0, 0, a⟩)
  | none =>
    if ch.watchHit v t a n ld st then .bad (.halt ch 5)
    else
      let r := ch.xlateAcc v t a n need
      match r.2.2 with
      | some b => .bad (.flt (r.1.adTrap t b) b.flt)
      | none =>
        let g := r.1.guardCore t c ld st (r.2.1.map (·.pa))
        if g.2 ≠ 0 then .bad (.flt g.1 ⟨g.2, 0, 0, a⟩) else .go g.1 r.2.1

/-- The pieces lie in control blocks, where no colour check is made (R268). -/
def Chip.inCsr (ch : Chip) (ps : List Piece) : Bool := ps.any (fun p => (ch.ram.region p.pa).isCsr)

/-- A load of `n` bytes, `capw` for LCAP (R132, R174, R184): `f` is the register form. -/
def loadBody (v : Vig) (ch : Chip) (t w n : Nat) (sx capw hit : Bool) : Res :=
  if ch.opsFull t then .stall ch
  else
    let c := ch.rdReg t (wB w)
    let a := ch.effAddr t w n
    match ch.scalarAcc v t c a n [pLoad] (if capw then 16 else 1) 1 true false with
    | .bad r => r
    | .go ch ps =>
      let x := ch.task t
      let fail := fun (code : Nat) => Res.flt ch ⟨code, 0, 0, a⟩
      let o := { ch.passed t ps (ch.newOp v t .load (if isRemote t ps then 1 else 0)) with
        va := a, size := n, dst := (ch.entry t (wA w)).getD 0, sext := sx, capw := capw, colour := c.colour
        loadCap := c.has pLoadCap }
      let code := if ch.inCsr ps then 0 else ch.checkLines x.owner c.colour false ps
      if ch.ownLocal t ps && ch.olderTouch t o.id ps then .stall ch
      else
        match ch.forwarding t ps n with
        | .wait => .stall ch
        | .forward val =>
          let r := if capw then val.withTag (val.tag && c.has pLoadCap) else extendLoad n sx (val.addr % 2 ^ (8 * n))
          if (hit || ch.ownLocal t ps) && code ≠ 0 then fail code
          else if ch.ownLocal t ps then .ok (ch.laterReg t (wA w) 4 r)
          else .ok (ch.addOp t { o with resp := some (code, leBytes 16 val.bits.toNat, b2n val.tag) })
        | .clear =>
          if isRemote t ps then .ok (ch.remoteIssue v t o n)
          else if ch.ownLocal t ps then
            if code ≠ 0 then fail code
            else
              let d := leNat (ch.loadBytes ps)
              let r := if capw then ⟨tb (ch.loadTags ps) 0 && c.has pLoadCap, BitVec.ofNat 128 d⟩ else extendLoad n sx d
              .ok (ch.laterReg t (wA w) 4 r)
          else if hit && code ≠ 0 then fail code
          else .ok (ch.addOp t o)

/-- LOAD (R132): `hit` says that the access hits L1. -/
def bodyLoad (hit : Bool) (v : Vig) (ch : Chip) (t w : Nat) : Res :=
  loadBody v ch t w (loadForm w).1 (loadForm w).2 false hit

/-- LCAP (R65). -/
def bodyLcap (hit : Bool) (v : Vig) (ch : Chip) (t w : Nat) : Res := loadBody v ch t w 16 false true hit

/-- The entries the store buffer holds (R183). -/
def CoreSt.sbUsed (k : CoreSt) : Nat := k.sb.foldl (fun n e => n + e.slots) 0

/-- A store of `n` bytes, `capw` for SCAP (R64, R132, R183, R185). -/
def storeBody (v : Vig) (ch : Chip) (t w n : Nat) (capw hit : Bool) : Res :=
  if ch.opsFull t then .stall ch
  else
    let c := ch.rdReg t (wB w)
    let a := ch.effAddr t w n
    let val := ch.rdReg t (wA w)
    let perms := [pStore] ++ (if capw && val.tag then [pStoreCap] ++ (if val.has pGlobal then [] else [pStoreLocal]) else [])
    match ch.scalarAcc v t c a n perms (if capw then 16 else 1) 2 false true with
    | .bad r => r
    | .go ch ps =>
      let x := ch.task t
      let data := leBytes n val.bits.toNat
      if isRemote t ps then
        .ok (ch.remoteIssue v t { ch.passed t ps (ch.newOp v t .store 1) with
          va := a, size := n, capw := capw, colour := c.colour, b := val, data := data } n)
      else
        let slots := if a % 16 + n > 16 then 2 else 1
        if (ch.core (tCore t)).sbUsed + slots > 8 then .stall ch
        else
          let local_ := ch.ownLocal t ps
          let csr := ch.inCsr ps
          let code := if csr then 0 else ch.checkLines x.owner c.colour true ps
          if (local_ || hit) && code ≠ 0 then .flt ch ⟨code, 0, 0, a⟩
          else
            let e : SBEntry := { id := (ch.core (tCore t)).seq, task := t, slots := slots, pieces := ps, va := a, size := n
                                 val := if capw then val else ⟨false, BitVec.ofNat 128 (leNat data)⟩, capw := capw
                                 colour := c.colour, checked := local_ || hit, addr := x.pcc.addr, fpriv := x.priv
                                 tw := x.tw, tenant := x.tenant, comp := x.comp, drop := false
                                 pass := (ch.core (tCore t)).passes + 1, ord := ch.ordMax t ps }
            .ok (ch.updCore (tCore t) (fun k => { k with sb := k.sb ++ [e], seq := k.seq + 1, passes := k.passes + 1 }))

/-- STORE (R132). -/
def bodyStore (hit : Bool) (v : Vig) (ch : Chip) (t w : Nat) : Res := storeBody v ch t w (storeForm w) false hit
/-- SCAP (R64). -/
def bodyScap (hit : Bool) (v : Vig) (ch : Chip) (t w : Nat) : Res := storeBody v ch t w 16 true hit

/-- An atomic (R133): a long operation on one aligned location; `fn` 0 adds, 1 swaps, 2 compares and swaps. Its line check is
precise in the issuing cluster's local memory (R218). -/
def atomicBody (fn : Nat) (v : Vig) (ch : Chip) (t w : Nat) : Res :=
  if ch.opsFull t then .stall ch
  else
    let n := if wMin w ≤ 2 then 8 else 4
    let c := ch.rdReg t (wB w)
    match ch.scalarAcc v t c c.addr n [pLoad, pStore] n 3 true true with
    | .bad r => r
    | .go ch ps =>
      let x := ch.task t
      let o := { ch.passed t ps (ch.newOp v t .atomic 5) with
        va := c.addr, size := n, dst := (ch.entry t (wA w)).getD 0, sext := n = 4, colour := c.colour
        fn := fn, a := Cap.ofNat (ch.rdInt t (wA w)), b := Cap.ofNat (ch.rdInt t (wC w)) }
      let code := if ch.ownLocal t ps then ch.checkLines x.owner c.colour true ps else 0
      if ch.forwarding t ps 0 ≠ .clear then .stall ch
      else if isRemote t ps then .ok (ch.remoteIssue v t o n)
      else if code ≠ 0 then .flt ch ⟨code, 0, 0, c.addr⟩
      else .ok (ch.addOp t o)

/-- AMOADD (R133). -/
def bodyAmoadd (v : Vig) (ch : Chip) (t w : Nat) : Res := atomicBody 0 v ch t w
/-- AMOSWP (R133). -/
def bodyAmoswp (v : Vig) (ch : Chip) (t w : Nat) : Res := atomicBody 1 v ch t w
/-- CAS (R133). -/
def bodyCas (v : Vig) (ch : Chip) (t w : Nat) : Res := atomicBody 2 v ch t w

/-- LOAD. -/
def execLoad (t : Nat) (w : IWord) (hit : Bool) (s : State) : Out := insn t w .load (bodyLoad hit) s
/-- LCAP. -/
def execLcap (t : Nat) (w : IWord) (hit : Bool) (s : State) : Out := insn t w .lcap (bodyLcap hit) s
/-- STORE. -/
def execStore (t : Nat) (w : IWord) (hit : Bool) (s : State) : Out := insn t w .store (bodyStore hit) s
/-- SCAP. -/
def execScap (t : Nat) (w : IWord) (hit : Bool) (s : State) : Out := insn t w .scap (bodyScap hit) s
/-- AMOADD. -/
def execAmoadd (t : Nat) (w : IWord) (s : State) : Out := insn t w .amoadd bodyAmoadd s
/-- AMOSWP. -/
def execAmoswp (t : Nat) (w : IWord) (s : State) : Out := insn t w .amoswp bodyAmoswp s
/-- CAS. -/
def execCas (t : Nat) (w : IWord) (s : State) : Out := insn t w .cas bodyCas s

end Sys2Proof.Machine
end

