-- ==== Sys2Proof/Machine/Maint.lean ====
section
/-! DEFINITION. Cache and translation maintenance (R153, R291, R292). What a data cache holds is memory's
content (R272); which lines an L2 holds dirty is state (R367). -/

namespace Sys2Proof.Machine

/-- Change the sixteen clusters of a half. -/
def Chip.everyClu (ch : Chip) (h : Nat) (f : Cluster → Cluster) : Chip :=
  (List.range 16).foldl (fun c i => c.updClu (h * 16 + i) f) ch

/-- Keep the combined entries of a half's L2 TLBs and micro-TLBs that satisfy `p`, and the cached descriptors that satisfy `q`. -/
def Chip.tlbOnly (ch : Chip) (h : Nat) (p : TlbE → Bool) (q : DescE → Bool) : Chip :=
  { ch.everyClu h (fun k => { k with tlb := tlbKeep p k.tlb, dcache := k.dcache.filter q }) with
    cores := ch.cores.map (fun e => if coreHalf e.1 = h then (e.1, { e.2 with utlb := e.2.utlb.filter p }) else e) }

/-- TLBI.VA on a half (R291). -/
def Chip.tlbiVa (ch : Chip) (h ten va : Nat) : Chip :=
  ch.tlbOnly h (fun e => !(e.tenant = ten && e.vbase ≤ va && va < e.vbase + e.size)) (fun _ => true)
/-- TLBI.TAG on a half (R291). -/
def Chip.tlbiTag (ch : Chip) (h ten : Nat) : Chip := ch.tlbOnly h (fun e => e.tenant ≠ ten) (fun e => e.tenant ≠ ten)
/-- TLBI.ALL on a half (R291). -/
def Chip.tlbiAll (ch : Chip) (h : Nat) : Chip := ch.tlbOnly h (fun _ => false) (fun _ => false)
/-- WCI on a half (R291). -/
def Chip.wci (ch : Chip) (h : Nat) : Chip := ch.everyClu h (fun k => { k with wcache := [] })
/-- WCI.IPA on a half (R291). -/
def Chip.wciIpa (ch : Chip) (h ipa : Nat) : Chip :=
  ch.everyClu h (fun k => { k with wcache := k.wcache.filter (fun e => e.ipa ≠ ipa / lvlSize e.level) })

/-- Invalidate a line in every L1 instruction cache of a half, and the loop buffers whose body overlaps it (R153, R189):
`pa` and `va` are the line's physical and virtual addresses. -/
def Chip.iflushLine (ch : Chip) (h pa va : Nat) : Chip :=
  let hit := fun (b : LoopBuf) => alignDown va 64 ≤ b.last + 3 && b.start < alignDown va 64 + 64
  { ch with cores := ch.cores.map (fun e =>
      if coreHalf e.1 = h then
        (e.1, { e.2 with icache := mDel e.2.icache (pa / 64)
                         loopBuf := if (e.2.loopBuf.map hit) = some true then none else e.2.loopBuf })
      else e) }

/-- A maintenance instruction at issue (R153): `fn` is its minor, `perm` the permission its operand needs. -/
def maintBody (fn : Nat) (perm : Cap → List Nat) (v : Vig) (ch : Chip) (t w : Nat) : Res :=
  if ch.opsFull t then .stall ch
  else
    let c := ch.rdReg t (wB w)
    let o := { ch.newOp v t .maint 5 with fn := fn, va := c.addr, a := Cap.ofNat c.addr, b := Cap.ofNat (ch.rdInt t (wC w)) }
    if fn ≥ 4 then .ok (ch.addOp t o)
    else
      match checkCap c c.addr 1 (perm c) 1 with
      | some code => .flt ch ⟨code, 0, 0, c.addr⟩
      | none =>
        let r := ch.xlateAcc v t c.addr 1 0
        match r.2.2 with
        | some b => .flt (r.1.adTrap t b) b.flt
        | none => .ok (r.1.addOp t { o with pieces := r.2.1 })

/-- IFLUSH. -/
def bodyIflush (v : Vig) (ch : Chip) (t w : Nat) : Res :=
  maintBody 0 (fun c => if c.has pExec then [] else [pLoad]) v ch t w
/-- DFLUSH.I. -/
def bodyDflushI (v : Vig) (ch : Chip) (t w : Nat) : Res := maintBody 1 (fun _ => [pStore]) v ch t w
/-- DFLUSH.C. -/
def bodyDflushC (v : Vig) (ch : Chip) (t w : Nat) : Res := maintBody 2 (fun _ => [pLoad]) v ch t w
/-- DFLUSH.CI. -/
def bodyDflushCi (v : Vig) (ch : Chip) (t w : Nat) : Res := maintBody 3 (fun _ => [pStore]) v ch t w
/-- TLBI.VA. -/
def bodyTlbiVa (v : Vig) (ch : Chip) (t w : Nat) : Res := maintBody 4 (fun _ => []) v ch t w
/-- TLBI.TAG. -/
def bodyTlbiTag (v : Vig) (ch : Chip) (t w : Nat) : Res := maintBody 5 (fun _ => []) v ch t w
/-- TLBI.ALL. -/
def bodyTlbiAll (v : Vig) (ch : Chip) (t w : Nat) : Res := maintBody 6 (fun _ => []) v ch t w
/-- WCI. -/
def bodyWci (v : Vig) (ch : Chip) (t w : Nat) : Res := maintBody 7 (fun _ => []) v ch t w
/-- WCI.IPA. -/
def bodyWciIpa (v : Vig) (ch : Chip) (t w : Nat) : Res := maintBody 8 (fun _ => []) v ch t w

/-- The long operation of a task with a number. -/
def Chip.findOp (ch : Chip) (t id : Nat) : Option LongOp := (ch.task t).ops.find? (fun o => o.id = id)

/-- Remove a long operation (R175, R176); when it was the last vector memory operation of a task whose results are
discarded, the context the task held becomes free (R197). -/
def Chip.endOp (ch : Chip) (t id : Nat) : Chip :=
  let drop := ((ch.findOp t id).map (·.drop)).getD false
  let ch := ch.updTask t (fun x => { x with ops := x.ops.filter (fun o => o.id ≠ id) })
  if drop && !(ch.task t).vecOut then ch.freeCtx t else ch

/-- The removal an invalidation makes (R291). -/
def Chip.invalidate (ch : Chip) (h : Nat) (o : LongOp) : Chip :=
  match o.fn with
  | 4 => ch.tlbiVa h (o.b.addr % 2 ^ 12) o.a.addr
  | 5 => ch.tlbiTag h (o.a.addr % 2 ^ 12)
  | 6 => ch.tlbiAll h
  | 7 => ch.wci h
  | _ => ch.wciIpa h o.a.addr

/-- R292: an access of a tenant that `cov` covers, which may have used a removed entry, is still to be performed on a half. -/
def Chip.usesTlb (ch : Chip) (h : Nat) (cov : Nat → Bool) : Bool :=
  ch.tasks.any (fun e => tHalf e.1 = h && e.2.ops.any (fun p => cov p.tenant && !p.pieces.isEmpty && p.kind ≠ .maint)) ||
    ch.cores.any (fun e => coreHalf e.1 = h && e.2.sb.any (fun s => cov s.tenant))

/-- The tenants whose combined entries a maintenance instruction removes (R291); WCI and WCI.IPA remove none. -/
def LongOp.covers (o : LongOp) (ten : Nat) : Bool :=
  if o.fn = 4 then ten = o.b.addr % 2 ^ 12 else if o.fn = 5 then ten = o.a.addr % 2 ^ 12 else o.fn = 6

/-- INVALIDATION_COMPLETE (R292). -/
def invComplete (t id : Nat) (ch : Chip) : Chip :=
  match ch.findOp t id with
  | some o =>
    if o.kind = .maint ∧ o.fn ≥ 4 ∧ !ch.usesTlb (tHalf t) o.covers then (ch.invalidate (tHalf t) o).endOp t id else ch
  | none => ch

/-- IFLUSH. -/
def execIflush (t : Nat) (w : IWord) (s : State) : Out := insn t w .iflush bodyIflush s
/-- DFLUSH_I. -/
def execDflushI (t : Nat) (w : IWord) (s : State) : Out := insn t w .dflushI bodyDflushI s
/-- DFLUSH_C. -/
def execDflushC (t : Nat) (w : IWord) (s : State) : Out := insn t w .dflushC bodyDflushC s
/-- DFLUSH_CI. -/
def execDflushCi (t : Nat) (w : IWord) (s : State) : Out := insn t w .dflushCi bodyDflushCi s
/-- TLBI_VA. -/
def execTlbiVa (t : Nat) (w : IWord) (s : State) : Out := insn t w .tlbiVa bodyTlbiVa s
/-- TLBI_TAG. -/
def execTlbiTag (t : Nat) (w : IWord) (s : State) : Out := insn t w .tlbiTag bodyTlbiTag s
/-- TLBI_ALL. -/
def execTlbiAll (t : Nat) (w : IWord) (s : State) : Out := insn t w .tlbiAll bodyTlbiAll s
/-- WCI. -/
def execWci (t : Nat) (w : IWord) (s : State) : Out := insn t w .wci bodyWci s
/-- WCI_IPA. -/
def execWciIpa (t : Nat) (w : IWord) (s : State) : Out := insn t w .wciIpa bodyWciIpa s
/-- INVALIDATION_COMPLETE. -/
def execInvalidationComplete (t id : Nat) (s : State) : Out := chipStep (fun _ ch => invComplete t id ch) s

end Sys2Proof.Machine
end

