-- ==== Sys2Proof/Machine/BlockRep.lean ====
section
/-! DEFINITION. Issue and resumption of block repeats and CPAINT (R130, R141 to R148); their elements stand in
Perform. -/

namespace Sys2Proof.Machine

/-- RC.COUNT (R143). -/
def rcCount (rc : Nat) : Nat := bf rc 0 32
/-- RC.REG. -/
def rcReg (rc : Nat) : Nat := bf rc 32 9
/-- RC.OP. -/
def rcOp (rc : Nat) : Nat := bf rc 48 3
/-- RC.ESZ. -/
def rcEsz (rc : Nat) : Nat := bf rc 51 3
/-- RC.COND. -/
def rcCond (rc : Nat) : Nat := bf rc 54 2
/-- RC.CRCSEL. -/
def rcCrc (rc : Nat) : Nat := bf rc 56 1
/-- RC.SUSP. -/
def rcSusp (rc : Nat) : Bool := tb rc 63

/-- RC bits 63:32 of an operation, with a count (R143, R144). -/
def mkRc (count reg op esz cond crc : Nat) : Nat :=
  count % 2 ^ 32 + (reg % 2 ^ 9) * 2 ^ 32 + op * 2 ^ 48 + esz * 2 ^ 51 + cond * 2 ^ 54 + crc * 2 ^ 56

/-- R148: RC describes an operation that a REP pair or CPAINT could have left, for a task of `per` entries. -/
def rcLegal (per rc : Nat) : Bool :=
  let op := rcOp rc
  rcReg rc < per &&
    (if op = 5 then rcEsz rc = 0 && rcCond rc = 0 && rcCrc rc = 0 && rcReg rc = 0
     else op ≤ 4 && (if op ≤ 1 then rcEsz rc ≤ 4 else rcEsz rc ≤ 3) &&
       (if op = 2 ∨ op = 3 then rcCond rc = 1 || rcCond rc = 2 else rcCond rc = 0) && (op = 4 || rcCrc rc = 0))

/-- Insert a failure in issue order (R177). -/
def insertFail (f : Fail) : List Fail → List Fail
  | [] => [f]
  | g :: r => if f.id < g.id then f :: g :: r else g :: insertFail f r

/-- Record a failure of a task's long operation (R177). -/
def Task.addFail (x : Task) (f : Fail) : Task := { x with fails := insertFail f x.fails }

/-- The issue checks of CPAINT (R70, R130): the cause of the first that fails. -/
def paintCheck (c : Cap) : Option Nat :=
  if !c.tag then some 0x10
  else if c.otype ≠ 0 then some 0x11
  else if !(c.has pStore && c.has pSystem) then some 0x12
  else if c.base % 64 ≠ 0 ∨ c.top % 64 ≠ 0 ∨ (c.top - c.base) / 64 ≥ 2 ^ 32 then some 0x14
  else none

/-- An operation that the task's present instruction starts (R146). -/
def Task.orgHere (x : Task) : RepOrg := ⟨x.pcc.addr, x.tw, x.priv⟩

/-- Start the engine of a task for the operation in RC (R144), which came from `org`: an operation of no elements is complete at
once. -/
def Chip.startRep (ch : Chip) (t : Nat) (org : RepOrg) : Chip :=
  if rcCount (ch.task t).rc.toNat = 0 then ch.updTask t (fun x => { x with org := none })
  else
    let r : Rep := ⟨org, (ch.core (tCore t)).seq, none, []⟩
    (ch.updTask t (fun x => { x with rep := some r, org := none })).updCore (tCore t) (fun k => { k with seq := k.seq + 1 })

/-- A failure of CPAINT at issue or at a resume (R130), with its data address. -/
def Chip.paintFail (ch : Chip) (t code a : Nat) (org : RepOrg) : Chip :=
  let f : Fail := ⟨(ch.core (tCore t)).seq, 4, code, 0, 0, org.fpriv, org.addr, a, org.tw⟩
  (ch.updTask t (fun x => x.addFail f)).updCore (tCore t) (fun k => { k with seq := k.seq + 1 })

/-- Resume the suspended operation of a task (R148); RESERVED_INSN when RC describes none. A later failure reports where the
operation came from (R146, R222), or the resuming instruction when the hardware does not know that (log 22). -/
def Chip.resumeRep (ch : Chip) (t : Nat) : Flt ⊕ Chip :=
  let x := ch.task t
  let rc := x.rc.toNat
  let org := x.org.getD x.orgHere
  if !rcLegal (ch.perTask (tCore t)) rc then .inl ⟨0x01, 0, 0, 0⟩
  else
    match (if rcOp rc = 5 then paintCheck x.rdst else none) with
    | some code => .inr (ch.paintFail t code x.rdst.addr org)
    | none => .inr ((ch.updTask t (fun x => { x with rc := BitVec.ofNat 64 (bfSet rc 63 1 0) })).startRep t org)

/-- Wait for, or resume, the task's block repeat before another of its kind issues (R145, R148). -/
def Chip.repGate (ch : Chip) (t : Nat) (go : Chip → Res) : Res :=
  let x := ch.task t
  if x.rep.isSome then .stall ch
  else if rcSusp x.rc.toNat then
    match ch.resumeRep t with
    | .inl f => .flt ch f
    | .inr c => .stall c
  else go ch

/-- REP pair (R144). -/
def bodyRep (w2 : Nat) (_v : Vig) (ch : Chip) (t w : Nat) : Res :=
  ch.repGate t (fun ch =>
    let op := wMin w2
    let reg := if op = 1 ∨ op = 3 ∨ op = 4 then ((ch.entry t (wA w2)).getD (ch.base t)) - ch.base t else 0
    let rc := fun (n : Nat) => mkRc n reg op (bf w 19 3) (bf w 17 2) (bf w 16 1)
    .ok ((ch.updTask t (fun x => { x with rc := BitVec.ofNat 64 (rc (rcCount x.rc.toNat)) })).startRep t (ch.task t).orgHere))

/-- CPAINT (R70, R130). FDATA of a check that fails at issue is the capability's base, and at a resume RDST's cursor (log 109). -/
def bodyCpaint (_v : Vig) (ch : Chip) (t w : Nat) : Res :=
  ch.repGate t (fun ch =>
    let c := ch.rdReg t (wB w)
    match paintCheck c with
    | some code => .ok (ch.paintFail t code c.base (ch.task t).orgHere)
    | none =>
      let rc := BitVec.ofNat 64 (mkRc ((c.top - c.base) / 64) 0 5 0 0 0)
      .ok ((ch.updTask t (fun x => { x with rdst := cpos c c.base, rc := rc })).startRep t (ch.task t).orgHere))

/-- REP. -/
def execRep (t : Nat) (w w2 : IWord) (s : State) : Out :=
  chipStep (fun v ch => ch.issueRow v t w (some w2) .rep (bodyRep w2.toNat)) s
/-- CPAINT. -/
def execCpaint (t : Nat) (w : IWord) (s : State) : Out := insn t w .cpaint bodyCpaint s

end Sys2Proof.Machine
end

