-- ==== Sys2Proof/Machine/SyncInsn.lean ====
section
/-! DEFINITION. SYNC, fences, POST and WAITQ (R149 to R152, R177 to R180, R222, R245, R277, R278). -/

namespace Sys2Proof.Machine

/-- The failures an instruction that waits for the classes of `mask` reports (R177, R178, R222). -/
def Task.reportable (x : Task) (mask : Nat) (f : Fail) : Bool := tb mask f.cls && (!x.tw || f.tw)

/-- The report of the oldest awaited failure, if there is one; the others of its set are discarded (R177). With
`prec` it is precise when it is of the instruction just before (R179). -/
def Chip.reportOf (ch : Chip) (t mask : Nat) (prec : Bool) : Option Res :=
  let x := ch.task t
  match x.fails.filter (x.reportable mask) with
  | [] => none
  | f :: r =>
    let ch := ch.updTask t (fun y => { y with fails := y.fails.filter (fun f => !x.reportable mask f) })
    some (.report ch f (!r.isEmpty) (prec && x.lastOp = some f.id && f.cls ≠ 4))

/-- Every class of R152. -/
def allClasses : Nat := 0x3F

/-- SYNC in its forms (R148, R177 to R179): wait, report, resume a suspended block repeat, complete. -/
def syncGo (ch : Chip) (t mask : Nat) (prec : Bool) : Res :=
  if ch.awaits t mask then .wait ch (.sync mask)
  else
    match ch.reportOf t mask prec with
    | some r => r
    | none =>
      if tb mask 4 && rcSusp (ch.task t).rc.toNat then
        match ch.resumeRep t with
        | .inl f => .flt ch f
        | .inr c =>
          if c.awaits t mask then .wait c (.sync mask)
          else
            match c.reportOf t mask prec with
            | some r => r
            | none => .ok c
      else .ok ch

/-- SYNC (R177). -/
def bodySync (_v : Vig) (ch : Chip) (t _w : Nat) : Res := syncGo ch t allClasses false
/-- SYNC.M (R178). -/
def bodySyncM (_v : Vig) (ch : Chip) (t w : Nat) : Res := syncGo ch t (wA w) false
/-- SYNC.P (R179): it also waits until the task's stores have drained. -/
def bodySyncP (_v : Vig) (ch : Chip) (t _w : Nat) : Res := syncGo ch t (allClasses + 2 ^ 6) true

/-- A fence (R277): it waits and reports nothing. -/
def fenceGo (ch : Chip) (t mask : Nat) : Res := if ch.awaits t mask then .wait ch (.sync mask) else .ok ch

/-- FENCE (R277). -/
def bodyFence (_v : Vig) (ch : Chip) (t _w : Nat) : Res := fenceGo ch t (2 ^ 7 + 2 ^ 8)
/-- FENCE.LD (R277). -/
def bodyFenceLd (_v : Vig) (ch : Chip) (t _w : Nat) : Res := fenceGo ch t (2 ^ 7)
/-- FENCE.ST's marker in a half's mirror queue (R409): nothing where no line has been queued since the last. -/
def Chip.mirMark (ch : Chip) (h : Nat) : Chip :=
  let q := tGet ch.mirq h
  match q.getLast? with
  | some l => if l.marker then ch else { ch with mirq := tSet ch.mirq h (q ++ [⟨true, 0, 0, 0, 0, 0, []⟩]) }
  | none => ch

/-- FENCE.ST (R277), with its marker in both halves' mirror queues, since the lines that the task's stores mirror queue in the half
where they lie (R409). -/
def bodyFenceSt (_v : Vig) (ch : Chip) (t _w : Nat) : Res :=
  match fenceGo ch t (2 ^ 8) with
  | .ok c => .ok ((c.mirMark 0).mirMark 1)
  | r => r

/-- The key under which a task's posted events wait: its cluster, or 32 + half for a service core. -/
def outKey (t : Nat) : Nat := if coreSvc (tCore t) then 32 + tHalf t else tClu t

/-- The posted events of a cluster's outbound buffer that leave the cluster (R245). -/
def Cluster.outward (c : Cluster) : Nat := (c.outb.filter (fun e => !e.own && e.scluster ≠ 17)).length

/-- Whether POST offers its event for delivery (R245), and the chip with the event queued or on its way. An event to the
poster's own cluster is queued at once unless an older store of the task or an older event of the task to the same queue
is still on its way (R247, R278). -/
def Chip.post (ch : Chip) (t : Nat) (qc : Cap) (ev : Ev) (v : Vig) : Bool × Chip :=
  let x := ch.task t
  let h := tHalf t
  let id := qc.addr % 2 ^ 16
  let gen := bf qc.addr 16 32
  let far := compHalf id ≠ h
  let key := outKey t
  let clu := ch.clu key
  let r := ch.record id
  let own := !far && !coreSvc (tCore t) && (r.map (·.cluster)) = some (tClu t % 16)
  let room := match r.bind ch.slotFor with
    | some q => q.cap - q.ents.length - (clu.outb.filter (fun e => e.own && e.dst = id)).length
    | none => 0
  if ev.cls ≥ 6 && x.priv = 0 then (false, ch)
  else if !far && (r.isNone || (r.map (·.qgen)) ≠ some gen || (r.map (·.qlog2)) = some 0) then (false, ch)
  else if far && !ch.wickUp h then (false, ch)
  else if own && room < 5 then (false, ch)
  else if !own && clu.outward ≥ 64 then (false, ch)
  else
    let seq := (ch.core (tCore t)).seq
    let e : OutEv := ⟨id, gen, ev, x.comp, x.tenant, Chip.taskPath v ch t, key % 16 + (if coreSvc (tCore t) then 16 else 0),
      own, t, seq⟩
    let now := own && !ch.storesBefore t seq && !(clu.outb.any (fun e => e.dst = id && e.task = t))
    let ch := if coreSvc (tCore t) then ch else ch.meter h v.parity x.tenant 11 1
    match (if now then r.bind (fun r => ch.enqueue id r ev) else none) with
    | some c => (true, c)
    | none => (true, ch.updClu key (fun k => { k with outb := k.outb ++ [e] }))

/-- POST (R150, R245). -/
def bodyPost (v : Vig) (ch : Chip) (t w : Nat) : Res :=
  let qc := ch.rdReg t (wB w)
  if !qc.tag then .flt ch ⟨0x10, 0, 0, 0⟩
  else if qc.otype ≠ 0xFFD then .flt ch ⟨0x11, 0, 0, 0⟩
  else
    let r := ch.post t qc ⟨ch.rdReg t (wA w), ch.rdReg t (wA w + 1), bf w 4 3⟩ v
    .ok (r.2.updTask t (fun x => x.setPred (bf w 7 3) r.1))

/-- Take the oldest event of an enabled class from the queue of the task's bound compartment (R151, R247): none is dispatched
while the compartment is paused, extinguished or being moved. -/
def Chip.takeEvent (ch : Chip) (t : Nat) : Option (Ev × Chip) :=
  let x := ch.task t
  match x.bound.bind ch.record with
  | none => none
  | some r =>
    if r.flag fPaused || r.flag fExtinguished || r.flag fMoving then none
    else
      match ch.slotFor r with
      | none => none
      | some q =>
        match q.ents.find? (fun i => tb x.evmask.toNat (ch.ram.evAt (tClu t) q i).cls) with
        | none => none
        | some i => some (ch.ram.evAt (tClu t) q i, ch.setSlot r { q with ents := q.ents.erase i })

/-- Complete a WAITQ with an event (R151, R259): the pair of entries, the predicate, the event count and its meters. -/
def Chip.giveEvent (v : Vig) (ch : Chip) (t e0 e1 pd : Nat) (e : Ev) : Chip :=
  let ch := (ch.wrEntry e0 e.lo).wrEntry e1 e.hi
  let ch := ch.updTask t (fun x => { (x.setPred pd true) with evcount := 0 })
  match (ch.task t).bound with
  | none => ch
  | some b =>
    let l := mGet ch.compLoad b (0, 0)
    let ten := ((ch.record b).map (·.tenant)).getD 0
    ({ ch with compLoad := mSet ch.compLoad b (l.1, l.2 + 1) }).meter (tHalf t) v.parity ten 10 1

/-- The entries of the destination pair of WAITQ. -/
def Chip.pairOf (ch : Chip) (t w : Nat) : Nat × Nat :=
  ((ch.entry t (wA w)).getD 0, (ch.entry t (wA w + 1)).getD 0)

/-- The instruction finds no event: PD := 0 (R112, R151). -/
def noEvent (ch : Chip) (t w : Nat) : Res := .ok (ch.updTask t (fun x => x.setPred (bf w 7 3) false))

/-- WAITQ (R112, R151, R180): with no class enabled it completes at once; else it waits and reports as SYNC does, takes
an event, or yields. -/
def bodyWaitq (v : Vig) (ch : Chip) (t w : Nat) : Res :=
  if (ch.task t).evmask.toNat % 256 = 0 then noEvent ch t w
  else if ch.awaits t allClasses then .wait ch (.sync allClasses)
  else
    match ch.reportOf t allClasses false with
    | some r => r
    | none =>
      let p := ch.pairOf t w
      match ch.takeEvent t with
      | some (e, c) => .ok (c.giveEvent v t p.1 p.2 (bf w 7 3) e)
      | none =>
        let key := outKey t
        let stamp := (ch.clu key).waitStamp
        .wait (ch.updClu key (fun k => { k with waitStamp := k.waitStamp + 1 })) (.waitq p.1 (bf w 7 3) stamp)

/-- WAITQ.N (R151). -/
def bodyWaitqN (v : Vig) (ch : Chip) (t w : Nat) : Res :=
  let p := ch.pairOf t w
  match (if (ch.task t).evmask.toNat % 256 = 0 then none else ch.takeEvent t) with
  | some (e, c) => .ok (c.giveEvent v t p.1 p.2 (bf w 7 3) e)
  | none => noEvent ch t w

/-- SYNC. -/
def execSync (t : Nat) (w : IWord) (s : State) : Out := insn t w .sync bodySync s
/-- SYNC_M. -/
def execSyncM (t : Nat) (w : IWord) (s : State) : Out := insn t w .syncM bodySyncM s
/-- SYNC_P. -/
def execSyncP (t : Nat) (w : IWord) (s : State) : Out := insn t w .syncP bodySyncP s
/-- FENCE. -/
def execFence (t : Nat) (w : IWord) (s : State) : Out := insn t w .fence bodyFence s
/-- FENCE_LD. -/
def execFenceLd (t : Nat) (w : IWord) (s : State) : Out := insn t w .fenceLd bodyFenceLd s
/-- FENCE_ST. -/
def execFenceSt (t : Nat) (w : IWord) (s : State) : Out := insn t w .fenceSt bodyFenceSt s
/-- POST. -/
def execPost (t : Nat) (w : IWord) (s : State) : Out := insn t w .post bodyPost s
/-- WAITQ. -/
def execWaitq (t : Nat) (w : IWord) (s : State) : Out := insn t w .waitq bodyWaitq s
/-- WAITQ_N. -/
def execWaitqN (t : Nat) (w : IWord) (s : State) : Out := insn t w .waitqN bodyWaitqN s

end Sys2Proof.Machine
end

