-- ==== Sys2Proof/Machine/CoreEvents.lean ====
section
/-! DEFINITION. What a core's own units do between instructions: the fetch queue fills (R163, R164, R190), a divide
completes (R182), a yielded WAITQ is woken (R253). -/

namespace Sys2Proof.Machine

/-- The word at an address of the boot ROM, offset 0x0080_0000 of a HALF block (R505). -/
def romWord (pa : Nat) : Option IWord :=
  let l := paLocal pa
  if 0xC000800000 ≤ l ∧ l < 0xC000820000 then some (Config.bootRom ((l - 0xC000800000) / 4)) else none

/-- Read the instruction word that task `t` fetches (R164): zero in a colour-0 line; `stale` takes the word that the core's
instruction cache holds, if it holds the line (R190). A fill reads the line through L2 (R367) and refreshes the cache. -/
def Chip.fetchWord (v : Vig) (ch : Chip) (t : Nat) (p : Piece) (stale : Bool) : IWord × Chip :=
  let k := tCore t
  let pa := p.pa
  match romWord pa with
  | some w => (w, ch)
  | none =>
    match mGet? (ch.core k).icache (pa / 64), stale with
    | some l, true => (BitVec.ofNat 32 (fieldB l (pa % 64) 4), ch)
    | _, _ =>
      let l := ch.ram.visN (alignDown pa 64) 64
      let ch := ch.dramTouch v t (ch.task t).tenant false [p]
      (BitVec.ofNat 32 (fieldB l (pa % 64) 4), ch.updCore k (fun c => { c with icache := mSet c.icache (pa / 64) l }))

/-- The checks of a fetch after PCC's (R61, R164): translation, guard, colour; where the word lies, or the fault. -/
def Chip.fetchAcc (v : Vig) (ch : Chip) (t : Nat) (pcc : Cap) (a : Nat) : Chip × (Piece ⊕ Flt) :=
  let x := ch.task t
  let r := ch.xlateAcc v t a 4 4
  match r.2.2 with
  | some b => (r.1, .inr b.flt)
  | none =>
    let p := r.2.1.head?.getD ⟨0, 4, false, 0⟩
    let pa := p.pa
    let g := r.1.guardCore t pcc true false [pa]
    if g.2 ≠ 0 then (g.1, .inr ⟨g.2, 0, 0, a⟩)
    else
      let code := if (g.1.ram.region pa).isCsr then 0 else g.1.checkLines x.owner pcc.colour false r.2.1
      if code ≠ 0 then (g.1, .inr ⟨code, 0, 0, a⟩) else (g.1, .inl p)

/-- The word at an address of its recorded loop body, which the loop buffer serves to its owner (R189). -/
def CoreSt.loopWord (k : CoreSt) (t a : Nat) : Option IWord :=
  match k.loopBuf with
  | some b => if b.task = t ∧ !b.filling ∧ b.start ≤ a ∧ a ≤ b.last then mGet? b.words a else none
  | none => none

/-- FETCH_FILL: one more word enters a task's fetch queue (R163). A word of a recorded loop body comes from the loop buffer, with no
access (R189, log 106). A fault is kept only where the word it concerns would issue next; a channel held for retraining keeps the
fetch waiting (R467). -/
def fetchFill (t : Nat) (stale : Bool) (v : Vig) (ch : Chip) : Chip :=
  let x := ch.task t
  let k := tCore t
  if x.fq.length ≥ 8 ∨ x.ffault.isSome ∨ x.dead ∨ (ch.core k).inReset ∨ !(x.bound.isSome ∨ (coreSvc k ∧ x.pcc ≠ Cap.null))
  then ch
  else
    let a := x.nextFetch
    let pcc := movePcc x.pcc a
    let put := fun (c : Chip) (w : IWord) => c.updTask t (fun x => { x with fq := x.fq ++ [(a, w)] })
    if (fetchCheck pcc).isSome then ch
    else
      match (ch.core k).loopWord t a with
      | some w => put ch w
      | none =>
        match ch.fetchAcc v t pcc a with
        | (c, .inr f) => if x.fetchNow then c.updTask t (fun x => { x with ffault := some f }) else c
        | (c, .inl p) =>
          if c.heldFor v t [p] && !(stale && (mGet? (c.core k).icache (p.pa / 64)).isSome) then c
          else
            let r := c.fetchWord v t p stale
            put r.2 r.1

/-- DIVIDE_COMPLETE (R182): the divide in progress in the core ends; its core has by then reached the cycle. -/
def divideComplete (t id : Nat) (ch : Chip) : Chip :=
  match ch.findOp t id with
  | none => ch
  | some o =>
    let k := tCore t
    let first := ch.tasks.all (fun e => tCore e.1 ≠ k || e.2.ops.all (fun p => p.kind ≠ .div || o.due ≤ p.due))
    if o.kind ≠ .div ∨ !first then ch
    else
      let ch := ch.updCore k (fun c => { c with cyc := max c.cyc o.due })
      let ch := if o.drop then ch else
        ch.wrEntry o.dst (Cap.ofNat (divResult o.fn (BitVec.ofNat 64 o.a.addr) (BitVec.ofNat 64 o.b.addr)).toNat)
      ch.endOp t id

/-- WAITQ_WAKE (R253, R139): a task yielded in WAITQ whose queue holds an enabled event becomes ready with its WAITQ
completed. -/
def waitqWake (t : Nat) (v : Vig) (ch : Chip) : Chip :=
  let x := ch.task t
  match x.wait with
  | .waitq e pd _ =>
    if (x.halted && !x.stepping) || ch.leaving t then ch
    else
      match ch.takeEvent t with
      | none => ch
      | some (ev, c) =>
        let key := outKey t
        let stamp := (c.clu key).waitStamp
        let c := (c.giveEvent v t e (e + 1) pd ev).retire v t x.tenant 0 4 none
        ((c.updTask t (fun x => { x with woken := some stamp })).updClu key (fun k => { k with waitStamp := k.waitStamp + 1 })).stepDone v t x
  | _ => ch

/-- FETCH_FILL. -/
def execFetchFill (t : Nat) (stale : Bool) (s : State) : Out := chipStep (fetchFill t stale) s
/-- DIVIDE_COMPLETE. -/
def execDivideComplete (t id : Nat) (s : State) : Out := chipStep (fun _ ch => divideComplete t id ch) s
/-- WAITQ_WAKE. -/
def execWaitqWake (t : Nat) (s : State) : Out := chipStep (waitqWake t) s

end Sys2Proof.Machine
end

