-- ==== Sys2Proof/Machine/Place.lean ====
section
/-! DEFINITION. Placing a compartment in a cluster (R243): queue slots and rings in the event area. -/

namespace Sys2Proof.Machine

/-- The 64-byte units that a ring of 2^q entries takes in the event area: 32 bytes and a class byte an entry, each part
rounded up (R243). -/
def ringUnits (q : Nat) : Nat := (32 * 2 ^ q + 63) / 64 + (2 ^ q + 63) / 64

/-- The event area of a cluster, in 64-byte units of its local memory: start and end (R264). -/
def Chip.evArea (ch : Chip) (c : Nat) : Nat × Nat :=
  let b := ch.fld SCH_EVAREA SCH_EVAREA_BASE (c / 16) [c % 16]
  let s := ch.fld SCH_EVAREA SCH_EVAREA_SIZE (c / 16) [c % 16]
  (64 * b, 64 * min 256 (b + s))

/-- The units of a cluster's event area that rings take: start and end of each. -/
def Cluster.rings (k : Cluster) : List (Nat × Nat) := k.slots.map (fun e => (e.2.off, e.2.off + ringUnits e.2.qlog2))

/-- A range of units is free in the event area. -/
def Chip.unitsFree (ch : Chip) (c lo hi : Nat) : Bool :=
  let a := ch.evArea c
  a.1 ≤ lo && hi ≤ a.2 && (ch.clu c).rings.all (fun r => hi ≤ r.1 || r.2 ≤ lo)

/-- The lowest free run of the event area that holds a ring (R243). -/
def Chip.ringAt (ch : Chip) (c q : Nat) : Option Nat :=
  let cand := (ch.evArea c).1 :: (ch.clu c).rings.map (·.2)
  (cand.filter (fun o => ch.unitsFree c o (o + ringUnits q))).foldl (fun (b : Option Nat) o =>
    some (match b with
      | none => o
      | some m => min m o)) none

/-- The lowest-numbered free slot of a cluster (R243). -/
def Cluster.slotFree (k : Cluster) : Option Nat := (List.range 1024).find? (fun i => (mGet? k.slots i).isNone)

/-- The slot and ring that a compartment of queue size 2^q would take in a cluster (R243); a compartment of capacity 0
takes none. -/
def Chip.placeIn (ch : Chip) (c q : Nat) : Option (Nat × Nat) :=
  if q = 0 then some (0, 0)
  else
    match (ch.clu c).slotFree, ch.ringAt c q with
    | some s, some o => some (s, o)
    | _, _ => none

/-- Take the slot and ring of a placement, with events in its first entries (R243). -/
def Chip.takePlace (ch : Chip) (c id q : Nat) (p : Nat × Nat) (evs : List Ev) : Chip :=
  if q = 0 then ch
  else
    let s : EvSlot := ⟨id, q, p.2, List.range evs.length, (evs.length + 2 ^ q - 1) % 2 ^ q⟩
    let ram := (evs.zipIdx).foldl (fun m e => m.evPut c s e.2 e.1) ch.ram
    ({ ch with ram := ram }).updClu c (fun k => { k with slots := mSet k.slots p.1 s })

/-- The windows of a task in a cluster (R82). -/
def Chip.cluWindows (ch : Chip) (c : Nat) : Nat := ch.windows (c / 16 * 256 + c % 16 * 16)

/-- The groups a task of a cluster holds (R99). -/
def Chip.cluGroups (ch : Chip) (c : Nat) : Nat := ch.perTask (c / 16 * 256 + c % 16 * 16) / 8

/-- The largest free run of a cluster's event area, in 4 KiB units (R264). -/
def Chip.areaFree (ch : Chip) (c : Nat) : Nat :=
  let a := ch.evArea c
  let starts := a.1 :: (ch.clu c).rings.map (·.2)
  let len := fun (o : Nat) =>
    let nxt := (ch.clu c).rings.foldl (fun m r => if o ≤ r.1 then min m r.1 else m) a.2
    if ch.unitsFree c o nxt then nxt - o else 0
  starts.foldl (fun m o => max m (len o)) 0 / 64

/-- Whether a cluster fits a compartment (R438). -/
def Chip.fits (ch : Chip) (c wneed q : Nat) : Bool := wneed ≤ ch.cluWindows c && (ch.placeIn c q).isSome

end Sys2Proof.Machine
end

