-- ==== Sys2Proof/Machine/Sched.lean ====
section
/-! DEFINITION. Lamplighter (R245 to R263): selection, slices, budgets, binding and unbinding, events, balancing, moves. -/

namespace Sys2Proof.Machine

/-- The tasks of a core that could issue and are not among `stalled` (R255), in ascending number. -/
def Chip.readyTasks (ch : Chip) (k : Nat) (stalled : List Nat) : List Nat :=
  (ch.tasks.filter (fun e => tCore e.1 = k && ch.ready e.1 && !stalled.contains (tNum e.1))).map (·.1)

/-- The ready task that was woken first since the last switch point (R256). -/
def Chip.firstWoken (ch : Chip) (r : List Nat) : Option Nat :=
  ((r.filterMap (fun t => (ch.task t).woken.map (fun n => (n, t)))).foldl (fun (b : Option (Nat × Nat)) e =>
    match b with
    | none => some e
    | some m => if e.1 < m.1 then some e else some m) none).map (·.2)

/-- R256: the next holder among the ready tasks. -/
def Chip.select (ch : Chip) (k : Nat) (r : List Nat) : Option Nat :=
  match ch.firstWoken r with
  | some t => some t
  | none =>
    let svc := r.filter (fun t => (ch.task t).svc)
    let first := !coreSvc k && ch.fld SCH_CTRL SCH_CTRL_SVC_FIRST (coreHalf k) [k / 16 % 16] = 1
    let r := if first && !svc.isEmpty then svc else r
    let last := (ch.core k).lastHolder
    match r.find? (fun t => tNum t > last) with
    | some t => some t
    | none => r.head?

/-- The slice of a task, in cycles (R256). -/
def Chip.sliceOf (ch : Chip) (k t : Nat) : Nat :=
  let unit := if coreSvc k then 8 else ch.fld SCH_CTRL SCH_CTRL_UNIT (coreHalf k) [k / 16 % 16]
  max 1 (ch.task t).weight * max 1 unit

/-- A task that is given the slot anew refills its fetch queue from its PCC (R163); an instruction of it that has begun, or the
second of an open pair, stays. -/
def Task.refetch (x : Task) : Task :=
  let n := if x.pairOpen || x.wait ≠ .none || x.multi.isSome then
      match x.fq with
      | w :: _ => if wMaj w.2.toNat = 0x34 then 2 else 1
      | [] => 0
    else 0
  { x with fq := x.fq.take n, ffault := none }

/-- Give the issue slot of a core to the task that R256 selects; a change of holder costs one cycle, and is a task switch (R163). -/
def Chip.switch (ch : Chip) (k : Nat) (stalled : List Nat) : Chip :=
  let old := (ch.core k).holder
  let r := ch.readyTasks k stalled
  match ch.select k r with
  | none => ch.updCore k (fun c => { c with holder := none })
  | some t =>
    let sl := ch.sliceOf k t
    let ch := if old.isSome && old ≠ some (tNum t) then ch.idle k 1 else ch
    let ch := if old ≠ some (tNum t) then ch.updTask t Task.refetch else ch
    let ch := ((ch.tasks.map (·.1)).filter (fun u => tCore u = k)).foldl (fun c u => c.updTask u (fun x => { x with woken := none })) ch
    ch.updCore k (fun c => { c with holder := some (tNum t), lastHolder := tNum t, slice := sl })

/-- SWITCH_POINT (R255, R256): the holder stopped being ready, its slice has ended with another task ready, or a task was
woken; never where no event is taken (R168, R193). `stalled` are the tasks that R173 holds. -/
def switchPoint (k : Nat) (stalled : List Nat) (ch : Chip) : Chip :=
  let r := ch.readyTasks k stalled
  let c := ch.core k
  let due :=
    match c.holder with
    | none => !r.isEmpty
    | some n => !r.contains (k * 64 + n) || (!(ch.task (k * 64 + n)).busy &&
        ((c.slice = 0 && r.any (fun t => tNum t ≠ n)) || r.any (fun t => (ch.task t).woken.isSome)))
  if due && !c.inReset then ch.switch k stalled else ch

/-- SLICE_END (R255): with no other task ready the holder keeps the slot and its slice restarts. -/
def sliceEnd (k : Nat) (stalled : List Nat) (ch : Chip) : Chip :=
  let c := ch.core k
  match c.holder with
  | none => ch
  | some n =>
    if c.slice ≠ 0 then ch
    else if (ch.readyTasks k stalled).any (fun t => tNum t ≠ n) then
      if (ch.task (k * 64 + n)).busy && !stalled.contains n then ch else ch.switch k stalled
    else
      let sl := ch.sliceOf k (k * 64 + n)
      ch.updCore k (fun c => { c with slice := sl })

/-- A task is unbound as by a kill (R260): nothing is saved, and the compartment's next binding is fresh. -/
def Chip.killUnbind (ch : Chip) (t : Nat) (r : CompRec) : Chip :=
  let ch := ((ch.flush t).updTask t Task.stopRep).freeTask t
  let ch := { ch with ram := (ch.ram.put (r.saveAt + 0x20C0) 8 0).put (r.saveAt + 0x20C8) 8 0, carry := mDel ch.carry r.id }
  (ch.setFlag r.id fSaved false).setFlag r.id fVsaved false

/-- BUDGET_KILL (R259, R260). -/
def budgetKill (t : Nat) (v : Vig) (ch : Chip) : Chip :=
  let x := ch.task t
  match x.bound.bind ch.record with
  | none => ch
  | some r =>
    if r.budget = 0 ∨ x.evcount < r.budget ∨ x.busy then ch
    else
      let id := r.id
      let path := Chip.taskPath v ch t
      let ch := ch.killUnbind t r
      let ch := ch.cnt SCH_KILLS SCH_KILLS_COUNT (compHalf id) [r.cluster]
      let ch := ch.notify id (leBytes 8 x.lastPc ++ leBytes 4 r.budget ++ leBytes 4 0 ++ leBytes 2 id ++
        leBytes 2 r.tenant ++ leBytes 4 0 ++ leBytes 2 path ++ leBytes 5 0 ++ [2])
      (ch.meter (compHalf id) v.parity r.tenant 19 1).repend id

/-- The compartment may be bound in cluster `c` now (R248). -/
def Chip.bindable (ch : Chip) (c id : Nat) : Bool :=
  match ch.record id with
  | none => false
  | some r =>
    (ch.boundTo id).isNone && !r.flag fPaused && !r.flag fExtinguished && !r.flag fMoving && !r.flag fCompound &&
      r.wneed ≤ ch.cluWindows c && r.cluster = c % 16 && (ch.queued r).any (fun e => tb (ch.savedMask r) e.cls)

/-- The task is free to be bound (R248): no compartment, and no long operation of an earlier one still outstanding. -/
def Chip.taskFree (ch : Chip) (t : Nat) : Bool :=
  let k := ch.core (tCore t)
  (ch.task t).bound.isNone && (ch.task t).ops.isEmpty && k.sb.all (fun e => decide (e.task ≠ t) || e.checked) && !k.inReset && !k.failed && !k.drained && !k.testing

/-- The tasks of a core that compartments are bound to. -/
def Chip.boundCount (ch : Chip) (k : Nat) : Nat := (ch.tasks.filter (fun e => tCore e.1 = k && e.2.bound.isSome)).length

/-- The free task a compartment is bound to (R248): the core with the fewest bound tasks, then the lowest numbers. -/
def Chip.freeTaskOf (ch : Chip) (c : Nat) : Option Nat :=
  let base := c / 16 * 256 + c % 16 * 16
  let cand := (List.range 16).filterMap (fun i =>
    let k := base + i
    ((List.range (ch.tcount k)).find? (fun n => ch.taskFree (k * 64 + n))).map (fun n => (ch.boundCount k, k * 64 + n)))
  (cand.foldl (fun (b : Option (Nat × Nat)) e =>
    match b with
    | none => some e
    | some m => if e.1 < m.1 then some e else some m) none).map (·.2)

/-- One pending failure of a save area (R249), as number `id`; restored failures come before any later one. -/
def failOf (id : Nat) (l : List Byte) : Fail :=
  let b := fieldB l 17 1
  ⟨id, fieldB l 18 1, fieldB l 16 1, bf b 2 1, bf b 3 3, bf b 0 2, fieldB l 0 8, fieldB l 8 8, tb (fieldB l 19 1) 0⟩

/-- The register groups of a task as binding restores them (R252): bit `g` of the map restores group `g`, every other
takes its ZERO mark. -/
def Chip.restoreGroups (ch : Chip) (t a map : Nat) : Chip :=
  let g0 := ch.base t / 8
  (List.range (ch.perTask (tCore t) / 8)).foldl (fun ch g =>
    if tb map g then
      let ch := (List.range 8).foldl (fun c i => c.wrEntry ((g0 + g) * 8 + i) (c.ram.rdCap (a + 128 * g + 16 * i))) ch
      { ch with dirty := mDel ch.dirty (g0 + g), zero := mDel ch.zero (g0 + g) }
    else ch.zeroGroup (g0 + g)) ch

/-- The special registers, failures and current compartment that binding restores from a save area (R249, R252), with what the
hardware kept beside it (R146, R179): number 1 stands for the instruction just before PCC. -/
def Chip.restoreTask (ch : Chip) (x : Task) (a : Nat) (k : Carry) : Task :=
  let m := ch.ram
  let w := fun (i : Nat) => BitVec.ofNat 64 (m.rdLe (a + 0x2060 + 8 * i) 8)
  let s := fun (i : Nat) => BitVec.ofNat 32 (m.rdLe (a + 0x2050 + 4 * i) 4)
  let n := min 8 (m.rdLe (a + 0x20C8) 8)
  { x with
    pcc := m.rdCap (a + 0x2000), epc := m.rdCap (a + 0x2010), rsrc := m.rdCap (a + 0x2020)
    rdst := m.rdCap (a + 0x2030), rsc := m.rdCap (a + 0x2040), status := s 0, estatus := s 1, cause := s 2
    faddr := w 0, fdata := w 1, mh := w 2, ml := w 3, rc := w 4, lc := w 5, ls := w 6, le := w 7, crcpoly := w 8
    vl := w 9, evmask := w 10
    fails := (List.range n).map (fun i => failOf (b2n (k.just = some i)) (m.rdN (a + 0x2100 + 32 * i) 32))
    lastOp := k.just.map (fun _ => 1), org := k.org
    evcount := m.rdLe (a + 0x20D0) 8, comp := m.rdLe (a + 0x20D8) 2, tenant := bf (m.rdLe (a + 0x20D8) 4) 16 12 }

/-- Bind a compartment to a free task (R252). -/
def Chip.bindTo (v : Vig) (ch : Chip) (t id : Nat) (r : CompRec) : Chip :=
  let h := compHalf id
  let keep := (ch.task t).haltReq
  let x0 : Task := { Task.reset with
    bound := some id, weight := ch.weightOf h r.tenant, svc := r.priv = 1, haltReq := keep }
  let ch :=
    if r.flag fSaved then
      (ch.restoreGroups t r.saveAt (ch.ram.rdLe (r.saveAt + 0x20C0) 8)).setTask t (ch.restoreTask x0 r.saveAt (mGet ch.carry id ⟨none, none⟩))
    else
      let ch := (ch.restoreGroups t 0 0).setTask t
        ({ x0 with pcc := r.start, rsc := r.rsc, comp := id, tenant := r.tenant }.putStatus 13 2 r.priv)
      ch.wrReg t 15 r.dsc
  let ch := { ch.updClu (tClu t) (fun k => { k with pend := k.pend.filter (· ≠ id) }) with carry := mDel ch.carry id }
  if r.flag fSaved then ch.saveUse v t r false (ch.ram.rdLe (r.saveAt + 0x20C0) 8) else ch.bindIdle t 12

/-- Both trap entries of a cluster are tagged, so that Lamplighter binds there (R510). -/
def Chip.trapsSet (ch : Chip) (c : Nat) : Bool :=
  (ch.capReg CLU_XVEC_MCH (c / 16) [c % 16]).tag && (ch.capReg CLU_XVEC_SVC (c / 16) [c % 16]).tag

/-- BIND (R248, R252): the oldest pending compartment of a cluster that may be bound takes a free task. -/
def bindNext (c : Nat) (v : Vig) (ch : Chip) : Chip :=
  match (ch.clu c).pend.find? (ch.bindable c), ch.freeTaskOf c with
  | some id, some t =>
    match ch.record id with
    | some r => if (ch.clu c).inReset || !ch.trapsSet c then ch else ch.bindTo v t id r
    | none => ch
  | _, _ => ch

/-- A task that may be unbound as a victim (R248): yielded in WAITQ, no enabled event queued, not in the trap window. -/
def Chip.victimOk (ch : Chip) (t : Nat) : Bool :=
  let x := ch.task t
  x.bound.isSome && !x.tw && !x.halted && (ch.takeEvent t).isNone && (match x.wait with
    | .waitq _ _ _ => true
    | _ => false)

/-- The place of a task in the order of waiting. -/
def Task.waitStamp (x : Task) : Nat :=
  match x.wait with
  | .waitq _ _ n => n
  | _ => 0

/-- The task is the victim of R248: its cluster has a compartment to bind and no free task, and it has waited longest. -/
def Chip.isVictim (ch : Chip) (t : Nat) : Bool :=
  let c := tClu t
  !coreSvc (tCore t) && ch.victimOk t && (ch.clu c).pend.any (ch.bindable c) && (ch.freeTaskOf c).isNone &&
    ch.tasks.all (fun e => tClu e.1 ≠ c || coreSvc (tCore e.1) || !ch.victimOk e.1 ||
      (ch.task t).waitStamp ≤ e.2.waitStamp)

/-- A reason of R251 to unbind a task. -/
def Chip.mustUnbind (ch : Chip) (t : Nat) : Bool :=
  match (ch.task t).bound with
  | none => false
  | some id =>
    let r := ch.record id
    r.isNone || (r.map (fun r => r.flag fPaused || r.flag fMoving)) = some true || (ch.core (tCore t)).drained ||
      ch.isVictim t

/-- UNBIND (R250, R251): it begins when no long operation is outstanding, at an instruction boundary. -/
def unbindTask (t : Nat) (v : Vig) (ch : Chip) : Chip :=
  if !ch.mustUnbind t ∨ !ch.opsDone t ∨ ch.midPair t then ch
  else
    match (ch.task t).bound.bind ch.record with
    | none => ch.unbind t
    | some r => (ch.unbind t).saveUse v t r true (ch.dirtyMap t)

/-- Deliver an event to the queue of its destination on half `h` (R245, R246). -/
def Chip.deliver (v : Vig) (ch : Chip) (e : OutEv) : Chip :=
  let h := compHalf e.dst
  if e.scluster = 17 then
    match (ch.frontOf 8 e.dst).bind (fun f => (ch.record f).map (fun r => (f, r))) with
    | none => ch.ringNotice (compHalf e.scomp) e.ev
    | some (f, r) => (ch.enqueue f r e.ev).getD (ch.cnt SCH_NOTICE_LOST SCH_NOTICE_LOST_COUNT h [r.cluster])
  else
    match ch.record e.dst with
    | none => Chip.undeliverable v ch e 2
    | some r =>
      if r.qgen ≠ e.qgen then Chip.undeliverable v ch e 2
      else if r.qlog2 = 0 then Chip.undeliverable v ch e 3
      else (ch.enqueue e.dst r e.ev).getD (Chip.undeliverable v ch e 1)

/-- EVENT_ARRIVAL (R245, R247, R278): from an outbound buffer (`src` its key) the `n`-th event leaves, for its queue or,
when that lies on the other half, for Wick; from Wick (`src` 64 + half) the oldest EVENT message is taken. -/
def eventArrival (src n : Nat) (v : Vig) (ch : Chip) : Chip :=
  if src ≥ 64 then
    let h := src - 64
    let p := tGet ch.wick h
    match p.inbox.find? (fun m => m.vc = 3) with
    | none => ch
    | some m =>
      match m.body with
      | .event e =>
        if ch.reachable e.dst then
          Chip.deliver v (ch.updWick h (fun p => { p with inbox := p.inbox.erase m })) e
        else ch
      | _ => ch
  else
    let l := (ch.clu src).outb
    match l[n]? with
    | none => ch
    | some e =>
      let h := if src ≥ 32 then src - 32 else src / 16
      if (l.take n).any (fun f => f.dst = e.dst && f.task = e.task) || ch.storesBefore e.task e.before then ch
      else
        let out := ch.updClu src (fun k => { k with outb := k.outb.eraseIdx n })
        if compHalf e.dst = h then if ch.reachable e.dst then Chip.deliver v out e else ch
        else if ch.wickUp h then
          let src24 := if e.scluster ≥ 16 then 0xFFFFFF else bf e.sinfo 10 4 * 2 ^ 16 + bf e.sinfo 6 4 * 2 ^ 8 + bf e.sinfo 0 6
          out.wickSend h (mkMsg 3 e.ev.cls src24 e.dst (.event e))
        else Chip.undeliverable v out e 4

/-- The cycles of a cluster's island since the balance epoch began, at device time `dt` (R261): none while it is in reset. -/
def Cluster.epochCycles (k : Cluster) (dt : Nat) : Nat :=
  (k.fAcc + (if k.inReset then 0 else k.freq * (dt - k.fAt))) / 1000

/-- A balance epoch begins for a cluster. -/
def Cluster.newEpoch (k : Cluster) (dt : Nat) : Cluster := { k with loadCyc := 0, fAcc := 0, fAt := dt }

/-- Start a move of a compartment (R263 step 1); `by` is 0 for the balancer, else 1 + the number of the command. The task it is
bound to, where it is, stands for it until the move completes (R38). -/
def Chip.startMove (ch : Chip) (id d by_ : Nat) : Chip :=
  { ch.setFlag id fMoving true with
    moves := mSet ch.moves id (d, by_)
    moveFrom := match ch.boundTo id with
      | some t => mSet ch.moveFrom id t
      | none => mDel ch.moveFrom id }

/-- The compartment of `s` that R261 would move to `d`, given half the load difference in cycles of `s`. -/
def Chip.balanceCand (ch : Chip) (s d lim : Nat) : Option Nat :=
  let ok := ((ch.compsOf s).filter (fun r =>
      !r.flag fPinned && !r.flag fMoving && !r.flag fPaused && !r.flag fExtinguished &&
        ch.fits d r.wneed r.qlog2 && ch.ram.rdLe (ch.recAddr r.id + 128) 8 ≤ lim)).map
    (fun r => (ch.ram.rdLe (ch.recAddr r.id + 128) 8, r.id))
  (ok.foldl (fun (b : Option (Nat × Nat)) e =>
    match b with
    | none => some e
    | some m => if e.1 > m.1 ∨ (e.1 = m.1 ∧ e.2 < m.2) then some e else some m) none).map (·.2)

/-- The cluster of a list with the largest (or smallest) load; ties go to the lowest number (R261). -/
def extreme (big : Bool) (l : List (Nat × Nat)) : Option (Nat × Nat) :=
  l.foldl (fun b e =>
    match b with
    | none => some e
    | some m => if (if big then e.2 > m.2 else e.2 < m.2) then some e else some m) none

/-- The moves of R261 over cluster loads; `per` gives the core cycles of a cluster in the epoch. -/
def balanceGo (per : Nat → Nat) (thresh : Nat) : Nat → List (Nat × Nat) → Chip → Chip
  | 0, _, ch => ch
  | f + 1, loads, ch =>
    match extreme true loads, extreme false loads with
    | some s, some d =>
      if s.2 - d.2 < thresh then ch
      else
        match ch.balanceCand s.1 d.1 ((s.2 - d.2) * per s.1 / 512) with
        | none => ch
        | some id =>
          let n := ch.ram.rdLe (ch.recAddr id + 128) 8
          let loads := loads.map (fun e =>
            if e.1 = s.1 then (e.1, e.2 - n * 256 / (max 1 (per s.1))) else if e.1 = d.1 then (e.1, e.2 + n * 256 / (max 1 (per d.1))) else e)
          balanceGo per thresh f loads (ch.startMove id d.1 0)
    | _, _ => ch

/-- Write LOADCYC and LOADEV of the compartments of a half and clear the counts (R239). -/
def Chip.epochRecords (ch : Chip) (h : Nat) : Chip :=
  let ch := (ch.tableIds h).foldl (fun c id =>
    if (c.record id).isSome then
      let l := mGet c.compLoad id (0, 0)
      (c.setRec id 128 8 l.1).setRec id 136 8 l.2
    else c) ch
  { ch with compLoad := mDelIf ch.compLoad (fun i => compHalf i = h) }

/-- Insert a compartment by load, largest first, then by ID. -/
def insertLoad (x : Nat × Nat) : List (Nat × Nat) → List (Nat × Nat)
  | [] => [x]
  | y :: r => if x.1 > y.1 ∨ (x.1 = y.1 ∧ x.2 ≤ y.2) then x :: y :: r else y :: insertLoad x r

/-- The load report of R262, in the layout of R434. -/
def Chip.loadReport (ch : Chip) (h : Nat) (loads : List (Nat × Nat)) : List Byte :=
  let all := ((List.range 16).flatMap (fun c => ch.compsOf (h * 16 + c))).map
    (fun r => (ch.ram.rdLe (ch.recAddr r.id + 128) 8, r.id))
  let top := (all.foldr (fun x l => insertLoad x l) []).take 64
  let ent := top.flatMap (fun e => leBytes 2 e.2 ++ leBytes 6 0 ++ leBytes 8 e.1)
  loads.flatMap (fun e => leBytes 2 e.2) ++ ent ++ List.replicate (1024 - ent.length) 0

/-- BALANCE_EPOCH_END (R261, R262). -/
def balanceEpochEnd (h : Nat) (v : Vig) (ch : Chip) : Chip :=
  let e := v.dt / 10000000
  if h ≥ 2 ∨ e ≤ tGet ch.epochs h then ch
  else
    let loads := (List.range 16).map (fun c =>
      let k := ch.clu (h * 16 + c)
      (h * 16 + c, k.loadCyc * 256 / max 1 (16 * k.epochCycles v.dt)))
    let ch := ch.epochRecords h
    let was := ch
    let ch := ch.everyClu h (fun k => k.newEpoch v.dt)
    let ch : Chip := { ch with
      epochs := tSet ch.epochs h e, loads := loads.foldl (fun m x => mSet m x.1 x.2) ch.loads }
    let ch := ch.cntWrap SCH_EPOCH SCH_EPOCH_COUNT h
    let old := ch.moves.filter (fun m => compHalf m.1 = h && m.2.2 = 0 && (ch.boundTo m.1).isSome)
    let ch := old.foldl (fun c m =>
      { (c.setFlag m.1 fMoving false).cnt SCH_BALSTAT SCH_BALSTAT_DEFERRED h with moves := mDel c.moves m.1 }) ch
    if ch.fld SCH_BAL SCH_BAL_MODE h = 1 then ch.hostEvent h 2 (ch.loadReport h loads)
    else balanceGo (fun c => 16 * (was.clu c).epochCycles v.dt) (ch.fld SCH_BAL SCH_BAL_THRESH h) (ch.fld SCH_BAL SCH_BAL_MAXMOVES h) loads ch

/-- What a move came to: still waiting, abandoned, or done (R263). -/
inductive MoveRes where
  | waits | refused (ch : Chip) | done (ch : Chip)
deriving DecidableEq, Repr

/-- Steps 2 to 4 of a move (R263). -/
def Chip.moveStep (ch : Chip) (id d : Nat) : MoveRes :=
  let h := compHalf id
  let quit := { ch.setFlag id fMoving false with moves := mDel ch.moves id }
  match ch.record id with
  | none => .refused { ch with moves := mDel ch.moves id }
  | some r =>
    if (ch.boundTo id).isSome ∨ (ch.clu d).inReset then .waits
    else if ch.cluWindows d < r.wneed then .refused (quit.repend id)
    else
      let status := ch.ram.rdLe (r.saveAt + 0x2050) 4
      let map := ch.ram.rdLe (r.saveAt + 0x20C0) 8
      let deep := r.flag fSaved && (bf status 8 5 ≥ ch.cluWindows d || map ≥ 2 ^ (ch.cluGroups d))
      if deep then .refused (quit.repend id)
      else
        match ch.placeIn d r.qlog2 with
        | none => .refused (quit.repend id)
        | some p =>
          let s := h * 16 + r.cluster
          let evs := ch.queued r
          let ch := if r.qlog2 = 0 then ch
            else ch.updClu s (fun k => { k with slots := mDel k.slots r.qslot, pend := k.pend.filter (· ≠ id) })
          let ch := ch.takePlace d id r.qlog2 p evs
          let ch := ((ch.setRec id 110 1 (d % 16)).setRec id 111 1 (p.1 / 256)).setRec id 112 1 (p.1 % 256)
          .done (({ ch.setFlag id fMoving false with moves := mDel ch.moves id }).repend id)

/-- COMPARTMENT_MOVE (R263) of a move that has started and whose compartment is no longer bound. A move of a command
leaves its end to be reported: the command's number and 1 when done, 0 when refused. -/
def compartmentMove (id : Nat) (ch : Chip) : Chip :=
  match mGet? ch.moves id with
  | none => ch
  | some (d, by_) =>
    let h := compHalf id
    let note := fun (c : Chip) (n : Nat) => if by_ = 0 then c else { c with moveEnds := c.moveEnds ++ [(by_ - 1, n)] }
    if d / 16 ≠ h then ch
    else
      match ch.moveStep id d with
      | .waits => ch
      | .refused c => if by_ = 0 then c.cnt SCH_BALSTAT SCH_BALSTAT_DEFERRED h else note c 0
      | .done c => note (c.cnt SCH_BALSTAT SCH_BALSTAT_MOVES h) 1

/-- SWITCH_POINT. -/
def execSwitchPoint (k : Nat) (stalled : List Nat) (s : State) : Out := chipStep (fun _ ch => switchPoint k stalled ch) s
/-- SLICE_END. -/
def execSliceEnd (k : Nat) (stalled : List Nat) (s : State) : Out := chipStep (fun _ ch => sliceEnd k stalled ch) s
/-- BUDGET_KILL. -/
def execBudgetKill (t : Nat) (s : State) : Out := chipStep (budgetKill t) s
/-- BIND. -/
def execBind (c : Nat) (s : State) : Out := chipStep (bindNext c) s
/-- UNBIND. -/
def execUnbind (t : Nat) (s : State) : Out := chipStep (unbindTask t) s
/-- EVENT_ARRIVAL. -/
def execEventArrival (src n : Nat) (s : State) : Out := chipStep (eventArrival src n) s
/-- BALANCE_EPOCH_END. -/
def execBalanceEpochEnd (h : Nat) (s : State) : Out := chipStep (balanceEpochEnd h) s
/-- COMPARTMENT_MOVE. -/
def execCompartmentMove (id : Nat) (s : State) : Out := chipStep (fun _ ch => compartmentMove id ch) s

end Sys2Proof.Machine
end

