-- ==== Sys2Proof/Machine/HostOps.lean ====
section
/-! DEFINITION. What the command block writes to the host: buffers, rings, MSI-X messages (R418, R445, R454), and the end of a
command (R425, R427, R455). -/

namespace Sys2Proof.Machine

/-- The bytes `d` written to host memory at a bus address, while the half's PCIe link is up (R567). -/
def Chip.hostWrite (ch : Chip) (h a : Nat) (d : List Byte) : Chip :=
  if ch.fld PCIE_STAT PCIE_STAT_LINKUP h = 0 then ch
  else
    let n := (List.range d.length).zip d
    ch.updAdrus h (fun x => { x with host := n.foldl (fun m e => mSet m (a + e.1) e.2) x.host })

/-- A dword of the MSI-X table (R454): every vector is masked until the host clears its mask bit. -/
def Adrus.msixWord (x : Adrus) (i : Nat) : Nat := mGet x.msix i (if i % 4 = 3 then 1 else 0)

/-- Signal a vector (R454): its message is sent, or its pending bit is set while it is masked. -/
def Chip.msixSignal (ch : Chip) (h vec : Nat) : Chip :=
  let x := tGet ch.adrus h
  if tb (x.msixWord (4 * vec + 3)) 0 then ch.updAdrus h (fun x => { x with pba := bfSet x.pba vec 1 1 })
  else
    let a := x.msixWord (4 * vec) + x.msixWord (4 * vec + 1) * 2 ^ 32
    (ch.hostWrite h a (leBytes 4 (x.msixWord (4 * vec + 2)))).updAdrus h (fun x => { x with irqs := x.irqs + 1 })

/-- Write a record, with PHASE in bit 0 of byte 63, and what follows it, in the next slot of a ring (R445): none when the
ring is disabled or full. -/
def Chip.ringWrite (ch : Chip) (h k : Nat) (rec rest : List Byte) : Option Chip :=
  match mGet? (tGet ch.adrus h).rings k with
  | none => none
  | some r =>
    if r.size = 0 ∨ r.full then none
    else
      let d := sliceB rec 0 63 ++ [BitVec.ofNat 8 (b2n r.phase)] ++ rest
      let dev := (r.dev + 1) % r.size
      let r' := { r with dev := dev, full := dev = r.host, phase := if dev = 0 then !r.phase else r.phase }
      let ch := ch.hostWrite h (r.bus + r.slot * r.dev) d
      some ((ch.updAdrus h (fun x => { x with rings := mSet x.rings k r' })).msixSignal h r.vector)

/-- RING_DOORBELL (R445): the host returns entries of a ring by its new head. -/
def Chip.ringHead (ch : Chip) (h k v : Nat) : Chip :=
  match mGet? (tGet ch.adrus h).rings k with
  | none => ch
  | some r =>
    if r.size = 0 ∨ v % 65536 ≥ r.size then ch
    else ch.updAdrus h (fun x =>
      { x with rings := mSet x.rings k { r with host := v % 65536, full := r.full && v % 65536 = r.host } })

/-- A command of a half by its number. -/
def Chip.cmd (ch : Chip) (h id : Nat) : Option Cmd := (tGet ch.adrus h).cmds.find? (fun c => c.id = id)

/-- Change a command of a half. -/
def Chip.updCmd (ch : Chip) (h id : Nat) (f : Cmd → Cmd) : Chip :=
  ch.updAdrus h (fun x => { x with cmds := x.cmds.map (fun c => if c.id = id then f c else c) })

/-- A command's TAG (R421). -/
def Cmd.tag (c : Cmd) : Nat := fieldB c.entry 4 2
/-- A command's OPCODE (R421). -/
def Cmd.op (c : Cmd) : Nat := fieldB c.entry 0 2
/-- A command's DPTR (R424). -/
def Cmd.dptr (c : Cmd) : Nat := fieldB c.entry 56 8
/-- A command's DLEN (R424). -/
def Cmd.dlen (c : Cmd) : Nat := fieldB c.entry 52 4
/-- A PARAM field of a command. -/
def Cmd.par (c : Cmd) (o n : Nat) : Nat := fieldB c.entry o n

/-- The completion of a command that came from this half's host or I3C (R425). -/
def Cmd.compl (c : Cmd) (status : Nat) (res buf : List Byte) : Compl :=
  ⟨c.src, c.org, c.tag, c.sqHead, status, sliceB res 0 24, tb (fieldB c.entry 2 1) 2, c.dptr, buf, c.id⟩

/-- A command ends (R425, R427): its completion waits to be posted, or returns to the half that forwarded it. After a
TIMEOUT it is discarded and counted (R455). -/
def Chip.complete (ch : Chip) (h id status : Nat) (res buf : List Byte) : Chip :=
  match ch.cmd h id with
  | none => ch
  | some c =>
    let ch := ch.updAdrus h (fun x => { x with cmds := x.cmds.filter (fun c => c.id ≠ id) })
    if c.timedOut then ch.cnt CMD_TIMEOUT CMD_TIMEOUT_LATE h
    else
      match c.src with
      | .far =>
        if ch.wickUp h then ch.wickSend h (mkMsg 0 3 0xFFFFFF 0 (.mgmt 3 [c.org, status] (sliceB res 0 24 ++ buf))) else ch
      | _ => ch.updAdrus h (fun x => { x with compl := x.compl ++ [c.compl status res buf] })

/-- The commands of a half that wait for a started operation with opcode `op`, oldest first. -/
def Chip.waitingCmd (ch : Chip) (h op : Nat) : Option Cmd :=
  (tGet ch.adrus h).cmds.find? (fun c => c.op = op && c.started && !c.fwd)

/-- The oldest held host event goes to a command (R434); EVENTS_LOST is held once space has returned. -/
def Chip.giveHostEvent (ch : Chip) (h id : Nat) : Chip :=
  match tGet ch.hev h with
  | [] => ch
  | e :: r =>
    let lost := tGet ch.evLost h
    let back := decide (lost ≠ 0) && decide (r.length ≥ 65535)
    let r' := if back then r ++ [(0x000E, leBytes 4 lost)] else r
    let ch : Chip := { ch with hev := tSet ch.hev h r', evLost := if back then tSet ch.evLost h 0 else ch.evLost }
    ch.complete h id 0 (leBytes 2 e.1 ++ leBytes 2 e.2.length ++ leBytes 4 r'.length ++ leBytes 16 0) e.2

end Sys2Proof.Machine
end

