-- ==== Sys2Proof/Machine/FlowParse.lean ====
section
/-! DEFINITION. The parse graph (R327 to R331), keys and hashes (R332, R333), the classifier (R337, R338) and the rules of
action templates and rewrites (R343, R344), over bytes. -/

namespace Sys2Proof.Machine

/-- `n` bytes that the parser may read at offset `i` (R330). -/
def parseBytes (b : List Byte) (i n : Nat) : Option (List Byte) :=
  if i + n ≤ 256 ∧ i + n ≤ b.length then some (sliceB b i n) else none

/-- A node of a bank (R328); one that nothing has written is all zero. -/
def Flow.node (f : Flow) (bank n : Nat) : List Byte := mGet f.nodes (bank * 64 + n) (List.replicate 64 0)

/-- Extraction `i` of a node: LEN, SRC, OFF, KOFF (R328). -/
def nodeExt (d : List Byte) (i : Nat) : Nat × Nat × Nat × Nat :=
  let x := fieldB d (16 + 4 * i) 4
  (bf x 0 5, bf x 5 1, bf x 6 8, bf x 14 6)

/-- A node is valid (R328). -/
def nodeOk (d : List Byte) : Bool :=
  let w := fun (i : Nat) => fieldB d (4 * i) 4
  tb (w 2) 28 && bf (w 0) 11 5 = 0 && bf (w 1) 24 8 = 0 && bf (w 2) 29 3 = 0 && w 3 = 0 &&
    (List.range 4).all (fun i =>
      let e := nodeExt d i
      bf (w (4 + i)) 20 12 = 0 && e.1 ≤ 16 && (e.1 = 0 || (e.2.2.2 + e.1 ≤ 40 && (e.2.1 = 0 || e.2.2.1 + e.1 ≤ 16)))) &&
    (List.range 8).all (fun i => bf (w (8 + i)) 24 8 = 0)

/-- The walk of the parser: key, flags, header offset, node. -/
structure PSt where
  key : List Byte
  flags : Nat
  off : Nat
  node : Nat
deriving DecidableEq, Repr

/-- What parsing gives (R327): key, flags, profile, end-of-parse offset. -/
structure Parsed where
  key : List Byte
  flags : Nat
  kprof : Nat
  eop : Nat
deriving DecidableEq, Repr

/-- The metadata block (R329). -/
def metaBlock (port flags rxlen : Nat) : List Byte :=
  [BitVec.ofNat 8 port, BitVec.ofNat 8 flags] ++ leBytes 2 rxlen ++ leBytes 12 0

/-- The extractions of a node (R327): a later one wins on overlapping key bytes. -/
def extractKey (d b : List Byte) (port : Nat) (st : PSt) : Option (List Byte) :=
  (List.range 4).foldl (fun acc i =>
    match acc with
    | none => none
    | some key =>
      let e := nodeExt d i
      if e.1 = 0 then some key
      else
        match (if e.2.1 = 1 then some (sliceB (metaBlock port st.flags b.length) e.2.2.1 e.1)
            else parseBytes b (st.off + e.2.2.1) e.1) with
        | none => none
        | some v => some (spliceB key e.2.2.2 v)) (some st.key)

/-- One step of the walk (R327): another node, or the accepted parse; `none` is a parse error. -/
def parseStep (d b : List Byte) (port : Nat) (st : PSt) : Option (PSt ⊕ Parsed) :=
  let w := fun (i : Nat) => fieldB d (4 * i) 4
  if !nodeOk d then none
  else
    let hl := if tb (w 0) 8 then
        (parseBytes b (st.off + bf (w 0) 16 8) 1).map (fun l =>
          ((leNat l &&& bf (w 0) 24 8) * 2 ^ bf (w 0) 9 2) + bf (w 1) 0 8)
      else some (bf (w 0) 0 8)
    let sel := (parseBytes b (st.off + bf (w 1) 8 8) (if tb (w 1) 16 then 2 else 1)).map beNat
    match hl, extractKey d b port st, sel with
    | some hl, some key, some sel =>
      let flags := st.flags ||| bf (w 2) 20 8
      let hit := (List.range 8).find? (fun i => tb (w (8 + i)) 23 && sel &&& bf (w 2) 0 16 = bf (w (8 + i)) 0 16)
      let next := match hit with
        | some i => bf (w (8 + i)) 16 7
        | none => bf (w 1) 17 7
      if next = 0x40 then
        if st.off + hl > b.length then none else some (.inr ⟨key, flags, bf (w 2) 16 4, st.off + hl⟩)
      else if next > 63 then none
      else some (.inl ⟨key, flags, st.off + hl, next⟩)
    | _, _, _ => none

/-- The walk over at most `fuel` nodes. -/
def parseGo (f : Flow) (b : List Byte) (port : Nat) : Nat → PSt → Option Parsed
  | 0, _ => none
  | k + 1, st =>
    match parseStep (f.node f.bank st.node) b port st with
    | none => none
    | some (.inr p) => some p
    | some (.inl s) => parseGo f b port k s

/-- Parse a frame received on a device-wide port from a start node (R327): `none` is a parse error (R330). -/
def parseFrame (f : Flow) (b : List Byte) (port start : Nat) : Option Parsed :=
  parseGo f b port 16 ⟨List.replicate 40 0, 0, 0, start⟩

/-- CRC-32C of bytes with an initial value and final exclusive or (R333), as the CRC32C instruction computes it (R126). -/
def crc32c (init : Nat) (l : List Byte) : Nat :=
  (l.foldl (fun c b => crcp true 32 0x82F63B78 c b.toNat 1) init) ^^^ 0xFFFFFFFF

/-- A key with the bytes at KLEN and above zero (R332). -/
def trimKey (klen : Nat) (key : List Byte) : List Byte := sliceB (key.take klen) 0 40

/-- H1 (R333). -/
def flowH1 (kprof klen : Nat) (key : List Byte) : Nat := crc32c 0xFFFFFFFF (BitVec.ofNat 8 kprof :: key.take klen)
/-- H2 (R333). -/
def flowH2 (seed kprof klen : Nat) (key : List Byte) : Nat := crc32c seed (BitVec.ofNat 8 kprof :: key.take klen)

/-- A classifier rule is valid (R337). -/
def ruleOk (r : List Byte) : Bool :=
  let c := fieldB r 80 4
  let t := fieldB r 84 4
  tb c 0 && bf c 7 9 = 0 && bf t 12 4 = 0 && bf t 28 4 = 0 && fieldB r 88 40 = 0

/-- A rule hits a frame (R338). -/
def ruleHit (r : List Byte) (kprof : Nat) (key : List Byte) : Bool :=
  let c := fieldB r 80 4
  let m := fieldB r 40 40
  ruleOk r && (tb c 1 || bf c 3 4 = kprof) && (leNat key &&& m) = (fieldB r 0 40 &&& m)

/-- The rule that wins (R338): the highest PRIO, then the lowest index. -/
def classify (rules : NMap (List Byte)) (kprof : Nat) (key : List Byte) : Option (List Byte) :=
  rules.foldl (fun best e =>
    if ruleHit e.2 kprof key then
      match best with
      | none => some e.2
      | some b => if fieldB e.2 82 2 > fieldB b 82 2 then some e.2 else some b
    else best) none

/-- A rewrite word's OP, OFF, LEN, DOFF (R344). -/
def rwWord (t : List Byte) (i : Nat) : Nat := fieldB t (16 + 4 * i) 4

/-- A rewrite word obeys R344. -/
def rwOk (w : Nat) : Bool :=
  let len := bf w 10 5
  let doff := bf w 15 8
  bf w 23 9 = 0 &&
    (match bf w 0 2 with
     | 0 => w = 0
     | 1 => 1 ≤ len && len ≤ 16 && doff + len ≤ 32
     | 2 => len = 1 && doff = 0
     | _ => 1 ≤ len && len ≤ 15)

/-- Add the 16-bit words of bytes in wire order. -/
def sum16 : List Byte → Nat
  | a :: b :: r => a.toNat * 256 + b.toNat + sum16 r
  | [a] => a.toNat * 256
  | [] => 0

/-- The ones' complement sum of a sum of at most 2^15 words. -/
def ones16 (s : Nat) : Nat := let t := s % 65536 + s / 65536; t % 65536 + t / 65536

/-- Apply one rewrite to a frame (R344): `none` drops it. -/
def applyRw (t : List Byte) (b : List Byte) (w : Nat) : Option (List Byte) :=
  let off := bf w 2 8
  let len := bf w 10 5
  let doff := bf w 15 8
  let lim := min 256 b.length
  match bf w 0 2 with
  | 0 => some b
  | 1 => if off + len ≤ lim then some (spliceB b off (sliceB t (32 + doff) len)) else none
  | 2 =>
    if off + 1 ≤ lim ∧ 2 ≤ fieldB b off 1 then some (spliceB b off [BitVec.ofNat 8 (fieldB b off 1 - 1)]) else none
  | _ =>
    if off + 2 ≤ lim ∧ doff + 4 * len ≤ lim then
      let z := spliceB b off [0, 0]
      some (spliceB b off (beBytes 2 (65535 - ones16 (sum16 (sliceB z doff (4 * len))))))
    else none

/-- Apply RW0 to RW3 in order (R343). -/
def applyRws (t b : List Byte) : Option (List Byte) :=
  (List.range 4).foldl (fun acc i => acc.bind (fun b => applyRw t b (rwWord t i))) (some b)

/-- ACTION of a template (R343): 0 drop, 1 deliver, 2 port, 3 host. -/
def tplAction (t : List Byte) : Nat := bf (fieldB t 0 4) 1 3
/-- TENANT of a template. -/
def tplTenant (t : List Byte) : Nat := bf (fieldB t 0 4) 20 12
/-- DSLOT of a template. -/
def tplSlot (t : List Byte) : Nat := bf (fieldB t 4 4) 0 12
/-- The virtual base at which a template's tenant maps the packet buffer. -/
def tplPbva (t : List Byte) : Nat := bf (fieldB t 8 4) 0 23 * 2 ^ 25

/-- A port of a half is configured under a quad's mode (R562). -/
def portConfigured (qmode0 qmode1 p : Nat) : Bool :=
  match (if p < 4 then qmode0 else qmode1) with
  | 1 => true
  | 2 => p % 2 = 0
  | 3 => p % 4 = 0
  | _ => false

/-- A template obeys R343 and R344; `cfg` says which device-wide ports are configured (R562). -/
def tplOk (cfg : Nat → Bool) (t : List Byte) : Bool :=
  let w := fieldB t 0 4
  tb w 0 && tplAction t ≤ 3 && (tplAction t ≠ 1 || bf w 4 3 ≠ 7) && bf (fieldB t 4 4) 12 20 = 0 &&
    bf (fieldB t 8 4) 23 9 = 0 && fieldB t 12 4 = 0 && (List.range 4).all (fun i => rwOk (rwWord t i)) &&
    (tplAction t ≠ 2 || cfg (bf w 8 4)) && (!tb w 7 || cfg (bf w 12 4))

end Sys2Proof.Machine
end

