-- ==== Sys2Proof/Machine/FlowBuf.lean ====
section
/-! DEFINITION. The packet buffer (R349, R359 to R362): the flow engine's accesses under its guard (R313), runs, egress
queues and the ports of R562. -/

namespace Sys2Proof.Machine

/-- The flow engine's read of bytes within one line (R313, R316): zero where the guard refuses, which it records. -/
def Chip.engRead1 (v : Vig) (ch : Chip) (h pa n : Nat) : Chip × List Byte :=
  match ch.guardLine h 0x101 false pa with
  | .pass => (ch.busTouch v false pa n, ch.ram.visN pa n)
  | .perm => (ch, List.replicate n 0)
  | .violation r s c => (ch.violate h 0x101 false r s c 0 0 pa, List.replicate n 0)

/-- The flow engine's read, line by line. -/
def Chip.engRead (v : Vig) : Nat → Chip → Nat → Nat → Nat → Chip × List Byte
  | 0, ch, _, _, _ => (ch, [])
  | f + 1, ch, h, pa, n =>
    if n = 0 then (ch, [])
    else
      let k := min n (64 - pa % 64)
      let r := Chip.engRead1 v ch h pa k
      let q := Chip.engRead v f r.1 h (pa + k) (n - k)
      (q.1, r.2 ++ q.2)

/-- The flow engine's write to DRAM within one line (R79, R313, R316): refused, recorded and discarded where the guard says so, and
discarded where the line cannot be read. -/
def Chip.engWrite1 (v : Vig) (ch : Chip) (h pa : Nat) (d : List Byte) : Chip :=
  match ch.guardLine h 0x101 true pa with
  | .pass =>
    let ch := ch.busTouch v true pa d.length
    if ch.lineBad pa then ch else { ch with ram := ch.ram.write pa d }
  | .perm => ch
  | .violation r s c => ch.violate h 0x101 true r s c 0 0 pa

/-- A frame write within one line (R68, R313, R361): every line is written with colour 3, which needs mask bit 3; one of another
colour is claimed. -/
def Chip.frameWrite1 (ch : Chip) (h pa : Nat) (d : List Byte) : Chip :=
  if tb (ch.guardMask h 0x101) 3 then
    { ch with ram := (if ch.ram.colour pa = 3 then ch.ram else ch.ram.claim (alignDown pa 64) 3).write pa d }
  else ch.violate h 0x101 true 2 none 3 0 0 pa

/-- A frame write, line by line; the fuel is the number of bytes. -/
def Chip.frameWriteGo : Nat → Chip → Nat → Nat → List Byte → Chip
  | 0, ch, _, _, _ => ch
  | f + 1, ch, h, pa, d =>
    if d.isEmpty then ch
    else
      let k := 64 - pa % 64
      Chip.frameWriteGo f (ch.frameWrite1 h pa (d.take k)) h (pa + k) (d.drop k)

/-- A frame write (R313, R361). -/
def Chip.frameWrite (ch : Chip) (h pa : Nat) (d : List Byte) : Chip := Chip.frameWriteGo d.length ch h pa d

/-- The frame buffers of a half (R325). -/
def bufCount : Nat := 16352

/-- The address of a buffer. -/
def bufAt (h b : Nat) : Nat := pbBase h + 2048 * b

/-- The buffers of a run for a frame of `len` bytes (R359). -/
def runSize (len : Nat) : Nat := (128 + len + 2047) / 2048

/-- The free buffers of a half. -/
def Chip.bufFree (ch : Chip) (h : Nat) : Nat := bufCount - (tGet ch.runs h).foldl (fun n e => n + e.2.size) 0

/-- The run's buffers are all FREE. -/
def Chip.runFits (ch : Chip) (h first n : Nat) : Bool :=
  first + n ≤ bufCount && (tGet ch.runs h).all (fun e => first + n ≤ e.2.first || e.2.first + e.2.size ≤ first)

/-- The packet-buffer band that a slice tests, as first and last-plus-one buffer (R484, R487). -/
def Chip.bandTested (ch : Chip) (h : Nat) : Option (Nat × Nat) :=
  match (tGet ch.bg h).slice with
  | some s => if s.testing ∧ 2368 ≤ s.num ∧ s.num < 2432 then some (256 * (s.num - 2368), 256 * (s.num - 2368) + 256) else none
  | none => none

/-- A run touches the band under test. -/
def Chip.inBand (ch : Chip) (h first n : Nat) : Bool :=
  match ch.bandTested h with
  | some (a, b) => first < b && a < first + n
  | none => false

/-- Where a run of `n` buffers goes: at the first of `picks` that is free and outside a band under test, else the lowest free run
outside it, else any free run (R359, R487). Which free run is taken is the engine's choice (log 34). -/
def Chip.runPlace (ch : Chip) (h n : Nat) (picks : List Nat) : Option Nat :=
  let cand := picks ++ 0 :: ((ch.bandTested h).map (·.2)).getD 0 :: (tGet ch.runs h).map (fun e => e.2.first + e.2.size)
  let ok := cand.filter (fun f => ch.runFits h f n)
  match ok.find? (fun f => !ch.inBand h f n) with
  | some f => some f
  | none => ok.head?

/-- A slice under way is abandoned and deferred (R487, R488). -/
def Chip.sliceDefer (ch : Chip) (h : Nat) : Chip :=
  match (tGet ch.bg h).slice with
  | none => ch
  | some s =>
    (ch.cnt BG_STSTAT BG_STSTAT_DEFERRED h).updBg h (fun b => { b with slice := none, again := some s.num, sumDef := b.sumDef + 1 })

/-- Allocate a run for a frame of `len` bytes, leaving `reserve` buffers free (R362). -/
def Chip.allocRun (ch : Chip) (h len reserve : Nat) (picks : List Nat) : Option (Nat × Chip) :=
  let n := runSize len
  if ch.bufFree h < n + reserve then none
  else
    match ch.runPlace h n picks with
    | none => none
    | some f =>
      let ch := if ch.inBand h f n then ch.sliceDefer h else ch
      some (f, { ch with runs := tSet ch.runs h (mSet (tGet ch.runs h) f ⟨f, n, false, 0, 0, 0, 0⟩) })

/-- Release a run (R361): its buffers are FREE and its lines return to colour 0. -/
def Chip.releaseRun (ch : Chip) (h first : Nat) : Chip :=
  match mGet? (tGet ch.runs h) first with
  | none => ch
  | some r =>
    let lo := bufAt h first / 64
    let hi := bufAt h (first + r.size) / 64
    { ch with runs := tSet ch.runs h (mDel (tGet ch.runs h) first)
              ram := { ch.ram with tags := mDelIf ch.ram.tags (fun l => lo ≤ l && l < hi) } }

/-- The descriptor of a received frame (R360). -/
def rxDesc (f : Frm) : List Byte :=
  leBytes 2 f.len ++ [BitVec.ofNat 8 f.port, BitVec.ofNat 8 f.kprof] ++ leBytes 4 f.h1 ++ leBytes 8 f.time ++
    leBytes 2 f.len ++ leBytes 2 128 ++ leBytes 2 0 ++ [0, 0] ++ leBytes 40 0

/-- The bytes of a frame in its run. -/
def Chip.frmBytes (v : Vig) (ch : Chip) (h : Nat) (f : Frm) : Chip × List Byte :=
  Chip.engRead v f.len ch h (bufAt h f.first + f.off) f.len

/-- A port (device-wide) is configured (R562). -/
def Chip.portCfg (ch : Chip) (p : Nat) : Bool :=
  let h := p / 8
  portConfigured (ch.fld ETH_CFG ETH_CFG_QMODE0 h) (ch.fld ETH_CFG ETH_CFG_QMODE1 h) (p % 8)

/-- The half is a compute half (R550). -/
def Vig.compute (v : Vig) (h : Nat) : Bool := tb v.straps h

/-- The bytes of a queue's on-die part (R362). -/
def egOnDie (q : List Eg) : Nat := q.foldl (fun n e => if e.ovf.isEmpty then n + e.bytes.length else n) 0

/-- The lines of the overflow area of half `h` that hold frames. -/
def Chip.ovfUsed (ch : Chip) (h : Nat) : List Nat := (tGet ch.flow h).egress.flatMap (fun e => e.2.flatMap (·.ovf))

/-- The address and the size in lines of the overflow area of half `h` (R362). -/
def Chip.ovfArea (ch : Chip) (h : Nat) : Nat × Nat :=
  (h * 2 ^ 40 + ch.fld FLW_OVF_BASE FLW_OVF_BASE_BASE_8M h * 2 ^ 23, min 256 (ch.fld FLW_OVF_SIZE FLW_OVF_SIZE_SIZE_8M h) * 2 ^ 17)

/-- The lines that a frame of `n` bytes takes in the overflow area (log 123), the lowest that are free; none when it is full. -/
def Chip.ovfLines (ch : Chip) (h n : Nat) : Option (List Nat) :=
  let used := ch.ovfUsed h
  let k := (n + 63) / 64
  let a := ch.ovfArea h
  let l := (((List.range (min a.2 (used.length + k))).map (fun i => a.1 + 64 * i)).filter (fun p => !used.contains p)).take k
  if l.length < k then none else some l

/-- Move a frame to the lines that hold it (R362): the engine's writes, checked by its guard. -/
def Chip.ovfPut (v : Vig) (ch : Chip) (h : Nat) (ls : List Nat) (b : List Byte) : Chip :=
  ((List.range ls.length).zip ls).foldl (fun c e => Chip.engWrite1 v c h e.2 (sliceB b (64 * e.1) (min 64 (b.length - 64 * e.1)))) ch

/-- Copy a frame of `n` bytes back from its lines (R362): what the guard refuses reads as zero (R316), and a line that cannot be read as
a free value (R79, log 123). -/
def Chip.ovfGet (v : Vig) (h n : Nat) : List Nat → Chip → Chip × List Byte
  | [], ch => (ch, [])
  | a :: r, ch =>
    let x := Chip.engRead1 v ch h a (min 64 n)
    let x := if ch.lineBad a then ({ x.1 with free := x.1.free + 1 }, leBytes (min 64 n) (Config.freeNat x.1.free)) else x
    let y := Chip.ovfGet v h (n - 64) r x.1
    (y.1, x.2 ++ y.2)

/-- The first frames of a queue that lie in the overflow area come back on-die while they have room there, and the one to be sent next
in any case (R362). The fuel is the length of the queue. -/
def Chip.ovfBack (v : Vig) (h on : Nat) : Nat → List Eg → List Eg → Chip → Chip × List Eg
  | 0, front, q, ch => (ch, front ++ q)
  | f + 1, front, q, ch =>
    match q with
    | [] => (ch, front)
    | e :: r =>
      if e.ovf.isEmpty then Chip.ovfBack v h on f (front ++ [e]) r ch
      else if front.isEmpty ∨ egOnDie front + e.bytes.length ≤ on then
        let x := Chip.ovfGet v h e.bytes.length e.ovf ch
        Chip.ovfBack v h on f (front ++ [{ e with bytes := x.2, ovf := [] }]) r x.1
      else (ch, front ++ q)

/-- The length of a queued frame as the MAC sends it, without preamble and gap (R367). -/
def txLength (n : Nat) : Nat := max n 60 + 4

/-- The half's on-die part of each egress queue, in bytes (R362). -/
def Chip.onDie (ch : Chip) (h : Nat) : Nat := 1024 * ch.fld FLW_EGQ FLW_EGQ_ONCHIP_KB h

/-- Put a frame at the end of an egress queue of half `h`. -/
def Chip.egPush (ch : Chip) (v : Vig) (h p : Nat) (e : Eg) : Chip :=
  ch.updFlow h (fun f => { f with
    egress := mSet f.egress p (mGet f.egress p [] ++ [e])
    ethAt := if f.egress.all (fun q => q.2.isEmpty) then v.clk else f.ethAt })

/-- Release a run of either half. -/
def Chip.releaseOf (ch : Chip) (run : Option (Nat × Nat)) : Chip :=
  match run with
  | some r => ch.releaseRun r.1 r.2
  | none => ch

/-- Queue a frame on an egress port of half `h` (R351, R362): a mirror copy only in the on-die part, any other also in the
overflow area. It is counted against `ten` where it is charged (R366); a frame that finds no room is dropped and counted. -/
def Chip.egQueue (ch : Chip) (v : Vig) (h p : Nat) (b : List Byte) (run : Option (Nat × Nat)) (ten : Option Nat) (copy : Bool) :
    Chip :=
  let q := mGet (tGet ch.flow h).egress p []
  let paid := match ten with
    | some t => (ch.meter h v.parity t 2 1).meter h v.parity t 3 (txLength b.length)
    | none => ch
  if q.all (fun e => e.ovf.isEmpty) ∧ egOnDie q + b.length ≤ ch.onDie h then paid.egPush v h p ⟨b, run, []⟩
  else
    match (if copy then none else ch.ovfLines h b.length) with
    | some ls => (Chip.ovfPut v paid h ls b).egPush v h p ⟨b, run, ls⟩
    | none => (ch.cnt FLW_RX_DROP FLW_RX_DROP_COUNT h).releaseOf run

/-- A frame that PACKET traffic loses because Wick is down (R28). -/
def Chip.packetDrop (ch : Chip) (h : Nat) : Chip :=
  (ch.cnt WCK_PKT_DROPS WCK_PKT_DROPS_COUNT h).flag WCK_ERR WCK_ERR_PKT_DROP h

/-- Send a frame to the other half on Wick PACKET (R20, R21, R335). -/
def Chip.packetSend (ch : Chip) (h kind : Nat) (b : List Byte) (info : List Nat) : Chip :=
  if ch.wickUp h then ch.wickSend h (mkMsg 4 kind 0xFFFFFF 0 (.frame kind b info)) else ch.packetDrop h

/-- The run that a frame for a port of the other half leaves behind until that port has sent it (R351), as its message names it. -/
def portRun (info : List Nat) : Option (Nat × Nat) := if info.getD 3 0 = 0 then none else some (info.getD 4 0, info.getD 3 0 - 1)

/-- Queue a frame on a device-wide egress port: across Wick when the port is the other half's (R39, R351). -/
def Chip.egSend (ch : Chip) (v : Vig) (h p : Nat) (b : List Byte) (run : Option Nat) (ten : Nat) (copy : Bool) : Chip :=
  if p / 8 = h then ch.egQueue v h (p % 8) b (run.map (fun r => (h, r))) (some ten) copy
  else
    let sent := ch.packetSend h 2 b [p, ten, b2n copy, (run.map (· + 1)).getD 0, h]
    if ch.wickUp h then sent else sent.releaseOf (run.map (fun r => (h, r)))

end Sys2Proof.Machine
end

