-- ==== Sys2Proof/Machine/FlowTab.lean ====
section
/-! DEFINITION. The exact-match table (R333, R339 to R341, R355 to R358): buckets, entries, placement, and the update unit's
effect of one update. -/

namespace Sys2Proof.Machine

/-- LOG2B, or none below 10 (R364). -/
def Chip.log2b (ch : Chip) (h : Nat) : Option Nat :=
  let n := min 21 (ch.fld FLW_TBL FLW_TBL_LOG2B h)
  if n < 10 then none else some n

/-- The address of an entry index (R333). -/
def Chip.entAddr (ch : Chip) (h i : Nat) : Nat := h * 2 ^ 40 + ch.fld FLW_TBASE FLW_TBASE_BASE_8M h * 2 ^ 23 + 64 * i

/-- An entry's bytes as the engine reads them: zero where its guard refuses. -/
def Chip.ent (ch : Chip) (h i : Nat) : List Byte :=
  match ch.guardLine h 0x101 false (ch.entAddr h i) with
  | .pass => ch.ram.visN (ch.entAddr h i) 64
  | _ => List.replicate 64 0

/-- The engine reads a bucket: refused lines are recorded by its guard (R318, R319). -/
def Chip.noteBucket (v : Vig) (ch : Chip) (h b : Nat) : Chip :=
  (List.range 4).foldl (fun c w => (Chip.engRead1 v c h (c.entAddr h (4 * b + w)) 64).1) ch

/-- A line of a bucket cannot be corrected (R79, R465). -/
def Chip.bucketBad (ch : Chip) (h b : Nat) : Bool := (List.range 4).any (fun w => ch.lineBad (ch.entAddr h (4 * b + w)))

/-- The control word of an entry (R340). -/
def entCtl (e : List Byte) : Nat := fieldB e 56 8
/-- An entry is valid (R340). -/
def entValid (e : List Byte) : Bool := tb (entCtl e) 0
/-- KPROF of an entry. -/
def entKprof (e : List Byte) : Nat := bf (entCtl e) 1 4
/-- KLEN of an entry. -/
def entKlen (e : List Byte) : Nat := bf (entCtl e) 5 6
/-- TEMPLATE of an entry. -/
def entTpl (e : List Byte) : Nat := bf (entCtl e) 14 12
/-- DSLOT of an entry. -/
def entSlot (e : List Byte) : Nat := bf (entCtl e) 26 12

/-- b1 and b2 of a key (R333). -/
def Chip.buckets (ch : Chip) (h log2b kprof klen : Nat) (key : List Byte) : Nat × Nat :=
  let n := 2 ^ log2b
  let b1 := flowH1 kprof klen key % n
  let b2 := flowH2 (ch.fld FLW_HASHSEED FLW_HASHSEED_SEED h) kprof klen key % n
  (b1, if b2 = b1 then b1 ^^^ 1 else b2)

/-- The entry indices that a key's two buckets hold, in order. -/
def slotsOf (b : Nat × Nat) : List Nat := (List.range 4).map (fun w => 4 * b.1 + w) ++ (List.range 4).map (fun w => 4 * b.2 + w)

/-- The engine reads both buckets of a key. -/
def Chip.noteKey (v : Vig) (ch : Chip) (h kprof klen : Nat) (key : List Byte) : Chip :=
  match ch.log2b h with
  | none => ch
  | some n =>
    let b := ch.buckets h n kprof klen key
    Chip.noteBucket v (Chip.noteBucket v ch h b.1) h b.2

/-- The flow-cache set of a key (R341): H1 bits 13:0. -/
def cacheSet (kprof klen : Nat) (key : List Byte) : Nat := flowH1 kprof klen key % 2 ^ 14

/-- The flow-cache set of an entry. -/
def entSet (e : List Byte) : Nat := cacheSet (entKprof e) (entKlen e) (e.take 40)

/-- An entry matches a profile, KLEN and key (R341). -/
def entMatch (kprof klen : Nat) (key e : List Byte) : Bool :=
  entValid e && entKprof e = kprof && entKlen e = klen && e.take 40 == sliceB key 0 40

/-- The line of the flow cache that matches a profile, KLEN and key (R341). -/
def Chip.cacheKey (ch : Chip) (h kprof klen : Nat) (key : List Byte) : Option CLine :=
  (mGet (tGet ch.flow h).cache (cacheSet kprof klen key) []).find? (fun l => entMatch kprof klen key l.ent)

/-- Change a set of the flow cache. -/
def Chip.cacheUpd (ch : Chip) (h set : Nat) (f : List CLine → List CLine) : Chip :=
  ch.updFlow h (fun x => { x with cache := mPut x.cache set (f (mGet x.cache set [])) [] })

/-- An entry as it stands, with the LASTHIT of its cached copy where it has one (R341). -/
def Chip.entNow (ch : Chip) (h i : Nat) : List Byte :=
  let e := ch.ent h i
  match (mGet (tGet ch.flow h).cache (entSet e) []).find? (fun l => l.idx = i) with
  | some l => l.ent
  | none => e

/-- A commit updates or removes the cached copy of the entry it writes (R341). -/
def Chip.cacheCommit (ch : Chip) (h i : Nat) (e : List Byte) : Chip :=
  let old := ch.ent h i
  let ch := if entValid old && !(entValid e && entSet old = entSet e) then
      ch.cacheUpd h (entSet old) (fun s => s.filter (fun l => l.idx ≠ i)) else ch
  if entValid e then
    ch.cacheUpd h (entSet e) (fun s =>
      s.map (fun l => if entMatch (entKprof e) (entKlen e) (e.take 40) l.ent then ⟨i, e, false⟩ else l))
  else ch

/-- The table's entry that matches a profile, KLEN and key (R341). -/
def Chip.lookupKey (ch : Chip) (h kprof klen : Nat) (key : List Byte) : Option (Nat × List Byte) :=
  match ch.log2b h with
  | none => none
  | some n =>
    (slotsOf (ch.buckets h n kprof klen key)).findSome? (fun i =>
      let e := ch.ent h i
      if entMatch kprof klen key e then some (i, e) else none)

/-- The entry that a lookup finds (R341): in the flow cache, else in the table. -/
def Chip.findKey (ch : Chip) (h kprof klen : Nat) (key : List Byte) : Option (Nat × List Byte) :=
  match ch.cacheKey h kprof klen key with
  | some l => some (l.idx, l.ent)
  | none => ch.lookupKey h kprof klen key

/-- A profile's KLEN (R364): values above 40 act as 40. -/
def Chip.klen (ch : Chip) (h k : Nat) : Nat := min 40 (ch.fld FLW_KPROF FLW_KPROF_KLEN h [k])

/-- The present aging tick (R358). -/
def Chip.tick (ch : Chip) (v : Vig) (h : Nat) : Nat := (v.time / (max 100 (ch.fld FLW_AGE FLW_AGE_TICK_US h) * 1000)) % 65536

/-- A template of a half; one that nothing has written is all zero. -/
def Chip.tpl (ch : Chip) (h i : Nat) : List Byte := mGet (tGet ch.flow h).tpls i (List.replicate 64 0)

/-- Add to a tenant's FLOWS gauge (R368). -/
def Chip.flowGauge (ch : Chip) (h tpl : Nat) (up : Bool) : Chip :=
  let t := tplTenant (ch.tpl h tpl)
  let n := ch.fld MTR_GAUGE MTR_GAUGE_FLOWS h [t]
  ch.setFld MTR_GAUGE MTR_GAUGE_FLOWS h [t] (if up then n + 1 else n - 1)

/-- Pass a commit to the mirror link (R355, R403). -/
def Chip.mirrorCommit (ch : Chip) (v : Vig) (h i : Nat) (e : List Byte) : Chip :=
  if v.mirrors then ch.mirSend h 1 (commitMsg i (entValid e) e) else ch

/-- Write an entry, or clear it, as part of a commit. -/
def Chip.putEnt (ch : Chip) (v : Vig) (h i : Nat) (e : List Byte) : Chip :=
  (Chip.engWrite1 v (ch.cacheCommit h i e) h (ch.entAddr h i) e).mirrorCommit v h i e

/-- The bytes of an entry (R340): the delivery slot's capability is copied when QV is set. -/
def Chip.mkEnt (ch : Chip) (h : Nat) (key : List Byte) (ctl : Nat) : List Byte :=
  let q := if tb ctl 13 then (ch.capReg FLW_DTAB h [bf ctl 26 12]).bits.toNat else 0
  sliceB key 0 40 ++ leBytes 16 q ++ leBytes 8 ctl

/-- The other bucket of an entry that lies in `b` (R356). -/
def Chip.otherBucket (ch : Chip) (h n b : Nat) (e : List Byte) : Nat :=
  let p := ch.buckets h n (entKprof e) (entKlen e) (e.take 40)
  if p.1 = b then p.2 else p.1

/-- The lowest free way of a bucket, as an entry index. -/
def Chip.freeWay (ch : Chip) (h b : Nat) : Option Nat :=
  ((List.range 4).map (fun w => 4 * b + w)).find? (fun i => !entValid (ch.ent h i))

/-- One level of the breadth-first search of R356: each path (the entries to move, first to last) with the full bucket it
has reached is extended by each way of that bucket. -/
def Chip.extendPaths (ch : Chip) (h n : Nat) (ps : List (List Nat × Nat)) : List (List Nat × Nat) :=
  ps.flatMap (fun p => (List.range 4).filterMap (fun w =>
    let i := 4 * p.2 + w
    if p.1.contains i then none else some (p.1 ++ [i], ch.otherBucket h n p.2 (ch.ent h i))))

/-- The first path of at most `fuel` moves that ends at a free way (R356), and the buckets that the search has read. -/
def Chip.searchPath (ch : Chip) (h n : Nat) : Nat → List (List Nat × Nat) → Option (List Nat × Nat) × List Nat
  | 0, _ => (none, [])
  | f + 1, ps =>
    let ext := ch.extendPaths h n ps
    match ext.findSome? (fun p => (ch.freeWay h p.2).map (fun i => (p.1, i))) with
    | some r => (some r, ext.map (·.2))
    | none =>
      let x := ch.searchPath h n f ext
      (x.1, ext.map (·.2) ++ x.2)

/-- Move entries along a path, from the free end back (R356, R357): each is written into its new slot before the old one is
cleared. -/
def Chip.movePath (ch : Chip) (v : Vig) (h : Nat) : List Nat → Nat → Chip
  | [], _ => ch
  | i :: r, dst =>
    let e := ch.entNow h i
    ((ch.putEnt v h dst e).putEnt v h i (List.replicate 64 0)).movePath v h r i

/-- Place a new entry (R356): its index, or none when the insert fails. -/
def Chip.placeEnt (ch : Chip) (v : Vig) (h : Nat) (e : List Byte) : Option Nat × Chip :=
  match ch.log2b h with
  | none => (none, ch)
  | some n =>
    let b := ch.buckets h n (entKprof e) (entKlen e) (e.take 40)
    match (match ch.freeWay h b.1 with
      | some i => some i
      | none => ch.freeWay h b.2) with
    | some i => (some i, ch.putEnt v h i e)
    | none =>
      let x := ch.searchPath h n 3 [([], b.1), ([], b.2)]
      let ch := x.2.foldl (fun c b => Chip.noteBucket v c h b) ch
      match x.1 with
      | none => (none, ch)
      | some (path, free) =>
        match path.head? with
        | none => (none, ch)
        | some i => (some i, (ch.movePath v h path.reverse free).putEnt v h i e)

/-- What an insert came to (R355): inserted, replaced, the entry that stays, or no room. -/
inductive InsRes where
  | done (i : Nat) (replaced : Bool) (ch : Chip)
  | exists_ (i : Nat) (ch : Chip)
  | full (ch : Chip)
deriving DecidableEq, Repr

/-- Commit an insert (R355): `learn` says whose it is, `replace` is FLAGS.REPLACE of a host insert. -/
def Chip.commitInsert (ch : Chip) (v : Vig) (h : Nat) (key : List Byte) (ctl : Nat) (learn replace : Bool) : InsRes :=
  let ctl := bfSet (bfSet ctl 11 1 (b2n learn)) 38 16 (ch.tick v h)
  let e := ch.mkEnt h key ctl
  let ch := Chip.noteKey v ch h (bf ctl 1 4) (bf ctl 5 6) key
  match ch.lookupKey h (bf ctl 1 4) (bf ctl 5 6) key with
  | some (i, old) =>
    if learn ∨ (!tb (entCtl old) 11 ∧ !replace) then .exists_ i ch
    else .done i true ((((ch.flowGauge h (entTpl old) false).putEnt v h i e)).flowGauge h (bf ctl 14 12) true)
  | none =>
    match ch.placeEnt v h e with
    | (none, ch) => .full ch
    | (some i, ch) => .done i false (ch.flowGauge h (bf ctl 14 12) true)

/-- Remove an entry (R355). -/
def Chip.removeEnt (ch : Chip) (v : Vig) (h i : Nat) : Chip :=
  (ch.flowGauge h (entTpl (ch.ent h i)) false).putEnt v h i (List.replicate 64 0)

/-- An entry with another LASTHIT. -/
def entHit (e : List Byte) (t : Nat) : List Byte := e.take 56 ++ leBytes 8 (bfSet (entCtl e) 38 16 t)

/-- Write the LASTHIT of a cached entry to the table (R341), on eviction or when the aging scan visits the entry. -/
def Chip.cacheBack (ch : Chip) (v : Vig) (h : Nat) (l : CLine) : Chip :=
  if l.newer then Chip.engWrite1 v ch h (ch.entAddr h l.idx) l.ent else ch

/-- The engine sets LASTHIT of entry `i`, in the table and in its cached copy. -/
def Chip.putHit (ch : Chip) (v : Vig) (h i t : Nat) : Chip :=
  let e := entHit (ch.entNow h i) t
  (Chip.engWrite1 v ch h (ch.entAddr h i) e).cacheUpd h (entSet e) (fun s => s.map (fun l => if l.idx = i then ⟨i, e, false⟩ else l))

/-- A hit on entry `i` of bytes `e` (R341, R358): LASTHIT is updated in the flow cache, which takes the entry where it does not hold it;
which way of a full set it takes is a free choice (log 124). A band out of use holds nothing: the table takes LASTHIT (R487; 256 sets in
a row, log 128). -/
def Chip.touchEnt (ch : Chip) (v : Vig) (h i : Nat) (e : List Byte) : Chip :=
  let new : CLine := ⟨i, entHit e (ch.tick v h), true⟩
  let set := mGet (tGet ch.flow h).cache (entSet e) []
  if ch.bandOff h (2432 + entSet e / 256) then ch.putHit v h i (ch.tick v h)
  else if set.any (fun l => l.idx = i) then
    ch.cacheUpd h (entSet e) (fun s => s.map (fun l => if l.idx = i then new else l))
  else if set.length < 16 then ch.cacheUpd h (entSet e) (fun s => s ++ [new])
  else
    let p := ch.pick 16
    let ch := match set[p.1]? with
      | some l => p.2.cacheBack v h l
      | none => p.2
    ch.cacheUpd h (entSet e) (fun s => s.eraseIdx p.1 ++ [new])

/-- The aging scan visits entry `i`: the table takes the LASTHIT of its cached copy (R341). -/
def Chip.cacheSync (ch : Chip) (v : Vig) (h i : Nat) : Chip :=
  let e := ch.ent h i
  match (mGet (tGet ch.flow h).cache (entSet e) []).find? (fun l => l.idx = i) with
  | some l => (ch.cacheBack v h l).cacheUpd h (entSet e) (fun s => s.map (fun l => if l.idx = i then { l with newer := false } else l))
  | none => ch

/-- Whether any entry of the half's table is valid (R339). -/
def Chip.tableUsed (ch : Chip) (h : Nat) : Bool :=
  match ch.log2b h with
  | none => false
  | some n => (List.range (4 * 2 ^ n)).any (fun i => entValid (ch.ent h i))

end Sys2Proof.Machine
end

