-- ==== Sys2Proof/Machine/Crypto.lean ====
section
/-! DEFINITION. SHA-256 and SHA-512 (FIPS 180-4) and Ed25519 (RFC 8032), which R384 to R387, R533 and R577 use. -/

namespace Sys2Proof.Machine

/-- The round constants of SHA-256. -/
def k256 : List Nat :=
    [0x428a2f98, 0x71374491, 0xb5c0fbcf, 0xe9b5dba5, 0x3956c25b, 0x59f111f1, 0x923f82a4, 0xab1c5ed5] ++
    [0xd807aa98, 0x12835b01, 0x243185be, 0x550c7dc3, 0x72be5d74, 0x80deb1fe, 0x9bdc06a7, 0xc19bf174] ++
    [0xe49b69c1, 0xefbe4786, 0x0fc19dc6, 0x240ca1cc, 0x2de92c6f, 0x4a7484aa, 0x5cb0a9dc, 0x76f988da] ++
    [0x983e5152, 0xa831c66d, 0xb00327c8, 0xbf597fc7, 0xc6e00bf3, 0xd5a79147, 0x06ca6351, 0x14292967] ++
    [0x27b70a85, 0x2e1b2138, 0x4d2c6dfc, 0x53380d13, 0x650a7354, 0x766a0abb, 0x81c2c92e, 0x92722c85] ++
    [0xa2bfe8a1, 0xa81a664b, 0xc24b8b70, 0xc76c51a3, 0xd192e819, 0xd6990624, 0xf40e3585, 0x106aa070] ++
    [0x19a4c116, 0x1e376c08, 0x2748774c, 0x34b0bcb5, 0x391c0cb3, 0x4ed8aa4a, 0x5b9cca4f, 0x682e6ff3] ++
    [0x748f82ee, 0x78a5636f, 0x84c87814, 0x8cc70208, 0x90befffa, 0xa4506ceb, 0xbef9a3f7, 0xc67178f2]

/-- The round constants of SHA-512. -/
def k512 : List Nat :=
    [0x428a2f98d728ae22, 0x7137449123ef65cd, 0xb5c0fbcfec4d3b2f, 0xe9b5dba58189dbbc] ++
    [0x3956c25bf348b538, 0x59f111f1b605d019, 0x923f82a4af194f9b, 0xab1c5ed5da6d8118] ++
    [0xd807aa98a3030242, 0x12835b0145706fbe, 0x243185be4ee4b28c, 0x550c7dc3d5ffb4e2] ++
    [0x72be5d74f27b896f, 0x80deb1fe3b1696b1, 0x9bdc06a725c71235, 0xc19bf174cf692694] ++
    [0xe49b69c19ef14ad2, 0xefbe4786384f25e3, 0x0fc19dc68b8cd5b5, 0x240ca1cc77ac9c65] ++
    [0x2de92c6f592b0275, 0x4a7484aa6ea6e483, 0x5cb0a9dcbd41fbd4, 0x76f988da831153b5] ++
    [0x983e5152ee66dfab, 0xa831c66d2db43210, 0xb00327c898fb213f, 0xbf597fc7beef0ee4] ++
    [0xc6e00bf33da88fc2, 0xd5a79147930aa725, 0x06ca6351e003826f, 0x142929670a0e6e70] ++
    [0x27b70a8546d22ffc, 0x2e1b21385c26c926, 0x4d2c6dfc5ac42aed, 0x53380d139d95b3df] ++
    [0x650a73548baf63de, 0x766a0abb3c77b2a8, 0x81c2c92e47edaee6, 0x92722c851482353b] ++
    [0xa2bfe8a14cf10364, 0xa81a664bbc423001, 0xc24b8b70d0f89791, 0xc76c51a30654be30] ++
    [0xd192e819d6ef5218, 0xd69906245565a910, 0xf40e35855771202a, 0x106aa07032bbd1b8] ++
    [0x19a4c116b8d2d0c8, 0x1e376c085141ab53, 0x2748774cdf8eeb99, 0x34b0bcb5e19b48a8] ++
    [0x391c0cb3c5c95a63, 0x4ed8aa4ae3418acb, 0x5b9cca4f7763e373, 0x682e6ff3d6b2b8a3] ++
    [0x748f82ee5defb2fc, 0x78a5636f43172f60, 0x84c87814a1f0ab72, 0x8cc702081a6439ec] ++
    [0x90befffa23631e28, 0xa4506cebde82bde9, 0xbef9a3f7b2c67915, 0xc67178f2e372532b] ++
    [0xca273eceea26619c, 0xd186b8c721c0c207, 0xeada7dd6cde0eb1e, 0xf57d4f7fee6ed178] ++
    [0x06f067aa72176fba, 0x0a637dc5a2c898a6, 0x113f9804bef90dae, 0x1b710b35131c471b] ++
    [0x28db77f523047d84, 0x32caab7b40c72493, 0x3c9ebe0a15c9bebc, 0x431d67c49c100d4c] ++
    [0x4cc5d4becb3e42b6, 0x597f299cfc657e2a, 0x5fcb6fab3ad6faec, 0x6c44198c4a475817]

/-- The initial hash value of SHA-256. -/
def h256 : List Nat := [0x6a09e667, 0xbb67ae85, 0x3c6ef372, 0xa54ff53a, 0x510e527f, 0x9b05688c, 0x1f83d9ab, 0x5be0cd19]

/-- The initial hash value of SHA-512. -/
def h512 : List Nat :=
    [0x6a09e667f3bcc908, 0xbb67ae8584caa73b, 0x3c6ef372fe94f82b, 0xa54ff53a5f1d36f1] ++
    [0x510e527fade682d1, 0x9b05688c2b3e6c1f, 0x1f83d9abfb41bd6b, 0x5be0cd19137e2179]

/-- The width and the rotation amounts of one of the two hashes: word bits, the three of the big and the small sigmas. -/
structure ShaCfg where
  w : Nat
  s0 : Nat × Nat × Nat
  s1 : Nat × Nat × Nat
  e0 : Nat × Nat × Nat
  e1 : Nat × Nat × Nat

/-- SHA-256. -/
def cfg256 : ShaCfg := ⟨32, (7, 18, 3), (17, 19, 10), (2, 13, 22), (6, 11, 25)⟩
/-- SHA-512. -/
def cfg512 : ShaCfg := ⟨64, (1, 8, 7), (19, 61, 6), (28, 34, 39), (14, 18, 41)⟩

/-- Rotate a `w`-bit word right. -/
def rotrN (w n x : Nat) : Nat := (x >>> n) ||| ((x <<< (w - n)) % 2 ^ w)
/-- A small sigma: two rotations and a shift. -/
def smallSig (w : Nat) (r : Nat × Nat × Nat) (x : Nat) : Nat := rotrN w r.1 x ^^^ rotrN w r.2.1 x ^^^ (x >>> r.2.2)
/-- A big sigma: three rotations. -/
def bigSig (w : Nat) (r : Nat × Nat × Nat) (x : Nat) : Nat := rotrN w r.1 x ^^^ rotrN w r.2.1 x ^^^ rotrN w r.2.2 x

/-- The message schedule, newest word first, extended by `n` words. -/
def shaSched (c : ShaCfg) : Nat → List Nat → List Nat
  | 0, ws => ws
  | n + 1, ws =>
    let g := fun i => ws.getD i 0
    shaSched c n ((smallSig c.w c.s1 (g 1) + g 6 + smallSig c.w c.s0 (g 14) + g 15) % 2 ^ c.w :: ws)

/-- One round on the working variables a to h. -/
def shaRound (c : ShaCfg) (s : List Nat) (kw : Nat) : List Nat :=
  match s with
  | [a, b, c', d, e, f, g, h] =>
    let ch := (e &&& f) ^^^ ((2 ^ c.w - 1 - e) &&& g)
    let mj := (a &&& b) ^^^ (a &&& c') ^^^ (b &&& c')
    let t1 := h + bigSig c.w c.e1 e + ch + kw
    let t2 := bigSig c.w c.e0 a + mj
    [(t1 + t2) % 2 ^ c.w, a, b, c', (d + t1) % 2 ^ c.w, e, f, g]
  | s => s

/-- The big-endian words of a block. -/
def shaWords (wb : Nat) : Nat → List Byte → List Nat
  | 0, _ => []
  | n + 1, b => beNat (b.take wb) :: shaWords wb n (b.drop wb)

/-- Compress one block. -/
def shaBlock (c : ShaCfg) (k : List Nat) (s : List Nat) (b : List Byte) : List Nat :=
  let w := (shaSched c (k.length - 16) (shaWords (c.w / 8) 16 b).reverse).reverse
  let r := (k.zip w).foldl (fun s e => shaRound c s (e.1 + e.2)) s
  (s.zip r).map (fun e => (e.1 + e.2) % 2 ^ c.w)

/-- Compress `n` blocks. -/
def shaBlocks (c : ShaCfg) (k : List Nat) : Nat → List Nat → List Byte → List Nat
  | 0, s, _ => s
  | n + 1, s, b => shaBlocks c k n (shaBlock c k s (b.take (2 * c.w))) (b.drop (2 * c.w))

/-- Hash bytes: padding, blocks, digest. -/
def sha (c : ShaCfg) (k h : List Nat) (m : List Byte) : List Byte :=
  let bb := 2 * c.w
  let lb := c.w / 4
  let z := (bb - (m.length + 1 + lb) % bb) % bb
  let p := m ++ [0x80] ++ List.replicate z 0 ++ beBytes lb (8 * m.length)
  (shaBlocks c k (p.length / bb) h p).flatMap (beBytes (c.w / 8))

/-- SHA-256 (FIPS 180-4). -/
def sha256 (m : List Byte) : List Byte := sha cfg256 k256 h256 m
/-- SHA-512 (FIPS 180-4). -/
def sha512 (m : List Byte) : List Byte := sha cfg512 k512 h512 m

/-- The field prime of Ed25519. -/
def edP : Nat := 2 ^ 255 - 19
/-- The group order L. -/
def edL : Nat := 2 ^ 252 + 27742317777372353535851937790883648493
/-- The curve constant d. -/
def edD : Nat := 37095705934669439343138083508754565189542113879843219016388785533085940283555

/-- `b` to the power `e` modulo `m`; the fuel bounds the bits of `e`. -/
def powMod (m : Nat) : Nat → Nat → Nat → Nat
  | 0, _, _ => 1 % m
  | f + 1, b, e => if e = 0 then 1 % m else
      let r := powMod m f (b * b % m) (e / 2)
      if e % 2 = 1 then r * b % m else r

/-- A point in extended homogeneous coordinates (RFC 8032, 5.1.4). -/
structure EdPt where
  x : Nat
  y : Nat
  z : Nat
  t : Nat
deriving DecidableEq, Repr

/-- Subtract in the field. -/
def edSub (a b : Nat) : Nat := (a + edP - b % edP) % edP

/-- Add two points. -/
def edAdd (p q : EdPt) : EdPt :=
  let a := edSub p.y p.x * edSub q.y q.x % edP
  let b := (p.y + p.x) * (q.y + q.x) % edP
  let c := p.t * 2 * edD % edP * q.t % edP
  let d := p.z * 2 * q.z % edP
  let e := edSub b a
  let f := edSub d c
  let g := (d + c) % edP
  let h := (b + a) % edP
  ⟨e * f % edP, g * h % edP, f * g % edP, e * h % edP⟩

/-- The neutral point. -/
def edZero : EdPt := ⟨0, 1, 1, 0⟩

/-- Multiply a point by a number of at most `fuel` bits. -/
def edMul : Nat → Nat → EdPt → EdPt
  | 0, _, _ => edZero
  | f + 1, n, p =>
    let q := edMul f (n / 2) (edAdd p p)
    if n % 2 = 1 then edAdd q p else q

/-- The base point B. -/
def edB : EdPt :=
  let x := 15112221349535400772501151409588531511454012693041857206046113283949847762202
  let y := 46316835694926478169428394003475163141307993866256225615783033603165251855960
  ⟨x, y, 1, x * y % edP⟩

/-- Two points are equal. -/
def edEq (p q : EdPt) : Bool := edSub (p.x * q.z) (q.x * p.z) = 0 && edSub (p.y * q.z) (q.y * p.z) = 0

/-- Encode a point (RFC 8032, 5.1.2). -/
def edEncode (p : EdPt) : List Byte :=
  let i := powMod edP 256 p.z (edP - 2)
  let x := p.x * i % edP
  let y := p.y * i % edP
  leBytes 32 (y + (x % 2) * 2 ^ 255)

/-- Decode a point (RFC 8032, 5.1.3). -/
def edDecode (b : List Byte) : Option EdPt :=
  let n := leNat b
  let sign := n / 2 ^ 255
  let y := n % 2 ^ 255
  if y ≥ edP then none
  else
    let u := edSub (y * y) 1
    let v := (edD * (y * y % edP) + 1) % edP
    let x2 := u * powMod edP 256 v (edP - 2) % edP
    let r := powMod edP 256 x2 ((edP + 3) / 8)
    let x := if r * r % edP = x2 then r else r * powMod edP 256 2 ((edP - 1) / 4) % edP
    if x * x % edP ≠ x2 then none
    else if x = 0 ∧ sign = 1 then none
    else
      let x := if x % 2 = sign then x else edP - x
      some ⟨x, y, 1, x * y % edP⟩

/-- The secret scalar and the prefix of a secret key (RFC 8032, 5.1.5). -/
def edSecret (sk : List Byte) : Nat × List Byte :=
  let h := sha512 sk
  let a := leNat (h.take 32)
  (a % 2 ^ 254 - a % 8 + 2 ^ 254, h.drop 32)

/-- The public key of a secret key. -/
def edPublic (sk : List Byte) : List Byte := edEncode (edMul 256 (edSecret sk).1 edB)

/-- Sign (RFC 8032, 5.1.6). -/
def edSign (sk m : List Byte) : List Byte :=
  let s := edSecret sk
  let pk := edEncode (edMul 256 s.1 edB)
  let r := leNat (sha512 (s.2 ++ m)) % edL
  let rr := edEncode (edMul 256 r edB)
  let k := leNat (sha512 (rr ++ pk ++ m)) % edL
  rr ++ leBytes 32 ((r + k * s.1) % edL)

/-- Verify by the cofactored equation (R577). -/
def edVerify (pk m sig : List Byte) : Bool :=
  let s := leNat (sliceB sig 32 32)
  if s ≥ edL then false
  else
    match edDecode (sliceB pk 0 32), edDecode (sliceB sig 0 32) with
    | some a, some r =>
      let k := leNat (sha512 (sliceB sig 0 32 ++ sliceB pk 0 32 ++ m)) % edL
      edEq (edMul 256 (8 * s) edB) (edAdd (edMul 4 8 r) (edMul 4 8 (edMul 256 k a)))
    | _, _ => false

end Sys2Proof.Machine
end

