-- ==== Sys2Proof/Machine/Meter.lean ====
section
/-! DEFINITION. Meter increments and gauges (R366 to R369), device time and its sources (R373 to R376). -/

namespace Sys2Proof.Machine

/-- The key of a counter: half, bank, tenant, index (R366). -/
def cntKey (h par t i : Nat) : Nat := ((h * 2 + par) * 4096 + t) * 24 + i

/-- A counter of a bank. -/
def Vig.bank (v : Vig) (h par t i : Nat) : Nat := mGet v.banks (cntKey h par t i) 0

/-- Add to a counter of a bank; a counter holds 64 bits. -/
def Vig.addBank (v : Vig) (h par t i n : Nat) : Vig :=
  { v with banks := mPut v.banks (cntKey h par t i) ((v.bank h par t i + n) % 2 ^ 64) 0 }

/-- The key of an accumulator at the blocks' ring interfaces (R369). -/
def incKey (h par t i : Nat) : Nat := ((h * 2 + par) * 4096 + t) * 32 + i

/-- METER_INCREMENT_ARRIVAL (R366, R369): what the blocks of half `h` have counted for a tenant and counter under one
parity reaches the Vigil share. -/
def meterArrival (h par t i : Nat) (v : Vig) (ch : Chip) : Vig × Chip :=
  if h ≥ 2 ∨ par ≥ 2 ∨ t ≥ 4096 ∨ i ≥ 24 then (v, ch)
  else (v.addBank h par t i (mGet ch.inc (incKey h par t i) 0), { ch with inc := mDel ch.inc (incKey h par t i) })

/-- Add one tenant's gauges to its counters (R368). -/
def Vig.addGauges (v : Vig) (ch : Chip) (h t : Nat) : Vig :=
  (v.addBank h v.parity t 8 (ch.fld MTR_GAUGE MTR_GAUGE_MEMPAGES h [t])).addBank h v.parity t 9
    (ch.fld MTR_GAUGE MTR_GAUGE_FLOWS h [t])

/-- A millisecond of half `h`'s gauges is due (R368). -/
def Vig.gaugeDue (v : Vig) (h : Nat) : Bool := decide ((tGet v.gaugeMs h + 1) * 1000000 ≤ v.clk)

/-- GAUGE_TICK (R368, R403): once per millisecond of the oscillator; a device that does not forward adds nothing. -/
def gaugeTick (h : Nat) (ch : Chip) (v : Vig) : Vig :=
  if h ≥ 2 ∨ !v.gaugeDue h then v
  else
    let v : Vig := { v with gaugeMs := tSet v.gaugeMs h (tGet v.gaugeMs h + 1) }
    if v.forwards then (List.range 4096).foldl (fun v t => v.addGauges ch h t) v else v

/-- CRC-16 with polynomial 0x1021 and initial value 0xFFFF, not reflected (R375). -/
def crcTod (l : List Byte) : Nat :=
  l.foldl (fun c b => (List.range 8).foldl (fun c _ => if tb c 15 then ((c * 2) % 65536) ^^^ 0x1021 else (c * 2) % 65536)
    (c ^^^ (b.toNat * 256))) 0xFFFF

/-- TOD_MESSAGE (R375): the message labels the next edge when it is valid. -/
def todMessage (b : List Byte) (v : Vig) : Vig :=
  let good := b.length = 12 ∧ fieldB b 0 2 = 0x0AC5 ∧ crcTod (b.take 10) = fieldB b 10 2 ∧ tb (fieldB b 8 1) 0
  match v.lastEdge with
  | none => v
  | some e =>
    if good ∧ e + 100000000 ≤ v.clk ∧ v.clk ≤ e + 900000000 then { v with label := some (fieldB b 2 6) } else v

/-- A target for device time (R376): a step forward, or a slew. -/
def Vig.target (v : Vig) (t : Nat) : Vig :=
  let e : Int := Int.ofNat t - Int.ofNat v.dt
  if e > 1000000 then { v with dt := t, frac := 0, err := 0, slew := false }
  else { v with err := e * 100, slew := e ≠ 0 }

/-- PPS_EDGE (R374, R375): a rising edge of PPS_IN. -/
def ppsEdge (v : Vig) : Vig :=
  let near := match v.edge with
    | some e => decide (e + 999000000 ≤ v.clk) && decide (v.clk ≤ e + 1001000000)
    | none => false
  let lab := v.label
  let v : Vig := { v with label := none, lastEdge := some v.clk }
  if !near && lab.isNone then v
  else
    let gap := if near then [v.clk - v.edge.getD 0] else []
    let v : Vig := { v with edge := some v.clk, edges := (gap ++ v.edges).take 16 }
    match lab with
    | some s => ({ v with tstate := 1 } : Vig).target (s * 1000000000)
    | none => { v with toderr := satAdd 65535 v.toderr 1, tstate := if v.tstate = 3 then 1 else v.tstate }

/-- HOLDOVER_TIMEOUT (R374). -/
def holdoverTimeout (v : Vig) : Vig :=
  if v.tstate = 1 ∧ (v.edge.getD 0) + 2000000000 ≤ v.clk then { v with tstate := 3 } else v

/-- SLEW_END (R376): nothing of the correction is left. -/
def slewEnd (v : Vig) : Vig := if v.err = 0 then { v with slew := false } else v

/-- VIG_TSTAT (R393). -/
def Vig.tstat (v : Vig) : Nat :=
  v.tstate + b2n v.slew * 4 + b2n (decide (v.err < -6000000000000)) * 8 + v.toderr * 2 ^ 16

/-- METER_INCREMENT_ARRIVAL. -/
def execMeterIncrementArrival (h par t i : Nat) (s : State) : Out := bothStep (meterArrival h par t i) s
/-- GAUGE_TICK. -/
def execGaugeTick (h : Nat) (s : State) : Out := vigStep (gaugeTick h) s
/-- TOD_MESSAGE. -/
def execTodMessage (b : List Byte) (s : State) : Out := vigStep (fun _ v => todMessage b v) s
/-- PPS_EDGE. -/
def execPpsEdge (s : State) : Out := vigStep (fun _ v => ppsEdge v) s
/-- HOLDOVER_TIMEOUT. -/
def execHoldoverTimeout (s : State) : Out := vigStep (fun _ v => holdoverTimeout v) s
/-- SLEW_END. -/
def execSlewEnd (s : State) : Out := vigStep (fun _ v => slewEnd v) s

end Sys2Proof.Machine
end

