-- ==== Sys2Proof/Machine/Ledger.lean ====
section
/-! DEFINITION. Minute boundaries, seals, roots, the ledger flash and countersignatures (R377 to R391). -/

namespace Sys2Proof.Machine

/-- A minute of device time in nanoseconds. -/
def minuteNs : Nat := 60000000000

/-- The bytes of a secret key (R386, R387): key 0 is the identity key, key g the ledger key of KEYGEN g. -/
def keyBytes (g : Nat) : List Byte := (Config.secretKey g).toList

/-- The root flags that the time state gives (R374, R376). -/
def Vig.timeFlags (v : Vig) : Nat :=
  b2n (v.tstate = 0 || decide (v.err < -6000000000000)) + b2n (v.tstate = 3) * 2 + b2n (v.tstate = 2) * 4

/-- MINUTE_BOUNDARY (R377): device time has reached a minute that no boundary has covered. It waits for the seal before it
to form its records, and for the gauge millisecond that has ended (R368). -/
def minuteBoundary (v : Vig) : Vig :=
  let m := v.dt / minuteNs
  if m ≤ v.boundary ∨ v.sealing.isSome ∨ v.gaugeDue 0 ∨ v.gaugeDue 1 then v
  else
    { v with
      parity := 1 - v.parity, boundary := m, signNow := v.signMode, carried := []
      sealing := some { since := v.clk, minute := m, span := m - v.boundary, flags := v.timeFlags, par := v.parity
                        arrived := false, part := false, marks := v.carried, finals := ⟨false, false⟩ } }

/-- An increment of half `h` counted under a parity is still on its way (R369). -/
def Chip.incLeft (ch : Chip) (h par : Nat) : Bool :=
  ch.inc.any (fun e => incKey h par 0 0 ≤ e.1 && decide (e.1 < incKey h par 4096 0))

/-- Billable counters 0 to 15 of a tenant in a bank (R366). -/
def Vig.bill (v : Vig) (h par t : Nat) : List Nat := (List.range 16).map (v.bank h par t)

/-- Add lists of counts. -/
def addCounts (a b : List Nat) : List Nat := (List.range 16).map (fun i => a.getD i 0 + b.getD i 0)

/-- Add counts to the entry of a tenant. -/
def addEntry (m : NMap (List Nat)) (k : Nat) (c : List Nat) : NMap (List Nat) := mSet m k (addCounts (mGet m k []) c)

/-- HALF1_TOTALS_ARRIVAL (R378, R380): a late set joins the counts carried into the next seal; else half 1's totals of the
seal in progress are complete. Its own increments have arrived by T + 1 ms. -/
def half1Totals (ch : Chip) (v : Vig) : Vig :=
  if !v.late.isEmpty then
    { v with carry := v.late.foldl (fun m e => addEntry m (4096 + e.1) e.2) v.carry, late := [] }
  else
    match v.sealing with
    | none => v
    | some x =>
      if x.arrived ∨ v.clk < x.since + 1000000 ∨ ch.incLeft 1 x.par then v
      else { v with sealing := some { x with arrived := true } }

/-- PARTIAL_SEAL_TIMEOUT (R380): at T + 1.5 s the seal proceeds with half 0's counts. -/
def partialTimeout (v : Vig) : Vig :=
  match v.sealing with
  | none => v
  | some x =>
    if x.arrived ∨ x.part ∨ v.clk < x.since + 1500000000 then v
    else { v with sealing := some { x with part := true }, ldgStat := bfSet v.ldgStat 2 1 1 }

/-- SPAN and whether it is LONGSPAN (R377). -/
def spanOf (k : Nat) : Nat × Bool := if k ≤ 65535 then (k, false) else (0xFFFF, true)

/-- Some count of a list is not zero. -/
def anyCount (c : List Nat) : Bool := c.any (fun n => n ≠ 0)

/-- A record (R379, R383): tenant, INDEX, seal, the counts of half 0 and half 1 with what is carried for them. -/
def recordBytes (t idx : Nat) (x : Seal) (c0 c1 k0 k1 : List Nat) (carried : Bool) : List Byte :=
  let sum := addCounts (addCounts c0 k0) (addCounts c1 k1)
  let sp := spanOf x.span
  let flags := b2n (sum.any (fun n => n ≥ 2 ^ 48)) + b2n (anyCount c0 || anyCount k0) * 2 + b2n (anyCount c1 || anyCount k1) * 4 +
    b2n x.part * 8 + b2n carried * 16 + b2n sp.2 * 32
  leBytes 2 t ++ leBytes 2 flags ++ leBytes 4 idx ++ leBytes 8 x.minute ++ leBytes 2 sp.1 ++ leBytes 14 0 ++
    sum.flatMap (fun n => leBytes 6 (min n (2 ^ 48 - 1)))

/-- The counts of the tenant in half `h` that the seal takes: none for half 1 when its totals are late. -/
def Vig.sealCounts (v : Vig) (x : Seal) (h t : Nat) : List Nat :=
  if h = 1 ∧ x.part then List.replicate 16 0 else v.bill h x.par t

/-- The tenants that receive a record (R379), in ascending order. -/
def Vig.sealTenants (v : Vig) (x : Seal) : List Nat :=
  (List.range 4096).filter (fun t =>
    anyCount (v.sealCounts x 0 t) || anyCount (v.sealCounts x 1 t) || (mGet? v.carry t).isSome ||
      (mGet? v.carry (4096 + t)).isSome || x.marks.contains t)

/-- The records of a seal (R379, R383). -/
def Vig.sealRecords (v : Vig) (x : Seal) : List (List Byte) :=
  let ts := v.sealTenants x
  ((List.range ts.length).zip ts).map (fun e =>
    let t := e.2
    recordBytes t e.1 x (v.sealCounts x 0 t) (v.sealCounts x 1 t) (mGet v.carry t []) (mGet v.carry (4096 + t) [])
      ((mGet? v.carry t).isSome || (mGet? v.carry (4096 + t)).isSome || x.marks.contains t))

/-- One level of the Merkle tree (R384). -/
def merkleUp : List (List Byte) → List (List Byte)
  | a :: b :: r => sha256 (1 :: (a ++ b)) :: merkleUp r
  | l => l

/-- Levels until one node is left. -/
def merkleGo : Nat → List (List Byte) → List Byte
  | 0, l => l.headD []
  | f + 1, l => if l.length ≤ 1 then l.headD [] else merkleGo f (merkleUp l)

/-- MROOT (R384). -/
def merkle (recs : List (List Byte)) : List Byte :=
  if recs.isEmpty then List.replicate 32 0 else merkleGo 13 (recs.map (fun r => sha256 (0 :: r)))

/-- The slots of the ring (R388). -/
def Vig.ringSlots (v : Vig) : Nat := 1023 * (v.sectors - 2)

/-- The sector and slot of a SEQ (R388). -/
def Vig.slotOf (v : Vig) (s : Nat) : Nat × Nat := let r := s % v.ringSlots; (2 + r / 1023, r % 1023)

/-- The flash address of a slot (R388). -/
def slotAddr (p : Nat × Nat) : Nat := p.1 * 65536 + 64 + 64 * p.2

/-- Bytes of the ledger flash; what nothing programmed is erased. -/
def Vig.flashN (v : Vig) (a n : Nat) : List Byte := (List.range n).map (fun i => mGet v.flash (a + i) 0xFF)

/-- Program bytes: programming clears bits, except those of `stuck`, which fail to clear. -/
def Vig.program (v : Vig) (a : Nat) (d : List Byte) (stuck : Nat := 0) : Vig :=
  let w := (List.range d.length).zip d
  { v with flash := w.foldl (fun m e =>
      mPut m (a + e.1) (mGet m (a + e.1) 0xFF &&& (e.2 ||| BitVec.ofNat 8 (stuck >>> (8 * e.1)))) 0xFF) v.flash }

/-- Erase a sector. -/
def Vig.eraseSector (v : Vig) (s : Nat) : Vig :=
  { v with flash := mDelIf v.flash (fun a => s * 65536 ≤ a && decide (a < s * 65536 + 65536)) }

/-- Clear a bank (R378). -/
def Vig.clearBank (v : Vig) (h par : Nat) : Vig :=
  let lo := (h * 2 + par) * 4096
  { v with banks := mDelIf v.banks (fun k => cntKey h par 0 0 ≤ k && decide (k < cntKey h par 4096 0))
           told := mDelIf v.told (fun k => lo ≤ k && decide (k < lo + 4096)) }

/-- The SEQ of the next root in signing mode `mode` (R386, R390, R391). -/
def Vig.nextSeq (v : Vig) : Nat := v.seqNext + b2n (v.seqSkip && v.signNow = 1)

/-- ROOTMSG (R385, R386). -/
def Vig.rootMsg (v : Vig) (x : Seal) (recs : List (List Byte)) : List Byte :=
  let sp := spanOf x.span
  let flags := x.flags + b2n v.restart * 8 + v.signNow * 16 + b2n x.part * 32 + b2n sp.2 * 64
  let chain := if v.firstKey then List.replicate 32 0 else sha256 (v.flashN (slotAddr (v.slotOf v.seq)) 64)
  [0x58, 0x4C, 0x44, 0x47, 1, BitVec.ofNat 8 flags] ++ leBytes 2 sp.1 ++ leBytes 8 v.nextSeq ++ leBytes 8 x.minute ++
    leBytes 4 recs.length ++ leBytes 4 v.entries ++ chain ++ merkle recs

/-- Half 1's totals of a seal that went on without them (R380). -/
def Vig.lateSet (v : Vig) (x : Seal) : NMap (List Nat) :=
  if x.part then
    (List.range 4096).foldl (fun m t => if anyCount (v.bill 1 x.par t) then addEntry m t (v.bill 1 x.par t) else m) v.late
  else v.late

/-- SEAL_RECORDS_FORMED (R378 to R386): records, tree and root message of the closed minute; its banks are zeroed. The root
before it has been written, since CHAIN is read from its slot; a device that mirrors has sent its FINAL deltas (R403). -/
def recordsFormed (ch : Chip) (v : Vig) : Vig :=
  match v.sealing with
  | none => v
  | some x =>
    if !(x.arrived || x.part) ∨ v.root.isSome ∨ !v.recovered ∨ ch.incLeft 0 x.par ∨ ch.incLeft 1 x.par ∨
        (v.mirrors && !(x.finals.h0 && x.finals.h1)) then v
    else
      let recs := v.sealRecords x
      let s := v.nextSeq
      let r : Root := { seq := s, minute := x.minute, msg := v.rootMsg x recs, recs := recs, sig := none }
      ({ v with
        sealing := none, root := some r, late := v.lateSet x, carry := [], restart := false, firstKey := false
        seqNext := s + 1 + v.signNow, seqSkip := false } : Vig).clearBank 0 x.par |>.clearBank 1 x.par

/-- Half 0 executes the opcodes marked † (R427). -/
def Chip.daggerHalf (ch : Chip) : Nat := if ch.fld CMD_STAT CMD_STAT_READY 0 = 1 then 0 else 1

/-- Hold a block for the host (R382): at most two are held. -/
def Vig.offerBlock (v : Vig) (b : Block) : Vig :=
  if v.blocks.length ≥ 2 then { v with blocks := v.blocks.drop (v.blocks.length - 1) ++ [b], ldgStat := bfSet v.ldgStat 4 1 1 }
  else { v with blocks := v.blocks ++ [b] }

/-- Tell the host of a block (R427, R434). -/
def Chip.blockEvent (ch : Chip) (seq : Nat) (peer : Bool) : Chip :=
  let h := ch.daggerHalf
  if ch.fld CMD_STAT CMD_STAT_READY h = 0 then ch else ch.hostEvent h 8 (leBytes 8 seq ++ [BitVec.ofNat 8 (b2n peer)])

/-- ROOT_SIGNED (R378, R382, R386, R391, R403): the root is signed; the block is offered to the host and the peer, and its
slot is programmed. -/
def rootSigned (v : Vig) (ch : Chip) : Vig × Chip :=
  match v.root with
  | none => (v, ch)
  | some r =>
    if r.sig.isSome then (v, ch)
    else
      let sig := edSign (keyBytes v.entries) r.msg
      let block := r.msg ++ sig ++ r.recs.flatten
      let hc := tb (fieldB r.msg 5 1) 4
      let v' := ({ v with
        root := some { r with sig := some sig }, seq := r.seq, progs := v.progs ++ [(r.seq, sig, true)]
        cs := if hc then v.cs ++ [(r.seq + 1, r.msg ++ sig, v.clk)] else v.cs } : Vig).offerBlock
          { seq := r.seq, minute := r.minute, bytes := block, peer := false, sent := v.mirrors }
      let ch := ch.blockEvent r.seq false
      (v', if v.mirrors then ch.mirSend 0 3 block else ch)

/-- The header of a ring sector (R388). -/
def Vig.sectorHeader (v : Vig) (sec base : Nat) : List Byte :=
  let b := [0x58, 0x4C, 0x52, 0x53] ++ leBytes 4 (mGet v.erases sec 0) ++ leBytes 8 base ++ leBytes 4 v.entries ++ leBytes 40 0
  b ++ leBytes 4 (crc32c 0xFFFFFFFF b)

/-- The sector after a ring sector. -/
def Vig.nextSector (v : Vig) (sec : Nat) : Nat := if sec + 1 < v.sectors then sec + 1 else 2

/-- Slot `p` of SEQ `s` is written: with the 896th slot of its sector the erase of the next one starts, once in each pass (R389). -/
def Vig.eraseAhead (v : Vig) (p : Nat × Nat) (s : Nat) : Vig :=
  if 895 ≤ p.2 ∧ v.ahead ≠ s - p.2 + 1 then { v with erase := some (v.nextSector p.1, 0), ahead := s - p.2 + 1 } else v

/-- FLASH_SLOT_WRITTEN (R381, R388, R389, R391): the oldest program is done, with the bits of `stuck` not cleared; the
sector's header goes with its first slot. A slot that fails verification is left as it is. -/
def slotWritten (stuck : Nat) (v : Vig) : Vig :=
  match v.progs with
  | [] => v
  | (s, d, dev) :: r =>
    let p := v.slotOf s
    let v := if (v.flashN (p.1 * 65536) 64).all (fun b => b = 0xFF) then
        v.program (p.1 * 65536) (v.sectorHeader p.1 (s - p.2)) else v
    let v := v.program (slotAddr p) d stuck
    let v : Vig := if v.flashN (slotAddr p) 64 = d then v else { v with ldgStat := bfSet v.ldgStat 1 1 1 }
    ({ v with progs := r, root := if dev then none else v.root } : Vig).eraseAhead p s

/-- LEDGER_SECTOR_ERASE (R389, R482): the erase under way ends; one that fails verification is repeated up to three
times. -/
def sectorErase (ok : Bool) (v : Vig) : Vig :=
  match v.erase with
  | none => v
  | some (sec, n) =>
    let v : Vig := { v with erases := mSet v.erases sec ((mGet v.erases sec 0 + 1) % 2 ^ 32) }
    if ok then ({ v with erase := none } : Vig).eraseSector sec
    else if n < 3 then { v with erase := some (sec, n + 1), retries := satAdd 65535 v.retries 1 }
    else { v with erase := none }

/-- COUNTERSIGN_TIMEOUT (R391): no valid countersignature for the oldest waiting root within CSWAIT_S seconds. -/
def countersignTimeout (v : Vig) : Vig :=
  match v.cs with
  | [] => v
  | (s, _, at_) :: r =>
    if v.clk < at_ + max 1 v.csWait * 1000000000 then v
    else { v with cs := r, progs := v.progs ++ [(s, List.replicate 64 0, false)], ldgStat := bfSet v.ldgStat 3 1 1 }

/-- LDG_STAT (R393). -/
def Vig.ldgStatus (v : Vig) : Nat := bfSet v.ldgStat 0 1 (b2n (v.sealing.isSome || v.root.isSome))

/-- The anchor in a sector, when its signature verifies (R387). -/
def Vig.anchorIn (v : Vig) (sec : Nat) : Option (List Byte) :=
  let b := v.flashN (sec * 65536) 144
  if b.take 4 = [0x58, 0x4C, 0x41, 0x4E] ∧ edVerify (edPublic (keyBytes 0)) (b.take 80) (b.drop 80) then some b else none

/-- The anchor a reader takes (R387). -/
def Vig.anchor (v : Vig) : Option (List Byte) :=
  match v.anchorIn 0 with
  | some b => some b
  | none => v.anchorIn 1

/-- Write the anchor of the key in force to sectors 0 and 1 (R387); they are erased for it (R482). -/
def Vig.writeAnchor (v : Vig) (first : Nat) : Vig :=
  let b := [0x58, 0x4C, 0x41, 0x4E] ++ leBytes 4 v.entries ++ leBytes 8 first ++ edPublic (keyBytes v.entries) ++
    edPublic (keyBytes 0)
  let b := b ++ edSign (keyBytes 0) b
  (((v.eraseSector 0).program 0 b).eraseSector 1).program 65536 b

/-- The header of a ring sector, when its CRC holds (R390): ERASES and SEQBASE. -/
def Vig.headerOf (v : Vig) (sec : Nat) : Option (Nat × Nat) :=
  let b := v.flashN (sec * 65536) 64
  if b.take 4 = [0x58, 0x4C, 0x52, 0x53] ∧ crc32c 0xFFFFFFFF (b.take 60) = fieldB b 60 4 then
    some (fieldB b 4 4, fieldB b 8 8) else none

/-- The ring sectors. -/
def Vig.ring (v : Vig) : List Nat := (List.range (v.sectors - 2)).map (· + 2)

/-- The SEQBASE that the ring-preceding sectors give a ring sector (R390): its header's, or 1,023 more than that of the sector before it.
The fuel is the number of ring sectors. -/
def Vig.seqBaseBy (v : Vig) : Nat → Nat → Option Nat
  | 0, _ => none
  | n + 1, sec =>
    match v.headerOf sec with
    | some h => some h.2
    | none => (v.seqBaseBy n (if sec = 2 then v.sectors - 1 else sec - 1)).map (· + 1023)

/-- The SEQBASE of a ring sector (R390): its header's, or what its position implies. -/
def Vig.seqBase (v : Vig) (first : Option Nat) (sec : Nat) : Option Nat :=
  match v.seqBaseBy (v.sectors - 2) sec with
  | some b => some b
  | none => first.map (fun f => let p := v.slotOf f; (f + (sec - 2) * 1023) - ((p.1 - 2) * 1023 + p.2))

/-- The last slot of a sector that is not erased. -/
def Vig.lastSlot (v : Vig) (sec : Nat) : Option Nat :=
  (List.range 1023).reverse.find? (fun k => (v.flashN (slotAddr (sec, k)) 64).any (fun b => b ≠ 0xFF))

/-- The highest SEQ whose slot is not erased (R390). -/
def Vig.highest (v : Vig) (first : Option Nat) : Option Nat :=
  v.ring.foldl (fun best sec =>
    match v.seqBase first sec, v.lastSlot sec with
    | some b, some k => some (max (b + k) (best.getD 0))
    | _, _ => best) none

/-- The next root's SEQ that the flash gives (R386, R387, R390): after the highest SEQ found; FIRSTSEQ of the anchor where no root under its
key has been written, and that root is then the first under it (log 125). -/
def Vig.findSeq (v : Vig) : Vig :=
  let first := v.anchor.map (fun b => fieldB b 8 8)
  match v.highest first with
  | some s =>
    if s < first.getD 0 then { v with seq := s, seqNext := first.getD 0, seqSkip := false, firstKey := true }
    else { v with seq := s, seqNext := s + 1, seqSkip := true, firstKey := false }
  | none => { v with seqNext := first.getD (Config.firstSeq), seqSkip := false, firstKey := true }

/-- A new ledger key is in force (R387): the first root under it takes the SEQ that the next root would take, and the anchor says so. -/
def Vig.newKey (v : Vig) : Vig :=
  let s := v.seqNext + b2n (v.seqSkip && v.signMode = 1)
  ({ v with seqNext := s, seqSkip := false, firstKey := true } : Vig).writeAnchor s

/-- The keys at a transition to a life-cycle state (R515): DEVELOP (2), which only PROVISION leads to, keeps the device-wide key. -/
def Vig.lcKeys (v : Vig) (to_ : Nat) : Vig :=
  { v with hostKey := none, dbgKeys := if to_ = 2 then v.dbgKeys.filter (fun e => e.1 = 0xFFFF) else [] }

/-- Complete a key change that is not in the flash (R387, R513 step 5, R514): the anchor of the present KEYGEN is written, and the next
root is the first under its key; the keys go as at the transition that was cut off. -/
def Vig.keyCheck (v : Vig) : Vig :=
  match v.anchor with
  | some b => if fieldB b 4 4 = v.entries then v else if fieldB b 4 4 < v.entries then (v.lcKeys v.lc).newKey else v.newKey
  | none => v.newKey

/-- The flash may hold an anchor of an older KEYGEN, and the ledger has not been recovered (R514): the halves stay in reset. -/
def Vig.keyLate (v : Vig) : Bool :=
  !v.recovered && decide (v.flashN 0 4 = [0x58, 0x4C, 0x41, 0x4E]) && decide (leNat (v.flashN 4 4) < v.entries)

/-- An erase that the power-on reset cut off, or that had not begun, starts again (R389): the sector after one whose 896th slot has been
written still holds bytes. -/
def Vig.eraseAgain (v : Vig) : Vig :=
  let p := v.slotOf v.seq
  if (v.lastSlot p.1).isNone ∨ p.2 < 895 then v
  else if (v.flashN (v.nextSector p.1 * 65536) 65536).all (fun b => b = 0xFF) then { v with ahead := v.seq - p.2 + 1 }
  else v.eraseAhead p v.seq

/-- Take a sector's erase count from its header. -/
def Vig.noteErases (v : Vig) (m : NMap Nat) (sec : Nat) : NMap Nat :=
  match v.headerOf sec with
  | some h => mSet m sec h.1
  | none => m

/-- VIGIL_LEDGER_RECOVERY (R388, R390, R514): after power-on reset the Vigil island finds where the ledger stands in a flash
of `sectors` sectors. -/
def ledgerRecovery (sectors : Nat) (v : Vig) : Vig :=
  if v.recovered ∨ v.resetN ∨ sectors < 256 ∨ 4096 < sectors then v
  else
    let v : Vig := { v with sectors := sectors }
    let v : Vig := { v with erases := v.ring.foldl v.noteErases v.erases }
    let v := v.findSeq
    let v : Vig := { v with recovered := true, restart := true }
    v.eraseAgain.keyCheck

/-- MINUTE_BOUNDARY. -/
def execMinuteBoundary (s : State) : Out := vigStep (fun _ v => minuteBoundary v) s
/-- HALF1_TOTALS_ARRIVAL. -/
def execHalf1TotalsArrival (s : State) : Out := vigStep half1Totals s
/-- PARTIAL_SEAL_TIMEOUT. -/
def execPartialSealTimeout (s : State) : Out := vigStep (fun _ v => partialTimeout v) s
/-- SEAL_RECORDS_FORMED. -/
def execSealRecordsFormed (s : State) : Out := vigStep recordsFormed s
/-- ROOT_SIGNED. -/
def execRootSigned (s : State) : Out := bothStep rootSigned s
/-- FLASH_SLOT_WRITTEN. -/
def execFlashSlotWritten (stuck : Nat) (s : State) : Out := vigStep (fun _ v => slotWritten stuck v) s
/-- LEDGER_SECTOR_ERASE. -/
def execLedgerSectorErase (ok : Bool) (s : State) : Out := vigStep (fun _ v => sectorErase ok v) s
/-- COUNTERSIGN_TIMEOUT. -/
def execCountersignTimeout (s : State) : Out := vigStep (fun _ v => countersignTimeout v) s
/-- VIGIL_LEDGER_RECOVERY. -/
def execVigilLedgerRecovery (sectors : Nat) (s : State) : Out := vigStep (fun _ v => ledgerRecovery sectors v) s

end Sys2Proof.Machine
end

