-- ==== Sys2Proof/Machine/PairOps.lean ====
section
/-! DEFINITION. The pair's shared operations (R394 to R416): role changes, HELLO, yielding, the takeover decision, the
takeover, and giving up a resynchronisation. Control messages beside types 1 to 3 of R404 are the model's (log 41). -/

namespace Sys2Proof.Machine

/-- An event for the host that belongs to no half: reported by the half that executes the opcodes marked † (log 42). -/
def Chip.deviceEvent (ch : Chip) (typ : Nat) (rec : List Byte) : Chip :=
  let h := ch.daggerHalf
  if ch.fld CMD_STAT CMD_STAT_READY h = 0 then ch else ch.hostEvent h typ rec

/-- Change the pair state. -/
def Vig.updPair (v : Vig) (f : Pair → Pair) : Vig := { v with pair := f v.pair }

/-- Set an error bit (R416). -/
def Vig.pairErr (v : Vig) (i : Nat) : Vig := v.updPair (fun p => { p with err := bfSet p.err i 1 1 })

/-- The device takes a role (R399); a change is reported with ROLE_CHANGE (R434). -/
def setRole (r : Nat) (s : Vig × Chip) : Vig × Chip :=
  let p := s.1.pair
  if p.role = r then s
  else
    (s.1.updPair (fun p => { p with role := r }),
      s.2.deviceEvent 0xA ([BitVec.ofNat 8 p.role, BitVec.ofNat 8 r, BitVec.ofNat 8 p.err, 0] ++ leBytes 4 p.epoch))

/-- A CONTROL message (R404): type, role and position, EPOCH, pair ID; a HELLO also carries MIR_CFGTAG. -/
def ctlMsg (v : Vig) (typ : Nat) (extra : List Byte := []) : List Byte :=
  let p := v.pair
  sliceB ([BitVec.ofNat 8 typ, BitVec.ofNat 8 (p.role + p.pos * 8)] ++ leBytes 4 p.epoch ++ leBytes 4 p.pairId ++ extra) 0 56

/-- Send HELLO on every link that is up (R414). -/
def sendHello (s : Vig × Chip) : Vig × Chip :=
  (s.1.updPair (fun p => { p with helloSent := true }), s.2.mirSendAll 0 (ctlMsg s.1 4 (leBytes 4 s.1.pair.cfgTag)))

/-- The resynchronisation reaches a step, which the active tells the peer (R414). -/
def setStep (n : Nat) (s : Vig × Chip) : Vig × Chip :=
  (s.1.updPair (fun p => { p with step := n }), s.2.mirSendAll 0 (ctlMsg s.1 6 [BitVec.ofNat 8 n]))

/-- Write an entry that is not mirrored, or clear it (R403, R414, R415). -/
def Chip.putCopy (v : Vig) (ch : Chip) (h i : Nat) (e : List Byte) : Chip :=
  Chip.engWrite1 v (ch.cacheCommit h i e) h (ch.entAddr h i) e

/-- Take every entry out of a half's flow table without mirroring it (R414, R415). -/
def Chip.tableEmpty (v : Vig) (ch : Chip) (h : Nat) : Chip :=
  match ch.log2b h with
  | none => ch
  | some n =>
    (List.range (4 * 2 ^ n)).foldl (fun c i =>
      let e := c.ent h i
      if entValid e then Chip.putCopy v (c.flowGauge h (entTpl e) false) h i (List.replicate 64 0) else c) ch

/-- The standby empties its flow table and shadow (R414, R415). -/
def emptyCopy (s : Vig × Chip) : Vig × Chip :=
  ({ s.1 with shadow := [] }, Chip.tableEmpty s.1 (Chip.tableEmpty s.1 s.2 0) 1)

/-- Both mirror links are up (R414). -/
def Chip.linksUp (ch : Chip) : Bool := ch.mir.h0.up && ch.mir.h1.up

/-- The link path is present (R405): a heartbeat within the last 20 microseconds on either link. -/
def Chip.linkPath (ch : Chip) (v : Vig) : Bool :=
  let ok := fun (l : MirLink) => match l.hbAt with
    | some t => decide (v.clk < t + 20000)
    | none => false
  ok ch.mir.h0 || ok ch.mir.h1

/-- Leave a resynchronisation unfinished (R415): RESYNC_ABORT; the standby empties its copy, and is DOWN when a reset
reached one of its halves. -/
def abandonResync (s : Vig × Chip) : Vig × Chip :=
  let p := s.1.pair
  if p.step = 0 ∧ p.role ≠ 4 then s
  else
    let reset := (tGet s.2.half 0).inReset || (tGet s.2.half 1).inReset
    let v := (s.1.pairErr 3).updPair (fun p => { p with step := 0, helloSent := false, doneRecv := false })
    if p.role = 4 then
      let s := emptyCopy (v, s.2)
      if reset then setRole 5 s else s
    else (v, s.2)

/-- Yield (R404): stop forwarding and set TAKEOVER low (both follow the role), send YIELD on every link that is up, stop the heartbeats,
hold PEER_ALIVE_OUT high, enter DOWN. `half` is 0xFF for a condition of the device. -/
def doYield (reason half : Nat) (s : Vig × Chip) : Vig × Chip :=
  let ch := s.2.mirSendAll 0 (ctlMsg s.1 2)
  let v := s.1.updPair (fun p =>
    { p with aliveOut := true, aliveHeld := true, step := 0, helloSent := false, doneRecv := false })
  let s := setRole 5 (v, ch)
  (s.1, s.2.deviceEvent 7 [BitVec.ofNat 8 reason, BitVec.ofNat 8 half])

/-- Demotion (R407). -/
def demote (s : Vig × Chip) : Vig × Chip :=
  let v := if s.1.pair.step ≠ 0 then s.1.pairErr 3 else s.1
  doYield 0 0xFF (v.pairErr 4, s.2)

/-- The row of R406 that says take over: 1 YIELD, 2 ball high, 3 silence. -/
def Vig.takeRow (v : Vig) (link : Bool) : Option Nat :=
  if v.pair.gotYield then some 1
  else if link then none
  else if v.pair.ball = 2 then some 2
  else if v.pair.ball = 1 then some 3
  else none

/-- The takeover decision (R406), evaluated when an input changes. -/
def decideTake (s : Vig × Chip) : Vig × Chip :=
  let v := s.1
  if v.pair.role ≠ 3 then s
  else
    let link := s.2.linkPath v
    match v.takeRow link with
    | some r =>
      if v.pair.failMode = 0 then (v.updPair (fun p => { p with takeDue := some r }), s.2)
      else if v.pair.failAt.isSome then s
      else (v.updPair (fun p => { p with failAt := some v.clk }), s.2.deviceEvent 6 [BitVec.ofNat 8 (r - 1)])
    | none =>
      let v := v.updPair (fun p => { p with failAt := none })
      if link then (if v.pair.ball ≠ 0 then v.pairErr 1 else v, s.2)
      else
        let s := setRole 4 ((v.pairErr 0).updPair (fun p => { p with step := 0, helloSent := false }), s.2)
        s

/-- The takeover control frame (R408) without its FCS. -/
def tkFrame (v : Vig) (reason : Nat) : List Byte :=
  let p := v.pair
  let b := beBytes 6 p.tkDa ++ [2, 0, 0, 0, 0, BitVec.ofNat 8 p.pos] ++ beBytes 2 p.tkType ++ [0x58, 0x54, 0x4B, 0x4F] ++
    beBytes 4 p.pairId ++ [BitVec.ofNat 8 p.pos, BitVec.ofNat 8 reason] ++ beBytes 4 p.epoch ++ beBytes 8 v.dt
  sliceB b 0 60

/-- Send a control frame on every port of a half that is up, before the frames queued there (R408). -/
def Chip.sendTk (ch : Chip) (h : Nat) (b : List Byte) : Chip :=
  (List.range 8).foldl (fun c p =>
    if c.portCfg (8 * h + p) && c.fld ETH_PSTAT ETH_PSTAT_UP h [p] = 1 then
      c.updFlow h (fun f => { f with egress := mSet f.egress p (⟨b, none, []⟩ :: mGet f.egress p []) })
    else c) ch

/-- Every entry counts as hit now, and the flow cache starts cold (R408). -/
def Chip.touchAll (ch : Chip) (v : Vig) (h : Nat) : Chip :=
  let ch := ch.updFlow h (fun f => { f with cache := [] })
  match ch.log2b h with
  | none => ch
  | some n => (List.range (4 * 2 ^ n)).foldl (fun c i => if entValid (c.ent h i) then c.putHit v h i (c.tick v h) else c) ch

/-- The event of a takeover (R408). -/
def tkEvent (epoch : Nat) : Ev := evOfBytes 6 (leBytes 4 epoch ++ leBytes 27 0 ++ [0x10])

/-- Chandler of a half posts the takeover event to every top-level compartment (R408); one that finds no room is lost. -/
def Chip.tkPosts (ch : Chip) (h epoch : Nat) : Chip :=
  if ch.fld CMD_STAT CMD_STAT_READY h = 0 then ch
  else
    (ch.tableIds h).foldl (fun c id =>
      match c.record id with
      | none => c
      | some r =>
        if r.flag fHasParent then c
        else
          match c.frontOf 8 id with
          | none => c
          | some f => ((c.record f).bind (fun q => c.enqueue f q (tkEvent epoch))).getD c) ch

/-- Add one shadow entry to the open bank (R412): counts of an earlier minute mark CARRIED. -/
def Vig.addShadow (v : Vig) (x : Shadow) : Vig :=
  let v := (List.range 16).foldl (fun v i => v.addBank x.half v.parity x.tenant i (x.counts.getD i 0)) v
  if x.minute < v.dt / minuteNs + 1 then { v with carried := x.tenant :: v.carried } else v

/-- Take over (R408, R412): `reason` as in the control frame; TAKEOVER is high with the role (R397). The shadow counts only where the old active is silent with
its ball low. -/
def doTakeover (reason : Nat) (s : Vig × Chip) : Vig × Chip :=
  let silent := !s.1.pair.gotYield && !s.2.linkPath s.1 && decide (s.1.pair.ball = 1)
  let v := if silent then s.1.shadow.foldl Vig.addShadow s.1 else s.1
  let v := ({ v with shadow := [] } : Vig).updPair (fun p =>
    { p with epoch := (p.epoch + 1) % 2 ^ 32, takeDue := none, failAt := none, gotYield := false, step := 0, helloSent := false
             doneRecv := false, aliveHeld := false, peerRole := 0 })
  let s := setRole 2 (v, s.2)
  let v := s.1
  let ch := s.2.mirSendAll 0 (ctlMsg v 3)
  let b := tkFrame v reason
  let ch := (ch.sendTk 0 b).sendTk 1 b
  let ch := (ch.touchAll v 0).touchAll v 1
  (v, (ch.tkPosts 0 v.pair.epoch).tkPosts 1 v.pair.epoch)

/-- Bind (R395): ACTIVE enters ACTIVE_SOLO, STANDBY enters RESYNC. -/
def doBind (pairId pos role : Nat) (s : Vig × Chip) : Vig × Chip :=
  let v := s.1.updPair (fun p =>
    { p with pairId := pairId, pos := pos, epoch := 0, step := 0, gotYield := false, failAt := none, takeDue := none, peerRole := 0
             helloSent := false, doneRecv := false, aliveHeld := false })
  setRole (if role = 0 then 2 else 4) (v, s.2)

/-- Unbind (R395). -/
def doUnbind (s : Vig × Chip) : Vig × Chip :=
  setRole 0 (s.1.updPair (fun p => { p with pos := 0, step := 0, helloSent := false, doneRecv := false, aliveHeld := false
                                            takeDue := none, failAt := none, gotYield := false }), s.2)

/-- Begin step 1 (R414): a device that is DOWN enters RESYNC and its heartbeats run again; HELLO is sent. -/
def startResync (s : Vig × Chip) : Vig × Chip :=
  let s := if s.1.pair.role = 5 then setRole 4 s else s
  sendHello (s.1.updPair (fun p => { p with step := 1, aliveHeld := false, doneRecv := false }), s.2)

/-- MIR_CFGTAG is written (R399, R416): a STANDBY whose tag changes must resynchronise. -/
def setCfgTag (tag : Nat) (s : Vig × Chip) : Vig × Chip :=
  let old := s.1.pair.cfgTag
  let s : Vig × Chip := (s.1.updPair (fun p => { p with cfgTag := tag % 2 ^ 32 }), s.2)
  if s.1.pair.role = 3 ∧ old ≠ tag % 2 ^ 32 then
    setRole 4 (s.1.updPair (fun p => { p with step := 0, helloSent := false, takeDue := none, failAt := none }), s.2) else s

end Sys2Proof.Machine
end

