-- ==== Sys2Proof/Machine/AdrusOps.lean ====
section
/-! DEFINITION. How Adrus checks, orders, forwards, runs and ends a command (R421 to R431, R435, R455, R456, R576). -/

namespace Sys2Proof.Machine

/-- SUCCESS (R430). -/
def stOk : Nat := 0
/-- UNKNOWN_OPCODE (R430). -/
def stUnknown : Nat := 0x101
/-- RESERVED_FIELD (R430). -/
def stReserved : Nat := 0x102
/-- INVALID_TARGET (R430). -/
def stTarget : Nat := 0x103
/-- TIMEOUT (R430). -/
def stTimeout : Nat := 0x104
/-- INVALID_PARAM (R430). -/
def stParam : Nat := 0x105
/-- REFUSED_STATE (R430). -/
def stRefused : Nat := 0x106
/-- NO_RESOURCE (R430). -/
def stNoRes : Nat := 0x107
/-- NOT_PERMITTED (R430). -/
def stPermit : Nat := 0x108
/-- ABORTED (R430). -/
def stAborted : Nat := 0x109
/-- DATA_ERROR (R430). -/
def stData : Nat := 0x10A
/-- NO_DATA (R430). -/
def stNoData : Nat := 0x10B
/-- DEPTH (R430). -/
def stDepth : Nat := 0x111
/-- NOT_EMPTY (R430). -/
def stNotEmpty : Nat := 0x112
/-- MOVE_REFUSED (R430). -/
def stMove : Nat := 0x113
/-- TABLE_FULL (R430). -/
def stFull : Nat := 0x301
/-- EXISTS (R430). -/
def stExists : Nat := 0x302
/-- NOT_FOUND (R430). -/
def stNotFound : Nat := 0x303
/-- SIG_INVALID (R430). -/
def stSig : Nat := 0x401

/-- FLAGS of a command (R422). -/
def Cmd.flags (c : Cmd) : Nat := fieldB c.entry 2 1
/-- TARGET of a command (R423). -/
def Cmd.target (c : Cmd) : Nat := fieldB c.entry 8 8
/-- ORDERED (R422). -/
def Cmd.ordered (c : Cmd) : Bool := tb c.flags 0
/-- TGT_COMP (R422). -/
def Cmd.tgtComp (c : Cmd) : Bool := tb c.flags 1
/-- FORCE (R422). -/
def Cmd.force (c : Cmd) : Bool := tb c.flags 3
/-- REPLACE (R422). -/
def Cmd.replace (c : Cmd) : Bool := tb c.flags 4
/-- LEN of a unit path (R423). -/
def pathLen (p : Nat) : Nat := bf p 16 3
/-- HALF of a unit path. -/
def pathHalf (p : Nat) : Nat := bf p 1 1
/-- CLUSTER of a unit path, as a cluster key. -/
def pathClu (p : Nat) : Nat := pathHalf p * 16 + bf p 2 4
/-- CORE of a unit path, as a core number. -/
def pathCore (p : Nat) : Nat := pathHalf p * 256 + bf p 2 4 * 16 + bf p 6 4
/-- TASK of a unit path, as a task key. -/
def pathTask (p : Nat) : Nat := pathCore p * 64 + bf p 10 6
/-- The bits of the fields that a path of a LEN has (R423). -/
def pathBits (len : Nat) : Nat :=
  if len = 0 then 0 else if len = 1 then 1 else if len = 2 then 2 else if len = 3 then 6 else if len = 4 then 10 else 16

/-- Reserved bits of a submission entry are zero (R421 to R423, R429). -/
def Cmd.resOk (c : Cmd) (i : OpInfo) : Bool :=
  let par := fieldB c.entry 16 48
  let t := c.target
  c.flags &&& (0xF8 - i.flags) = 0 && fieldB c.entry 3 1 = 0 && fieldB c.entry 6 2 = 0 && par &&& i.mask = par &&
    (if c.tgtComp then decide (t < 65536) else decide (t < 2 ^ 19) && bf t (pathBits (pathLen t)) (16 - pathBits (pathLen t)) = 0)

/-- TARGET has a form that the opcode admits (R11, R423). -/
def Cmd.targetOk (c : Cmd) (v : Vig) (ch : Chip) (i : OpInfo) : Bool :=
  let t := c.target
  let n := pathLen t
  let path := i.lo ≤ n && n ≤ i.hi && bf t 0 1 = v.pair.pos && (n < 5 || bf t 10 6 < ch.tcount (pathCore t))
  if i.form = 0 then !c.tgtComp && t = 0
  else if c.tgtComp then decide (i.form ≥ 3)
  else (i.form = 1 || i.form = 2 || i.form = 4) && path

/-- The opcodes of the I3C subset (R459). -/
def i3cAllows (c : Cmd) : Bool :=
  [0x0, 0x4, 0x406, 0x505, 0x503, 0x601, 0x700].contains c.op || (c.op = 6 && pathLen c.target = 2)

/-- Life-cycle and I3C restrictions (R431, R459). -/
def Cmd.permitted (c : Cmd) (v : Vig) : Bool :=
  let g := c.op / 256
  !((v.lc = 0 || v.lc = 4) && g ≠ 0 && g ≠ 7) && !(v.lc = 3 && (c.op = 7 || c.op = 8)) &&
    (c.src ≠ .i3c || i3cAllows c)

/-- Checks 1 to 4 of R429: the status of the first that fails, or 0. -/
def Cmd.admission (c : Cmd) (v : Vig) (ch : Chip) : Nat :=
  match opInfo c.op with
  | none => stUnknown
  | some i =>
    if !c.resOk i then stReserved
    else if !c.targetOk v ch i then stTarget
    else if !c.permitted v then stPermit
    else 0

/-- CMD_STAT.READY of a half (R461). -/
def Chip.cmdReady (ch : Chip) (h : Nat) : Bool := ch.fld CMD_STAT CMD_STAT_READY h = 1

/-- Wick is up and the other half is ready (R576). -/
def Chip.bothReady (ch : Chip) (h : Nat) : Bool :=
  ch.wickUp h && (tGet ch.wick h).up && ch.cmdReady (1 - h) && !(tGet ch.half (1 - h)).inReset

/-- The command belongs on the other half (R11, R427); one that came from there is executed here. -/
def Chip.cmdFar (ch : Chip) (h : Nat) (c : Cmd) (i : OpInfo) : Bool :=
  if c.src = .far then false
  else if i.dagger then h = 1 && ch.daggerHalf = 0
  else if c.op = 0x602 ∨ c.op = 0x604 ∨ c.op = 0x606 then c.par 16 1 = 1 - h
  else if i.form = 0 then false
  else if c.tgtComp then compHalf c.target ≠ h
  else if c.op = 6 ∧ pathLen c.target = 2 then false
  else decide (pathLen c.target ≥ 2) && pathHalf c.target ≠ h

/-- A compartment lies beneath another, or is it (R36, R38), within eight levels. -/
def Chip.compUnder (ch : Chip) : Nat → Nat → Nat → Bool
  | 0, _, _ => false
  | f + 1, id, top =>
    id = top || (match ch.record id with
      | some r => r.flag fHasParent && ch.compUnder f r.parent top
      | none => false)

/-- The unit path of a task as TARGET encodes it, LEN apart. -/
def taskAsPath (v : Vig) (t : Nat) : Nat :=
  v.pair.pos + tHalf t * 2 + (tCore t / 16 % 16) * 4 + (tCore t % 16) * 64 + tNum t * 1024

/-- A node of the unit tree contains a task. -/
def nodeHas (v : Vig) (p t : Nat) : Bool :=
  let n := pathBits (pathLen p)
  !coreSvc (tCore t) && bf p 0 n = bf (taskAsPath v t) 0 n

/-- A compartment that is being moved, and is unbound, counts as bound beneath a node (R38): at the task it was bound to, or else
in its source cluster. -/
def Chip.movingUnder (ch : Chip) (v : Vig) (p id : Nat) : Bool :=
  (ch.boundTo id).isNone && (match mGet? ch.moveFrom id with
    | some t => nodeHas v p t
    | none => decide (pathLen p ≤ 3) &&
        nodeHas v p (((compHalf id * 16 + ((ch.record id).map (·.cluster)).getD 0) * 16) * 64))

/-- A compartment named, or one beneath it, is bound beneath a node (R426), or counts as bound there while it moves (R38). -/
def Chip.boundUnder (ch : Chip) (v : Vig) (id p : Nat) : Bool :=
  ch.tasks.any (fun e => nodeHas v p e.1 && (match e.2.bound with
    | some b => ch.compUnder 9 b id
    | none => false)) ||
    ch.moves.any (fun m => ch.movingUnder v p m.1 && ch.compUnder 9 m.1 id)

/-- The targets of two commands overlap (R426). -/
def Chip.overlap (ch : Chip) (v : Vig) (a b : Cmd) : Bool :=
  let path := fun (c : Cmd) => !c.tgtComp && pathLen c.target ≠ 0
  if a.tgtComp ∧ b.tgtComp then a.target = b.target
  else if path a ∧ path b then
    let n := min (pathBits (pathLen a.target)) (pathBits (pathLen b.target))
    bf a.target 0 n = bf b.target 0 n
  else if a.tgtComp ∧ path b then ch.boundUnder v a.target b.target
  else if path a ∧ b.tgtComp then ch.boundUnder v b.target a.target
  else false

/-- The opcode is fast (R428). -/
def Cmd.fast (c : Cmd) : Bool := ((opInfo c.op).map (·.fast)).getD false

/-- An earlier command keeps a later one from starting (R422, R426). -/
def Chip.blocks (ch : Chip) (v : Vig) (a c : Cmd) : Bool :=
  let same := a.src = c.src && (match a.src with
    | .pair _ => true
    | _ => false)
  (same && ((c.ordered && !a.timedOut) || (!a.started && !a.fwd))) ||
    (!a.timedOut && !(a.fast && c.fast) && ch.overlap v a c)

/-- A core beneath the command's path, or above it, is under slice test (R490): the command waits. -/
def Chip.cmdTesting (ch : Chip) (c : Cmd) : Bool :=
  !c.tgtComp && decide (pathLen c.target ≥ 4) && (ch.core (pathCore c.target)).testing

/-- The command may start now. -/
def Chip.canStart (ch : Chip) (v : Vig) (h : Nat) (c : Cmd) : Bool :=
  !(((tGet ch.adrus h).cmds.takeWhile (fun a => a.id ≠ c.id)).any (fun a => ch.blocks v a c)) && !ch.cmdTesting c

/-- Send an entry to the other half for command `id` (R427); its acknowledgement is timed (R27). -/
def Chip.mgmtAsk (v : Vig) (ch : Chip) (h id : Nat) (entry : List Byte) : Chip :=
  (ch.updWick h (fun p => { p with reqs := p.reqs ++ [⟨id, 0, v.clk, 0, 0⟩] })).wickSend h
    (mkMsg 0 0 0xFFFFFF (id % 65536) (.mgmt 0 [id] entry))

/-- A command that belongs on the other half is sent there (R427). -/
def Chip.forward (ch : Chip) (v : Vig) (h id : Nat) (c : Cmd) : Chip :=
  if !ch.wickUp h then ch.complete h id stRefused [] []
  else (ch.updCmd h id (fun c => { c with fwd := true })).mgmtAsk v h id c.entry

/-- Send the other half its part of a command that acts on both (R16, R576): the command's entry, and what else it needs. -/
def Chip.sendPart (v : Vig) (ch : Chip) (h : Nat) (c : Cmd) (entry : List Byte) : Chip :=
  (ch.updCmd h c.id (fun c => { c with part := some none, acked := false })).mgmtAsk v h c.id entry

/-- What a meaning of an opcode works on: the half that executes it, the command, and both parts of the state. -/
abbrev OpFn := Nat → Cmd → Vig × Chip → Vig × Chip

/-- Run one opcode: command `id` of half `h`, if it is a fetched command with this opcode that may start here, or one that
has started and goes on. A fast opcode needs no Chandler (R428). -/
def runOp (op h id : Nat) (f : OpFn) (s : Vig × Chip) : Vig × Chip :=
  match s.2.cmd h id, opInfo op with
  | some c, some i =>
    if h ≥ 2 ∨ c.op ≠ op ∨ c.fwd ∨ (tGet s.2.half h).inReset ∨ !(s.2.cmdReady h || i.fast) then s
    else if c.started then f h c s
    else if !s.2.canStart s.1 h c then s
    else if s.2.cmdFar h c i then (s.1, s.2.forward s.1 h id c)
    else f h { c with started := true } (s.1, s.2.updCmd h id (fun c => { c with started := true }))
  | _, _ => s

/-- An opcode's row. -/
def opRow (op h id : Nat) (f : OpFn) (s : State) : Out := bothStep (fun v ch => runOp op h id f (v, ch)) s

/-- End the command with a status and RESULT. -/
def endCmd (h : Nat) (c : Cmd) (status : Nat) (res : List Byte) (s : Vig × Chip) : Vig × Chip :=
  (s.1, s.2.complete h c.id status res [])

/-- End the command with SUCCESS, a RESULT and a buffer written at DPTR. -/
def endBuf (h : Nat) (c : Cmd) (res buf : List Byte) (s : Vig × Chip) : Vig × Chip :=
  (s.1, s.2.complete h c.id stOk res buf)

/-- A command that acts on both halves, once its checks have passed (R16, R576): `own` is what the executing half does at once;
when `done` holds there and the other half's part has ended, it does `fin`, and the command ends. The other half runs the same
row for its part, which ends there. -/
def bothHalves (h : Nat) (c : Cmd) (own : Vig × Chip → Vig × Chip) (done : Chip → Bool) (fin : Chip → Chip)
    (extra : List Byte) (s : Vig × Chip) : Vig × Chip :=
  if c.aux = 0 then
    let s := own s
    let ch := s.2.updCmd h c.id (fun c => { c with aux := 1 })
    (s.1, if c.src = .far then ch else ch.sendPart s.1 h c (c.entry ++ extra))
  else if !done s.2 then s
  else if c.src = .far then endCmd h c stOk [] (s.1, fin s.2)
  else
    match c.part with
    | some (some (st, _)) => endCmd h c st [] (s.1, if st = stOk then fin s.2 else s.2)
    | _ => s

/-- The checks of R576 are made where the command came from, when it starts. -/
def Cmd.checks (c : Cmd) : Bool := decide (c.aux = 0) && decide (c.src ≠ .far)

/-- DPTR is aligned to 64 bytes and DLEN is at least `n` (R424). -/
def Cmd.bufOk (c : Cmd) (n : Nat) : Bool := c.dptr % 64 = 0 && n ≤ c.dlen

/-- The half whose endpoint reads the buffers of a command: the one it came from (R427). -/
def Cmd.readHalf (c : Cmd) (h : Nat) : Nat := if c.src = .far then 1 - h else h

/-- Run the rest of a meaning with the input buffer of `n` bytes that was read (R424). A read that fails, or that brings poisoned
data, which the endpoint notes (R568), ends the command with DATA_ERROR (R456). -/
def withBuf (h : Nat) (c : Cmd) (n : Nat) (data : HostRead) (f : List Byte → Vig × Chip → Vig × Chip)
    (s : Vig × Chip) : Vig × Chip :=
  match data.how with
  | .good => f (sliceB data.bytes 0 n) s
  | .failed => endCmd h c stData [] s
  | .poisoned => endCmd h c stData [] (s.1, s.2.flag PCIE_ERR PCIE_ERR_POISONED (c.readHalf h))

/-- Every command that a half has forwarded, or whose part it has sent, and that was not accepted ends TIMEOUT: Wick went down
(R28, R427, R576). -/
def Chip.failForwards (ch : Chip) (h : Nat) : Chip :=
  let l := ((tGet ch.adrus h).cmds.filter (fun c => (c.fwd || c.part = some none) && !c.acked)).map (·.id)
  let ch := ch.updWick h (fun p => { p with reqs := p.reqs.filter (fun q => q.vc ≠ 0) })
  l.foldl (fun c id => c.complete h id stTimeout (leBytes 8 1) []) ch

/-- The error bit of a pair (R456, R461). -/
def Chip.setQerr (ch : Chip) (h q : Nat) (b : Bool) : Chip :=
  if q < 32 then ch.setReg CMD_QERR_LO h [] (bfSet (ch.reg CMD_QERR_LO h []) q 1 (b2n b))
  else ch.setReg CMD_QERR_HI h [] (bfSet (ch.reg CMD_QERR_HI h []) (q - 32) 1 (b2n b))

/-- Change a queue pair. -/
def Chip.updPairQ (ch : Chip) (h q : Nat) (f : QPair → QPair) : Chip :=
  match mGet? (tGet ch.adrus h).pairs q with
  | some p => ch.updAdrus h (fun x => { x with pairs := mSet x.pairs q (f p) })
  | none => ch

/-- A pair enters error (R456). -/
def Chip.pairError (ch : Chip) (h q : Nat) : Chip := (ch.updPairQ h q (fun p => { p with err := true })).setQerr h q true

/-- A queue pair with both heads and tails 0 and PHASE 1 (R461). -/
def QPair.fresh (sq cq size vector count time : Nat) (high : Bool) : QPair :=
  { sq := sq, cq := cq, size := size, vector := vector, count := count, time := time, high := high, sqHead := 0, sqRead := 0
    sqTail := 0, buf := [], cqTail := 0, cqHead := 0, posted := 0, phase := true, err := false, del := none, coCount := 0
    coSince := 0 }

/-- Delete the queue pair that no fetched command uses any more (R432, R461): its completions are discarded, and the
command that deletes it completes. Where the pair itself carried that command, it goes once that completion is posted. -/
def Chip.reapPair (ch : Chip) (h q : Nat) : Chip :=
  match mGet? (tGet ch.adrus h).pairs q with
  | none => ch
  | some p =>
    match p.del with
    | none => ch
    | some d =>
      if (tGet ch.adrus h).cmds.any (fun c => c.src = .pair q && c.id + 1 ≠ d) then ch
      else
        let own := fun (k : Compl) => k.src = .pair q && k.id + 1 = d
        let ch := ch.updAdrus h (fun x => { x with compl := x.compl.filter (fun k => k.src ≠ .pair q || own k) })
        let ch := if d = 0 then ch else ch.complete h (d - 1) stOk [] []
        if (tGet ch.adrus h).compl.any own then ch
        else (ch.updAdrus h (fun x => { x with pairs := mDel x.pairs q })).setQerr h q false

/-- Delete every pair of a half that can go (R432). -/
def Chip.reapPairs (ch : Chip) (h : Nat) : Chip := (List.range 64).foldl (fun c q => c.reapPair h q) ch

/-- Stop fetching from a pair (R432): its waiting GET_EVENTs are withdrawn, and it goes once its commands have ended. -/
def Chip.stopPair (ch : Chip) (h q d : Nat) : Chip :=
  let ch := ch.updPairQ h q (fun p => { p with del := some d })
  let ch := ch.updAdrus h (fun x => { x with cmds := x.cmds.filter (fun c => !(c.src = .pair q && c.op = 5)) })
  ch.reapPairs h

/-- The host link of a half is gone (R567): every queue pair is deleted; fetched commands run to their end, and belong to
no pair any more; a waiting GET_EVENT is withdrawn. -/
def Chip.dropPairs (ch : Chip) (h : Nat) : Chip :=
  let lose := fun (k : Src) => match k with
    | .pair _ => Src.pair 64
    | k => k
  let ch := ch.updAdrus h (fun x => { x with
    pairs := [], compl := x.compl.filter (fun k => lose k.src = k.src)
    cmds := (x.cmds.filter (fun c => c.op ≠ 5 || lose c.src = c.src)).map (fun c => { c with src := lose c.src }) })
  (ch.setReg CMD_QERR_LO h [] 0).setReg CMD_QERR_HI h [] 0

end Sys2Proof.Machine
end

