-- ==== Sys2Proof/Machine/AdrusDev.lean ====
section
/-! DEFINITION. The device opcodes of Adrus but RESET and CSR access (R432 to R434). -/

namespace Sys2Proof.Machine

/-- The hottest junction sensor of a half, in 1/8 degrees C; none before a reading. -/
def Bg.hottest (b : Bg) : Option Int :=
  b.temps.foldl (fun (m : Option Int) t => some (match m with
    | none => t
    | some x => max x t)) none

/-- The hottest junction sensor of the device; 0 while neither half supplies one (R460). -/
def Chip.hottest (ch : Chip) : Int :=
  match ch.bg.h0.hottest, ch.bg.h1.hottest with
  | some a, some b => max a b
  | some a, none => a
  | none, some b => b
  | none, none => 0

/-- MIR_STAT's ROLE, position and BALL as the health record shows them (R433). -/
def Pair.byte (p : Pair) : Nat := p.role % 8 + (p.pos % 2) * 8 + (p.ball % 4) * 16

/-- The health record (R433). -/
def healthRecord (v : Vig) (ch : Chip) : List Byte :=
  let bits := b2n (ch.wick.h0.up && ch.wickUp 0) + b2n (ch.grdHstat 0 % 2 = 1 || ch.grdHstat 1 % 2 = 1) * 2 +
    b2n (bf v.ldgStat 1 4 ≠ 0) * 4 + b2n (ch.bg.h0.warm || ch.bg.h1.warm) * 8 + b2n (ch.cmdReady 0) * 16 +
    b2n (ch.cmdReady 1) * 32 + b2n ch.mir.h0.up * 64 + b2n ch.mir.h1.up * 128
  leBytes 2 ((ch.hottest % 65536).toNat) ++ leBytes 2 ch.bg.h0.vdd ++ leBytes 2 ch.bg.h1.vdd ++
    [BitVec.ofNat 8 v.pair.byte, BitVec.ofNat 8 v.lc, BitVec.ofNat 8 v.tstate, BitVec.ofNat 8 bits, 0, 0] ++
    leBytes 4 (v.clk / 1000000000) ++ leBytes 8 v.seq

/-- The ordering code (R1): XF5120-24E or XF5120-20E. -/
def orderingCode : List Byte :=
  [0x58, 0x46, 0x35, 0x31, 0x32, 0x30, 0x2D, 0x32, if Config.is24E then 0x34 else 0x30, 0x45]

/-- The identify page (R432). -/
def identifyPage (v : Vig) (ch : Chip) (h : Nat) : List Byte :=
  let b := sliceB orderingCode 0 16 ++ [BitVec.ofNat 8 Config.stepping, BitVec.ofNat 8 h, BitVec.ofNat 8 v.lc,
    BitVec.ofNat 8 v.pair.pos] ++ leBytes 8 (tGet ch.ram.fitted h) ++ leBytes 4 (Config.unstated 0) ++ edPublic (keyBytes 0)
  sliceB b 0 4096

/-- NOP. -/
def opNop : OpFn := fun h c s => endCmd h c stOk [] s

/-- IDENTIFY. -/
def opIdentify : OpFn := fun h c s =>
  if c.bufOk 4096 then endBuf h c [] (identifyPage s.1 s.2 h) s else endCmd h c stParam [] s

/-- CREATE_QUEUE. -/
def opCreateQueue : OpFn := fun h c s =>
  let q := c.par 16 1
  let n := c.par 18 2
  let sq := c.par 24 8
  let cq := c.par 32 8
  if (mGet? (tGet s.2.adrus h).pairs q).isSome then endCmd h c stRefused [] s
  else if q = 0 ∨ q > 63 ∨ n = 0 ∨ n > 4095 ∨ c.par 20 1 > 63 ∨ sq % 4096 ≠ 0 ∨ cq % 4096 ≠ 0 then endCmd h c stParam [] s
  else
    let p := QPair.fresh sq cq (n + 1) (c.par 20 1) (c.par 21 1) (c.par 22 1) (tb (c.par 17 1) 0)
    endCmd h c stOk [] (s.1, s.2.updAdrus h (fun a => { a with pairs := mSet a.pairs q p }))

/-- DELETE_QUEUE: the pair goes once its fetched commands have ended; the command ends then. -/
def opDeleteQueue : OpFn := fun h c s =>
  let q := c.par 16 1
  match mGet? (tGet s.2.adrus h).pairs q with
  | none => endCmd h c stParam [] s
  | some p =>
    if p.del = some (1 + c.id) then (s.1, s.2.reapPair h q)
    else if p.del.isSome then endCmd h c stRefused [] s
    else if q = 0 ∨ q > 63 then endCmd h c stParam [] s
    else (s.1, s.2.stopPair h q (1 + c.id))

/-- GET_HEALTH. -/
def opGetHealth : OpFn := fun h c s => endCmd h c stOk (healthRecord s.1 s.2) s

/-- GET_EVENT: it ends with the oldest held event, or waits for one. -/
def opGetEvent : OpFn := fun h c s =>
  let out := ((tGet s.2.adrus h).cmds.filter (fun a => a.op = 5 && a.started && a.id ≠ c.id)).length
  if out ≥ 8 then endCmd h c stRefused [] s
  else if !c.bufOk 4096 then endCmd h c stParam [] s
  else (s.1, s.2.giveHostEvent h c.id)

/-- ADRUS_NOP. -/
def execAdrusNop (h id : Nat) (s : State) : Out := opRow 0x0 h id opNop s
/-- IDENTIFY. -/
def execIdentify (h id : Nat) (s : State) : Out := opRow 0x1 h id opIdentify s
/-- CREATE_QUEUE. -/
def execCreateQueue (h id : Nat) (s : State) : Out := opRow 0x2 h id opCreateQueue s
/-- DELETE_QUEUE. -/
def execDeleteQueue (h id : Nat) (s : State) : Out := opRow 0x3 h id opDeleteQueue s
/-- GET_HEALTH. -/
def execGetHealth (h id : Nat) (s : State) : Out := opRow 0x4 h id opGetHealth s
/-- GET_EVENT. -/
def execGetEvent (h id : Nat) (s : State) : Out := opRow 0x5 h id opGetEvent s

end Sys2Proof.Machine
end

