-- ==== Sys2Proof/Machine/AdrusComp.lean ====
section
/-! DEFINITION. The tenant and compartment opcodes (R436 to R439). What Chandler allocates from its own memory is an operand
of the row. -/

namespace Sys2Proof.Machine

/-- Chandler writes its own colour-1 memory. -/
def Chip.fwWrite (ch : Chip) (a : Nat) (d : List Byte) : Chip :=
  { ch with ram := ch.ram.storeBytes 1 [⟨a, d.length, false, 0⟩] d }

/-- Chandler writes a capability, or untagged bits, to its own colour-1 memory. -/
def Chip.fwCap (ch : Chip) (a : Nat) (c : Cap) : Chip := { ch with ram := (ch.ram.prepare 1 a).wrCap a c }

/-- Paint `n` bytes from `a` (multiples of 64) with a colour (R70): data zero, tags clear. -/
def Chip.paint (ch : Chip) (a n k : Nat) : Chip :=
  { ch with ram := (List.range (n / 64)).foldl (fun m i => (m.unpoison (a + 64 * i)).claim (a + 64 * i) k) ch.ram }

/-- `n` bytes at local address `a` of a half lie in its usable DRAM. -/
def Chip.inDram (ch : Chip) (h a n : Nat) : Bool := decide (a + n ≤ ch.ram.dramTop h)

/-- A tenant descriptor is in use (R280). -/
def Chip.tenantOk (ch : Chip) (h t : Nat) : Bool := decide (t < 4096) && tb (ch.ram.visLe (ch.tenantAddr h t) 8) 0

/-- S2ROOT names only bits 40:12 (R280). -/
def rootOk (r : Nat) : Bool := r % 4096 = 0 && decide (r < 2 ^ 41)

/-- The first eight bytes of a tenant descriptor (R280). -/
def tenantWord (full root : Nat) : Nat := 1 + full * 2 + bf root 12 29 * 2 ^ 12

/-- The invalidations of a changed tenant descriptor on a half (R293). -/
def Chip.tenantFlush (ch : Chip) (h t : Nat) : Chip := (ch.wci h).tlbiTag h t

/-- No access that used an entry of tenant `t` is left on half `h`: its invalidation can complete (R292). -/
def Chip.tenantQuiet (h t : Nat) (ch : Chip) : Bool := !ch.usesTlb h (fun x => x = t)

/-- S2ROOT of a tenant command for a half (R436). -/
def Cmd.root (c : Cmd) (h : Nat) : Nat := if h = 0 then c.par 24 8 else c.par 32 8

/-- The descriptor that TENANT_CREATE writes on a half, with the revocable window and the bitmap's place (R280, R475). -/
def Chip.tenantNew (c : Cmd) (h t base len rb : Nat) (ch : Chip) : Chip :=
  let d := leBytes 8 (tenantWord (bf (c.par 19 1) 0 1) (c.root h)) ++ leBytes 16 0 ++ leBytes 8 base ++ leBytes 8 len ++
    leBytes 8 rb ++ leBytes 16 0 ++ leBytes 8 (c.par 18 1) ++ leBytes 56 0
  ((ch.paint (h * 2 ^ 40 + rb) (alignUp (len / 128) 64) 1).fwWrite (ch.tenantAddr h t) d).tenantFlush h t

/-- TENANT_CREATE: Chandler of the executing half chooses the revocable window, which the other half is told, and Chandler of
each half where its bitmap lies (R475): `rb0` on half 0, `rb1` on half 1. The command keeps what was chosen behind its entry. -/
def opTenantCreate (rvBase rvLen rb0 rb1 : Nat) : OpFn := fun h c s =>
  let t := c.par 16 2
  let ch := s.2
  let far := decide (c.src = .far)
  let first := c.aux = 0
  let base := if first && !far then rvBase else c.par 64 8
  let len := if first && !far then rvLen else c.par 72 8
  let rb := if first then (if h = 0 then rb0 else rb1) else c.par (if far then 88 else 80) 8
  let extra := leBytes 8 base ++ leBytes 8 len ++ leBytes 8 rb
  if (c.checks && !ch.bothReady h) || (first && ch.tenantOk h t) then endCmd h c stRefused [] s
  else if t ≥ 4096 ∨ !rootOk (c.par 24 8) ∨ !rootOk (c.par 32 8) then endCmd h c stParam [] s
  else if first ∧ (base % 4096 ≠ 0 ∨ len % 4096 ≠ 0 ∨ rb % 64 ≠ 0 ∨ !ch.inDram h rb (len / 128)) then endCmd h c stNoRes [] s
  else
    let keep := fun (s : Vig × Chip) => (s.1, s.2.updCmd h c.id (fun c =>
      { c with entry := c.entry ++ (if far then leBytes 8 rb else extra) }))
    bothHalves h c keep (fun _ => true) (Chip.tenantNew c h t base len rb) extra s

/-- A compartment of half `h` names tenant `t`. -/
def Chip.tenantComps (ch : Chip) (h t : Nat) : Bool :=
  (ch.tableIds h).any (fun i => ((ch.record i).map (·.tenant)) = some t)

/-- A delivery slot of half `h` holds a queue capability of a compartment of tenant `t`. -/
def Chip.tenantSlots (ch : Chip) (h t : Nat) : Bool :=
  (List.range 4096).any (fun i =>
    let q := ch.capReg FLW_DTAB h [i]
    q.tag && ((ch.record (q.addr % 65536)).map (·.tenant)) = some t)

/-- A valid template of half `h` names tenant `t`. -/
def Chip.tenantTpls (ch : Chip) (h t : Nat) : Bool :=
  (tGet ch.flow h).tpls.any (fun e => tb (fieldB e.2 0 4) 0 && tplTenant e.2 = t)

/-- Something of half `h` still names tenant `t` (R436). -/
def Chip.tenantUsed (ch : Chip) (h t : Nat) : Bool :=
  ch.tenantComps h t || ch.tenantSlots h t || ch.tenantTpls h t || ch.fld MTR_GAUGE MTR_GAUGE_MEMPAGES h [t] ≠ 0

/-- TENANT_DESTROY: each half answers for what names the tenant there. -/
def opTenantDestroy : OpFn := fun h c s =>
  let t := c.par 16 2
  let ch := s.2
  if c.checks && !ch.bothReady h then endCmd h c stRefused [] s
  else if c.checks && !ch.tenantOk h t then endCmd h c stParam [] s
  else if c.aux = 0 && ch.tenantUsed h t then endCmd h c stNotEmpty [] s
  else bothHalves h c id (Chip.tenantQuiet h t)
    (fun ch => (ch.fwWrite (ch.tenantAddr h t) (leBytes 128 0)).tenantFlush h t) [] s

/-- TENANT_SET. -/
def opTenantSet : OpFn := fun h c s =>
  let t := c.par 16 2
  let ch := s.2
  let what := c.par 20 1
  if c.checks && !ch.bothReady h then endCmd h c stRefused [] s
  else if c.checks && (!ch.tenantOk h t || (tb what 1 && (!rootOk (c.par 24 8) || !rootOk (c.par 32 8)))) then
    endCmd h c stParam [] s
  else bothHalves h c (fun s =>
    let a := s.2.tenantAddr h t
    let ch := if tb what 0 then s.2.fwWrite (a + 64) (leBytes 1 (c.par 18 1)) else s.2
    (s.1, if tb what 1 then ch.fwWrite a (leBytes 8 (tenantWord (bf (c.par 19 1) 0 1) (c.root h))) else ch))
    (fun ch => !tb what 1 || Chip.tenantQuiet h t ch) (fun ch => if tb what 1 then ch.tenantFlush h t else ch) [] s

/-- The permissions of a stack or save area: Load, Store, LoadCap, StoreCap, StoreLocal (R95, R239, R438). -/
def stackPerm : Nat := 0x3B

/-- What a creation block asks for (R437): field at `o`, `n` bytes. -/
abbrev Blk128 := List Byte

/-- COMPOUND of a creation block. -/
def cbCompound (b : Blk128) : Bool := tb (fieldB b 9 1) 0
/-- HASPARENT of a creation block. -/
def cbHasParent (b : Blk128) : Bool := tb (fieldB b 9 1) 2
/-- HASSUPER of a creation block. -/
def cbHasSuper (b : Blk128) : Bool := tb (fieldB b 9 1) 3

/-- The fields of a creation block that R437, R239 and R259 fix by themselves. -/
def cbFieldsOk (b : Blk128) : Bool :=
  let w := fieldB b 7 1
  let q := fieldB b 8 1
  let p := fieldB b 10 1
  fieldB b 6 1 = 0 && fieldB b 9 1 < 16 && fieldB b 44 4 = 0 && fieldB b 64 64 = 0 && 2 ≤ w && w ≤ 30 &&
    (q = 0 || (4 ≤ q && q ≤ 12)) && (p < 16 || p = 255) && 5 ≤ fieldB b 11 1 && fieldB b 11 1 ≤ 15 && 64 ≤ fieldB b 12 4 &&
    fieldB b 4 2 < 4096 && (cbHasParent b || fieldB b 0 2 = 0) && (cbHasSuper b || fieldB b 2 2 = 0) &&
    !(cbHasParent b && cbHasSuper b)

/-- The parent that a creation block names admits the compartment (R36, R242, R438). -/
def Chip.parentOk (ch : Chip) (id : Nat) (b : Blk128) : Bool :=
  !cbHasParent b || (match ch.record (fieldB b 0 2) with
    | some r => r.flag fCompound && r.tenant = fieldB b 4 2 && compHalf (fieldB b 0 2) = compHalf id &&
        fieldB b 12 4 ≤ r.budget
    | none => false)

/-- DEPTH of the new compartment (R36). -/
def Chip.newDepth (ch : Chip) (b : Blk128) : Nat :=
  if cbHasParent b then ((ch.record (fieldB b 0 2)).map (·.depth)).getD 0 + 1 else 1

/-- A capability over the code region, with Execute and Load, its cursor at an offset within it (R438). -/
def cbCode (b : Blk128) (off : Nat) : Cap :=
  let base := fieldB b 16 8
  let c := mkCap base (fieldB b 24 8) 5 (fieldB b 11 1) (base + off)
  c.withTag (c.tag && off < fieldB b 24 8)

/-- START of a simple compartment. -/
def cbStart (b : Blk128) : Cap := cbCode b (fieldB b 32 4)
/-- TRAPENT of a simple compartment; untagged for none. -/
def cbTrap (b : Blk128) : Cap := if fieldB b 36 4 = 0xFFFFFFFF then Cap.null else cbCode b (fieldB b 36 4)
/-- The GATE of a simple compartment; untagged for none. -/
def cbGate (b : Blk128) : Cap := if fieldB b 40 4 = 0xFFFFFFFF then Cap.null else cgate (cbCode b (fieldB b 40 4))
/-- DSC of a simple compartment. -/
def cbDsc (b : Blk128) : Cap := mkCap (fieldB b 48 8) (fieldB b 56 8) stackPerm (fieldB b 11 1) (fieldB b 48 8)

/-- COMP of the gate descriptor that the host wrote, found through the compartment's own translation (R230, R438). -/
def Chip.gateComp (v : Vig) (ch : Chip) (id t va : Nat) : Option Nat :=
  match (ch.xlate v (compHalf id * 16) none id t (va + 18) 1).2 with
  | .ok pa _ _ => some (ch.ram.visLe pa 2)
  | .bad _ _ => none

/-- The code, trap, gate and stack fields of a creation block (R438). -/
def Chip.cbCapsOk (v : Vig) (ch : Chip) (id : Nat) (b : Blk128) : Bool :=
  if cbCompound b then fieldB b 16 48 = 0
  else
    fieldB b 16 8 + fieldB b 24 8 ≤ 2 ^ 64 && fieldB b 48 8 + fieldB b 56 8 ≤ 2 ^ 64 && (cbStart b).tag &&
      (fieldB b 36 4 = 0xFFFFFFFF || (cbTrap b).tag) &&
      (fieldB b 40 4 = 0xFFFFFFFF ||
        ((cbGate b).tag && ch.gateComp v id (fieldB b 4 2) (fieldB b 16 8 + fieldB b 40 4) = some id)) && (cbDsc b).tag

/-- The cluster that a new compartment goes to (R438): the preferred one if it fits, else the fitting one of least load. -/
def Chip.newCluster (ch : Chip) (h : Nat) (b : Blk128) : Option Nat :=
  let w := fieldB b 7 1
  let q := fieldB b 8 1
  let p := fieldB b 10 1
  if p < 16 ∧ ch.fits (h * 16 + p) w q then some (h * 16 + p)
  else
    (((List.range 16).filter (fun c => ch.fits (h * 16 + c) w q)).foldl (fun (m : Option (Nat × Nat)) c =>
      let k := h * 16 + c
      let l := mGet ch.loads k 0
      match m with
      | none => some (k, l)
      | some x => if l < x.2 then some (k, l) else some x) none).map (·.1)

/-- FLAGS of a new record (R239). -/
def cbFlags (b : Blk128) : Nat :=
  1 + b2n (cbCompound b) * 2 + b2n (cbHasParent b) * 4 + b2n (cbHasSuper b) * 8 + bf (fieldB b 9 1) 1 1 * 16

/-- Write a new record (R239): QGEN stays as it is. -/
def Chip.newRecord (ch : Chip) (id : Nat) (b : Blk128) (caps : List Cap) (c : Nat) (p : Nat × Nat) (depth : Nat) : Chip :=
  let a := ch.recAddr id
  let qgen := ch.ram.rdLe (a + 120) 4
  let d := leBytes 2 id ++ leBytes 2 (fieldB b 0 2) ++ leBytes 2 (fieldB b 2 2) ++ leBytes 2 0 ++ leBytes 2 (fieldB b 4 2) ++
    [0, BitVec.ofNat 8 depth, BitVec.ofNat 8 (fieldB b 7 1), BitVec.ofNat 8 (fieldB b 8 1), BitVec.ofNat 8 (c % 16),
     BitVec.ofNat 8 (p.1 / 256), BitVec.ofNat 8 (p.1 % 256), 0, 0, 0] ++ leBytes 4 (fieldB b 12 4) ++ leBytes 4 qgen ++
    leBytes 4 (cbFlags b) ++ leBytes 128 0
  let ch := ch.fwWrite (a + 96) d
  (List.range 6).foldl (fun ch i => ch.fwCap (a + 16 * i) (caps.getD i Cap.null)) ch

/-- The end of COMP_CREATE (R438): the place, the areas, the record. -/
def Chip.makeComp (ch : Chip) (id : Nat) (b : Blk128) (rsc save depth : Nat) : Option Chip :=
  let h := compHalf id
  if cbCompound b then some (ch.newRecord id b [] 0 (0, 0) depth)
  else
    let ok := rsc % 64 = 0 && save % 64 = 0 && ch.inDram h rsc 1920 && ch.inDram h save 9216 &&
      (rsc + 1920 ≤ save || save + 9216 ≤ rsc)
    match ok, ch.newCluster h b with
    | true, some c =>
      match ch.placeIn c (fieldB b 8 1) with
      | none => none
      | some p =>
        let pr := h * 2 ^ 40 + rsc
        let ps := h * 2 ^ 40 + save
        let caps := [cbGate b, cbStart b, cbTrap b, mkCap pr 1920 stackPerm 1 (pr + 1920), cbDsc b, mkCap ps 9216 stackPerm 1 ps]
        let ch := (ch.paint pr 1920 1).paint ps 9216 1
        some ((ch.newRecord id b caps c p depth).takePlace c id (fieldB b 8 1) p [])
    | _, _ => none

/-- COMP_CREATE; `rsc` and `save` are the local addresses of what Chandler allocates. -/
def opCompCreate (data : HostRead) (rsc save : Nat) : OpFn := fun h c s =>
  let id := c.target
  if !c.bufOk 128 ∨ (s.2.record id).isSome then endCmd h c stParam [] s
  else withBuf h c 128 data (fun b s =>
    let depth := s.2.newDepth b
    if !cbFieldsOk b || !s.2.tenantOk h (fieldB b 4 2) || !s.2.parentOk id b || !s.2.cbCapsOk s.1 id b then endCmd h c stParam [] s
    else if depth > 8 then endCmd h c stDepth [] s
    else
      match s.2.makeComp id b rsc save depth with
      | none => endCmd h c stNoRes [] s
      | some ch => endCmd h c stOk [] (s.1, ch)) s

/-- The compartments that lie beneath one, itself first, in ascending ID (R38). -/
def Chip.subtree (ch : Chip) (id : Nat) : List Nat :=
  id :: (ch.tableIds (compHalf id)).filter (fun x => decide (x ≠ id) && (ch.record x).isSome && ch.compUnder 9 x id)

/-- Set PAUSED and take the compartments from the pending queue (R251, R439). -/
def Chip.pauseAll (ch : Chip) (ids : List Nat) : Chip :=
  let ch := ids.foldl (fun ch id => if (ch.record id).isSome then ch.setFlag id fPaused true else ch) ch
  ids.foldl (fun ch id => match (ch.record id) with
    | some r => ch.updClu (compHalf id * 16 + r.cluster) (fun k => { k with pend := k.pend.filter (fun x => x ≠ id) })
    | none => ch) ch

/-- Destroy one compartment, which is not bound (R439). -/
def Chip.destroyOne (ch : Chip) (id : Nat) : Chip :=
  match ch.record id with
  | none => ch
  | some r =>
    let c := compHalf id * 16 + r.cluster
    let ch := ch.updClu c (fun k => { k with
      slots := if (mGet? k.slots r.qslot).map (·.comp) = some id then mDel k.slots r.qslot else k.slots
      pend := k.pend.filter (fun x => x ≠ id) })
    let ch : Chip := { ch with moves := mDel ch.moves id, carry := mDel ch.carry id }
    (ch.setRec id 120 4 ((r.qgen + 1) % 2 ^ 32)).setFlag id fValid false

/-- COMP_DESTROY: everything beneath the compartment is paused, and once all of it is unbound it is destroyed, members first. -/
def opCompDestroy : OpFn := fun h c s =>
  let ids := s.2.subtree c.target
  if (s.2.record c.target).isNone then endCmd h c stParam [] s
  else
    let ch := if c.aux = 0 then (s.2.pauseAll ids).updCmd h c.id (fun c => { c with aux := 1 }) else s.2
    if ids.any (fun id => (ch.boundTo id).isSome) then (s.1, ch)
    else endCmd h c stOk [] (s.1, ids.reverse.foldl (fun ch id => ch.destroyOne id) ch)

/-- The compartments that a P/C command names on half `h` (R38): a subtree, or those bound beneath the node now, with those being
moved from there. -/
def Chip.namedComps (ch : Chip) (v : Vig) (h : Nat) (c : Cmd) : List Nat :=
  if c.tgtComp then ch.subtree c.target
  else
    (ch.tasks.filter (fun e => tHalf e.1 = h && nodeHas v c.target e.1)).filterMap (fun e => e.2.bound) ++
      (ch.moves.map (·.1)).filter (fun id => compHalf id = h && ch.movingUnder v c.target id)

/-- A command by path reaches both halves (R11). -/
def Cmd.wide (c : Cmd) : Bool := !c.tgtComp && decide (pathLen c.target ≤ 1) && decide (c.src ≠ .far)

/-- The entry of a command for its part on the other half of the device: the same, with the path of that half. -/
def Cmd.farEntry (c : Cmd) (h : Nat) : List Byte :=
  spliceB c.entry 8 (leBytes 8 (bfSet (bfSet c.target 16 3 2) 1 1 (1 - h)))

/-- The compartments that the other half's part of a command has counted, once it has ended. -/
def Cmd.farCount (c : Cmd) : Option Nat :=
  if !c.wide then some 0
  else match c.part with
    | some (some (_, r)) => some (fieldB r 0 4)
    | _ => none

/-- A command by path that reaches both halves, while Wick is down or the other half is not ready, is refused (R16, log 43). -/
def Chip.wideBad (ch : Chip) (h : Nat) (c : Cmd) : Bool := c.wide && decide (c.aux = 0) && !ch.bothReady h

/-- COMP_PAUSE: PAUSED is set at the start; the command ends once every compartment it named is unbound (R251). -/
def opCompPause : OpFn := fun h c s =>
  if c.tgtComp && (s.2.record c.target).isNone then endCmd h c stParam [] s
  else if s.2.wideBad h c then endCmd h c stRefused [] s
  else
    let first := c.aux = 0
    let ids := if first then s.2.namedComps s.1 h c else []
    let ch := s.2.pauseAll ids
    let aux := if first then 1 + ids.length else c.aux
    let left := ch.tasks.any (fun e => match e.2.bound with
      | some id => ((ch.record id).map (fun r => r.flag fPaused)) = some true &&
          (if c.tgtComp then ch.compUnder 9 id c.target else tHalf e.1 = h && nodeHas s.1 c.target e.1)
      | none => false)
    let ch := ch.updCmd h c.id (fun c => { c with aux := aux })
    if first && c.wide then (s.1, ch.sendPart s.1 h c (c.farEntry h))
    else
      match left, c.farCount with
      | false, some n => endCmd h c stOk (leBytes 4 (aux - 1 + n)) (s.1, ch)
      | _, _ => (s.1, ch)

/-- COMP_RESUME. -/
def opCompResume : OpFn := fun h c s =>
  if c.tgtComp && (s.2.record c.target).isNone then endCmd h c stParam [] s
  else if s.2.wideBad h c then endCmd h c stRefused [] s
  else
    let first := c.aux = 0
    let ids := if first then s.2.namedComps s.1 h c else []
    let ch := ids.foldl (fun ch id => (ch.setFlag id fPaused false).repend id) s.2
    let aux := if first then 1 + ids.length else c.aux
    let ch := ch.updCmd h c.id (fun c => { c with aux := aux })
    if first && c.wide then (s.1, ch.sendPart s.1 h c (c.farEntry h))
    else
      match c.farCount with
      | some n => endCmd h c stOk (leBytes 4 (aux - 1 + n)) (s.1, ch)
      | none => (s.1, ch)

/-- COMP_RESTART. -/
def opCompRestart : OpFn := fun h c s =>
  let ids := s.2.subtree c.target
  if (s.2.record c.target).isNone then endCmd h c stParam [] s
  else if ids.any (fun id => (s.2.boundTo id).isSome) then endCmd h c stRefused [] s
  else endCmd h c stOk [] (s.1, ids.foldl (fun ch id =>
    (((ch.setFlag id fExtinguished false).setFlag id fSaved false).setFlag id fVsaved false).repend id) s.2)

/-- The simple compartments that COMP_MOVE moves (R38). -/
def Chip.movers (ch : Chip) (id : Nat) : List Nat :=
  (ch.subtree id).filter (fun x => match ch.record x with
    | some r => !r.flag fCompound
    | none => false)

/-- COMP_MOVE: the moves start; the command ends when COMPARTMENT_MOVE has ended each of them (R263). -/
def opCompMove : OpFn := fun h c s =>
  let d := c.par 16 1
  match s.2.record c.target with
  | none => endCmd h c stParam [] s
  | some r =>
    if c.aux = 0 then
      if s.2.fld SCH_BAL SCH_BAL_MODE h = 0 ∧ !r.flag fPinned then endCmd h c stRefused [] s
      else if d > 15 then endCmd h c stParam [] s
      else
        let ids := s.2.movers c.target
        if ids.isEmpty then endCmd h c stOk [] s
        else
          let ch := ids.foldl (fun ch id => ch.startMove id (h * 16 + d) (1 + (2 * c.id + h))) s.2
          (s.1, ch.updCmd h c.id (fun c => { c with aux := 1 }))
    else if s.2.moves.any (fun m => m.2.2 = 1 + (2 * c.id + h)) then s
    else
      let mine := s.2.moveEnds.filter (fun e => e.1 = 2 * c.id + h)
      let ch : Chip := { s.2 with moveEnds := s.2.moveEnds.filter (fun e => e.1 ≠ 2 * c.id + h) }
      endCmd h c (if mine.any (fun e => e.2 = 0) then stMove else stOk) [] (s.1, ch)

/-- The GATE of a compound is a copy of its front's, up the tree (R239, R241). -/
def Chip.copyGate (ch : Chip) : Nat → Nat → Cap → Chip
  | 0, _, _ => ch
  | f + 1, id, g =>
    match ch.record id with
    | none => ch
    | some r =>
      let ch := ch.fwCap (ch.recAddr id) g
      if r.flag fHasParent && ((ch.record r.parent).map (fun q => q.flag fCompound && q.front = id)) = some true then
        ch.copyGate f r.parent g
      else ch

/-- COMP_SETFRONT. -/
def opCompSetfront : OpFn := fun h c s =>
  let f := c.par 16 2
  match s.2.record c.target, s.2.record f with
  | some r, some m =>
    if !r.flag fCompound ∨ !m.flag fHasParent ∨ m.parent ≠ c.target then endCmd h c stParam [] s
    else endCmd h c stOk [] (s.1, (s.2.setRec c.target 102 2 f).copyGate 9 c.target m.gate)
  | _, _ => endCmd h c stParam [] s

/-- COMP_SET: it acts on the compartment and on every one beneath it (R38). -/
def opCompSet : OpFn := fun h c s =>
  let b := c.par 16 4
  let what := c.par 21 1
  match s.2.record c.target with
  | none => endCmd h c stParam [] s
  | some r =>
    let ids := s.2.subtree c.target
    let cap := if r.flag fHasParent then ((s.2.record r.parent).map (·.budget)).getD 0 else 2 ^ 32
    let tenant := ids.any (fun i => ((s.2.record i).map (·.priv)) = some 0)
    if tb what 0 ∧ ((tenant ∧ b < 64) ∨ b > cap) then endCmd h c stParam [] s
    else
      let one := fun (ch : Chip) (i : Nat) =>
        let ch := if tb what 0 then ch.setRec i 116 4 b else ch
        if tb what 1 then ch.setFlag i fPinned (tb (c.par 20 1) 0) else ch
      endCmd h c stOk [] (s.1, ids.foldl one s.2)

/-- COMP_QUERY. -/
def opCompQuery : OpFn := fun h c s =>
  match s.2.record c.target with
  | none => endCmd h c stParam [] s
  | some r =>
    let evs := (s.2.queued r).length
    let t := s.2.boundTo c.target
    endCmd h c stOk (leBytes 4 r.flags ++ leBytes 1 r.cluster ++ leBytes 2 evs ++ leBytes 1 (b2n t.isSome) ++
      leBytes 2 ((t.map (fun t => Chip.taskPath s.1 s.2 t)).getD 0)) s

/-- TASKCFG. -/
def opTaskcfg : OpFn := fun h c s =>
  let t := c.par 16 1
  if t > 3 then endCmd h c stParam [] s
  else endCmd h c stOk [] (s.1, s.2.setFld HALF_TASKCFG ⟨2 * (pathClu c.target % 16), 2, .rw, 1, false⟩ h [] t)

/-- TENANT_CREATE. -/
def execTenantCreate (h id rvBase rvLen rb0 rb1 : Nat) (s : State) : Out :=
  opRow 0x100 h id (opTenantCreate rvBase rvLen rb0 rb1) s
/-- TENANT_DESTROY. -/
def execTenantDestroy (h id : Nat) (s : State) : Out := opRow 0x101 h id opTenantDestroy s
/-- TENANT_SET. -/
def execTenantSet (h id : Nat) (s : State) : Out := opRow 0x102 h id opTenantSet s
/-- COMP_CREATE. -/
def execCompCreate (h id : Nat) (data : HostRead) (rsc save : Nat) (s : State) : Out :=
  opRow 0x103 h id (opCompCreate data rsc save) s
/-- COMP_DESTROY. -/
def execCompDestroy (h id : Nat) (s : State) : Out := opRow 0x104 h id opCompDestroy s
/-- COMP_PAUSE. -/
def execCompPause (h id : Nat) (s : State) : Out := opRow 0x105 h id opCompPause s
/-- COMP_RESUME. -/
def execCompResume (h id : Nat) (s : State) : Out := opRow 0x106 h id opCompResume s
/-- COMP_RESTART. -/
def execCompRestart (h id : Nat) (s : State) : Out := opRow 0x107 h id opCompRestart s
/-- COMP_MOVE. -/
def execCompMove (h id : Nat) (s : State) : Out := opRow 0x108 h id opCompMove s
/-- COMP_SETFRONT. -/
def execCompSetfront (h id : Nat) (s : State) : Out := opRow 0x109 h id opCompSetfront s
/-- COMP_SET. -/
def execCompSet (h id : Nat) (s : State) : Out := opRow 0x10A h id opCompSet s
/-- COMP_QUERY. -/
def execCompQuery (h id : Nat) (s : State) : Out := opRow 0x10B h id opCompQuery s
/-- TASKCFG. -/
def execTaskcfg (h id : Nat) (s : State) : Out := opRow 0x10C h id opTaskcfg s

end Sys2Proof.Machine
end

