-- ==== Sys2Proof/Machine/SweepOps.lean ====
section
/-! DEFINITION. Revocation fields of tenant descriptors (R475), the page-owner table (R476), and the beginning of a sweep
(R477, R478). -/

namespace Sys2Proof.Machine

/-- The address of a page's owner entry (R476); `p` is the page number of the half. -/
def Chip.ownAddr (ch : Chip) (h p : Nat) : Nat := h * 2 ^ 40 + ch.fld BG_OWNTAB BG_OWNTAB_BASE_8M h * 2 ^ 23 + 2 * p

/-- The tenant that owns the page of a device physical address in DRAM (R476). -/
def Chip.pageOwner (ch : Chip) (pa : Nat) : Option Nat :=
  let e := ch.ram.visLe (ch.ownAddr (paHalf pa) (paLocal pa / 4096)) 2
  if paDram pa ∧ tb e 15 then some (e % 4096) else none

/-- Write the owner entries of `n` pages from page `p` (R476). -/
def Chip.setOwner (ch : Chip) (h p n e : Nat) : Chip :=
  (List.range n).foldl (fun c i => c.fwWrite (c.ownAddr h (p + i)) (leBytes 2 e)) ch

/-- A field of a tenant descriptor on a half (R475). -/
def Chip.tenantFld (ch : Chip) (h t o n : Nat) : Nat := ch.ram.visLe (ch.tenantAddr h t + o) n

/-- Write a field of a tenant descriptor on a half. -/
def Chip.setTenant (ch : Chip) (h t o n x : Nat) : Chip :=
  { ch with ram := ch.ram.put (ch.tenantAddr h t + o) n x }

/-- Set a bit of a tenant descriptor's byte 16 (R475): 2 SWEEPING, 3 QUEUED. -/
def Chip.tenantBit (ch : Chip) (h t i : Nat) (b : Bool) : Chip :=
  ch.setTenant h t 16 1 (bfSet (ch.tenantFld h t 16 1) i 1 (b2n b))

/-- A sweep of a tenant is queued or in progress (R477). -/
def Chip.sweepPending (ch : Chip) (t : Nat) : Bool :=
  ch.sweepQ.contains t || ((ch.sweep.map (·.tenant)) = some t)

/-- Queue a sweep (R477). -/
def Chip.sweepEnqueue (ch : Chip) (t : Nat) : Chip :=
  { (ch.tenantBit 0 t 3 true).tenantBit 1 t 3 true with sweepQ := ch.sweepQ ++ [t] }

/-- A sweep may start (R477): none is in progress and Wick is up. -/
def Chip.sweepFree (ch : Chip) : Bool := ch.sweep.isNone && ch.wick.h0.up && ch.wickUp 0

/-- The beginning of a sweep (R478): the epoch advances on both halves. -/
def Chip.sweepBegin (ch : Chip) (t : Nat) : Chip :=
  let one := fun (c : Chip) (h : Nat) =>
    let e := (c.tenantFld h t 16 1 % 4 + 1) % 4
    (c.setTenant h t 16 1 (e + 4)).setTenant h t 48 16 0
  let w : Visit := { page := 0, done := false, abandoned := false }
  { one (one ch 0) 1 with sweep := some { tenant := t, v0 := w, v1 := w } }

/-- Start the oldest queued sweep if one may start (R477). -/
def Chip.sweepNext (ch : Chip) : Chip :=
  match ch.sweepQ with
  | [] => ch
  | t :: r => if ch.sweepFree then ({ ch with sweepQ := r } : Chip).sweepBegin t else ch

end Sys2Proof.Machine
end

