-- ==== Sys2Proof/Machine/XltEvents.lean ====
section
/-! DEFINITION. Access and dirty requests (R298, R299, R309), walks that only fill the caches (R289, R290), and clearing
a guard's record (R319). -/

namespace Sys2Proof.Machine

/-- What a task's operation, or (number 0) its block repeat, waits for (R298). -/
def Task.adWaitOf (x : Task) (id : Nat) : Option AdWait :=
  if id = 0 then x.rep.bind (·.adWait) else (x.ops.find? (fun o => o.id = id)).bind (·.adWait)

/-- Change what a task's operation, or (number 0) its block repeat, waits for. -/
def Task.updAdWait (x : Task) (id : Nat) (f : AdWait → AdWait) : Task :=
  if id = 0 then { x with rep := x.rep.map (fun r => { r with adWait := r.adWait.map f }) }
  else { x with ops := x.ops.map (fun o => if o.id = id then { o with adWait := o.adWait.map f } else o) }

/-- Place or merge an A/D request of a half (R298, R309): its ID, where one is free or a request for the entry is held; at most 64
IDs are. In host-assisted mode Chandler forwards a new request to the host (R299, R434). -/
def Chip.adPlace (ch : Chip) (h ten leaf : Nat) (dirty : Bool) : Option Nat × Chip :=
  let q := tGet ch.adq h
  match q.find? (fun r => r.leaf = leaf && (!r.taken || r.dirty || !dirty)) with
  | some r =>
    (some r.id, { ch with adq := tSet ch.adq h (q.map (fun e =>
      if e.id = r.id ∧ !e.taken then { e with dirty := e.dirty || dirty } else e)) })
  | none =>
    match (List.range 64).find? (fun i => q.all (fun r => r.id ≠ i)) with
    | none => (none, ch)
    | some i =>
      let ch := { ch with adq := tSet ch.adq h (q ++ [⟨i, leaf, ten, dirty, false⟩]) }
      (some i, if ch.fld XLT_CTRL XLT_CTRL_ADMODE h = 1 then
        ch.hostEvent h 3 (leBytes 8 leaf ++ leBytes 2 ten ++ [BitVec.ofNat 8 (b2n dirty), 0] ++ leBytes 2 i)
      else ch)

/-- AD_REQUEST (R298): the walker places the request of a waiting operation, which waits on its ID. -/
def adRequest (t id : Nat) (ch : Chip) : Chip :=
  match (ch.task t).adWaitOf id with
  | none => ch
  | some w =>
    if w.req.isSome then ch
    else
      let r := ch.adPlace (tHalf t) w.tenant w.leaf w.dirty
      r.2.updTask t (fun x => x.updAdWait id (fun w => { w with req := r.1 }))

/-- The A/D interrupt to a half's service core (R298): a request is pending. -/
def Chip.adIrq (ch : Chip) (h : Nat) : Bool := (tGet ch.adq h).any (fun r => !r.taken)

/-- The oldest A/D request that has not been read (R309). -/
def Chip.adHead (ch : Chip) (h : Nat) : Option AdReq := (tGet ch.adq h).find? (fun r => !r.taken)

/-- XLT_ADREQ_LO (R309). -/
def Chip.adreqLo (ch : Chip) (h : Nat) : Nat := ((ch.adHead h).map (fun r => bf r.leaf 3 32)).getD 0

/-- XLT_ADREQ_HI (R309). -/
def Chip.adreqHi (ch : Chip) (h : Nat) : Nat :=
  match ch.adHead h with
  | none => 0
  | some r => bf r.leaf 35 6 + r.tenant * 2 ^ 6 + b2n r.dirty * 2 ^ 18 + r.id * 2 ^ 19 + 2 ^ 30

/-- Reading XLT_ADREQ_HI removes the request from the queue; its ID stays held (R309). -/
def Chip.adTake (ch : Chip) (h : Nat) : Chip :=
  match ch.adHead h with
  | none => ch
  | some r =>
    { ch with adq := tSet ch.adq h ((tGet ch.adq h).map (fun q => if q.id = r.id then { q with taken := true } else q)) }

/-- Every operation of a half that waits on a request ID walks again (R298, R309). -/
def Chip.adRelease (ch : Chip) (h id : Nat) : Chip :=
  let go := fun (w : Option AdWait) => if w.bind (·.req) = some id then none else w
  { ch with tasks := ch.tasks.map (fun e =>
      if tHalf e.1 = h then
        (e.1, { e.2 with ops := e.2.ops.map (fun o => { o with adWait := go o.adWait })
                         rep := e.2.rep.map (fun r => { r with adWait := go r.adWait }) })
      else e) }

/-- XLT_ADACK_WRITE (R299, R309): Chandler releases a request and frees its ID; the bits are software's to set (R297). -/
def Chip.adAck (ch : Chip) (h id : Nat) : Chip :=
  if (tGet ch.adq h).any (fun r => r.id = id) then
    ({ ch with adq := tSet ch.adq h ((tGet ch.adq h).filter (fun q => q.id ≠ id)) }).adRelease h id
  else ch

/-- A block repeat stops with a failing element (R146). -/
def Chip.failRep (ch : Chip) (t code stage level fdata : Nat) : Chip :=
  match (ch.task t).rep with
  | none => ch
  | some r => ch.updTask t (fun x => x.stopRep.addFail ⟨r.id, 4, code, stage, level, r.org.fpriv, r.org.addr, fdata, r.org.tw⟩)

/-- A long operation fails (R175, R177): its destination stays as it is. -/
def Chip.failOp (ch : Chip) (t : Nat) (o : LongOp) (code stage level fdata : Nat) : Chip :=
  let ch := if o.drop then ch
    else ch.updTask t (fun x => x.addFail ⟨o.id, o.cls, code, stage, level, o.fpriv, o.addr, fdata, o.tw⟩)
  ch.endOp t o.id

/-- The page that a prefetcher may look ahead to (R290): `kind` 0 the line after the next fetch, within PCC's bounds; 1 and 2 the
line `i` ahead of RSRC or RDST, within its bounds and COUNT; with the permission its use needs. -/
def Task.prefetch (x : Task) (kind i : Nat) : Option (Nat × Nat) :=
  let inside := fun (c : Cap) (a : Nat) => c.tag && decide (c.base ≤ a) && decide (a < c.top)
  let rc := x.rc.toNat
  let op := rcOp rc
  let stream := fun (c : Cap) (need : Nat) =>
    let a := alignDown c.addr 64 + 64 * i
    let n := if op = 5 then 64 else 2 ^ rcEsz rc
    if x.rep.isSome && decide (1 ≤ i) && decide (i ≤ 8) && inside c a && decide (a < c.addr + rcCount rc * n) then some (a, need) else none
  match kind with
  | 0 =>
    let a := alignDown x.nextFetch 64 + 64
    if inside x.pcc a then some (a, 4) else none
  | 1 => if op = 1 ∨ op = 5 then none else stream x.rsrc 1
  | 2 => if op = 3 ∨ op = 4 then none else stream x.rdst (if op = 2 then 1 else 2)
  | _ => none

/-- TRANSLATION_WALK_DONE (R289, R290): a prefetcher's walk fills the translation caches of a task's cluster and core; it reports
nothing. -/
def walkDone (t kind i : Nat) (v : Vig) (ch : Chip) : Chip :=
  let x := ch.task t
  if coreSvc (tCore t) ∨ x.bound.isNone ∨ x.dead ∨ !translatedAs t x.priv x.tw then ch
  else
    match x.prefetch kind i with
    | some (a, need) => (ch.walkFor v (tClu t) (some (tCore t)) x.comp x.tenant a need).1
    | none => ch

/-- AD_REQUEST. -/
def execAdRequest (t id : Nat) (s : State) : Out := chipStep (fun _ ch => adRequest t id ch) s
/-- XLT_ADREQ_READ. -/
def execXltAdreqRead (h : Nat) (s : State) : Out := chipStep (fun _ ch => if h < 2 then ch.adTake h else ch) s
/-- XLT_ADACK_WRITE. -/
def execXltAdackWrite (h id : Nat) (s : State) : Out := chipStep (fun _ ch => if h < 2 then ch.adAck h id else ch) s
/-- TRANSLATION_WALK_DONE. -/
def execTranslationWalkDone (c k t kind i : Nat) (s : State) : Out := chipStep (walkDone ((c * 16 + k) * 64 + t) kind i) s
/-- GRD_VINFO_CLEAR. -/
def execGrdVinfoClear (h m : Nat) (s : State) : Out :=
  chipStep (fun _ ch => if h < 2 ∧ m < 0x108 then ch.clearViolation h m else ch) s

end Sys2Proof.Machine
end

