-- ==== Sys2Proof/Machine/AdrusMem.lean ====
section
/-! DEFINITION. The memory and capability opcodes (R440 to R442). -/

namespace Sys2Proof.Machine

/-- The 64-byte lines of `n` bytes from a line-aligned address. -/
def lineList (a n : Nat) : List Nat := (List.range (n / 64)).map (fun i => a + 64 * i)

/-- Change a tenant's MEMPAGES (R368). -/
def Chip.memPages (ch : Chip) (h t : Nat) (up : Bool) (n : Nat) : Chip :=
  if t ≥ 4096 then ch
  else
    let g := ch.fld MTR_GAUGE MTR_GAUGE_MEMPAGES h [t]
    ch.setFld MTR_GAUGE MTR_GAUGE_MEMPAGES h [t] (if up then g + n else g - n)

/-- MEM_ALLOC; `addr` is the local address that Chandler finds in the half's free usable DRAM. -/
def opMemAlloc (addr : Nat) : OpFn := fun h c s =>
  let t := c.par 16 2
  let k := c.par 18 1
  let al := c.par 19 1
  let n := c.par 20 4
  let pa := h * 2 ^ 40 + addr
  let who := if t = 0xFFFF then k = 2 else s.2.tenantOk h t && 5 ≤ k && k ≤ 15
  if !who ∨ al < 12 ∨ al > 30 ∨ n = 0 then endCmd h c stParam [] s
  else if addr % 2 ^ al ≠ 0 ∨ !s.2.inDram h addr (n * 4096) ∨ (lineList pa (n * 4096)).any (fun a => s.2.ram.colour a ≠ 0) then
    endCmd h c stNoRes [] s
  else
    let ch := (s.2.paint pa (n * 4096) k).memPages h t true n
    let ch := if t = 0xFFFF then ch else ch.setOwner h (addr / 4096) n (2 ^ 15 + t)
    endCmd h c stOk (leBytes 8 addr) (s.1, ch)

/-- A stage-1 block of a compartment of half `h` outputs into the device physical range from `pa` (R440): blocks of tenants
in the small configuration. -/
def Chip.s1Reaches (ch : Chip) (h pa n : Nat) : Bool :=
  (ch.tableIds h).any (fun id =>
    match ch.record id with
    | none => false
    | some r =>
      let full := tb (ch.tenantFld h r.tenant 0 8) 1
      let d := ch.ram.visN (ch.s1Addr id) 256
      !r.flag fCompound && !full && (List.range 8).any (fun j => match blkOf d full j with
        | some b => decide (b.obase < pa + n) && decide (pa < b.obase + b.pages * 4096)
        | none => false))

/-- The pages are what MEM_ALLOC gave the tenant, or host-shared lines (R440). -/
def Chip.pagesOf (ch : Chip) (h t addr n : Nat) : Bool :=
  let pa := h * 2 ^ 40 + addr
  if t = 0xFFFF then (lineList pa (n * 4096)).all (fun a => ch.ram.colour a = 2 && ch.pageOwner a = none)
  else (List.range n).all (fun i => ch.pageOwner (pa + 4096 * i) = some t)

/-- MEM_FREE: its TLBI.TAG has completed when it ends (R292, R440). -/
def opMemFree : OpFn := fun h c s =>
  let t := c.par 16 2
  let n := c.par 20 4
  let addr := c.par 24 8
  let pa := h * 2 ^ 40 + addr
  if c.aux = 1 then if Chip.tenantQuiet h t s.2 then endCmd h c stOk [] (s.1, s.2.tlbiTag h t) else s
  else if s.2.s1Reaches h pa (n * 4096) then endCmd h c stRefused [] s
  else if n = 0 ∨ addr % 4096 ≠ 0 ∨ !s.2.inDram h addr (n * 4096) ∨ !s.2.pagesOf h t addr n then endCmd h c stParam [] s
  else
    let ch := (s.2.paint pa (n * 4096) 0).memPages h t false n
    if t = 0xFFFF then endCmd h c stOk [] (s.1, ch)
    else (s.1, (ch.setOwner h (addr / 4096) n 0).updCmd h c.id (fun c => { c with aux := 1 }))

/-- The output of a block of the small configuration is allowed (R440): pages of the tenant (of any tenant while the
compartment does not exist yet), or the packet buffer. -/
def Chip.outputOk (ch : Chip) (t : Option Nat) (b : Blk) : Bool :=
  let last := b.obase + b.pages * 4096 - 1
  (ch.ram.region b.obase = .pbuf && ch.ram.region last = .pbuf && paHalf b.obase = paHalf last) ||
    (List.range b.pages).all (fun i => match ch.pageOwner (b.obase + 4096 * i) with
      | some o => t.getD o = o
      | none => false)

/-- S1_SET: on the compartment and on every one beneath it (R38). Its TLBI.TAG has completed when it ends (R292, R293). -/
def opS1Set : OpFn := fun h c s =>
  let i := c.par 16 1
  let img := sliceB c.entry 24 32
  let ids := s.2.subtree c.target
  let t := (s.2.record c.target).map (·.tenant)
  let full := (t.map (fun t => tb (s.2.tenantFld h t 0 8) 1)).getD false
  let bad : Bool := match blkOf (sliceB img 0 256) full 0 with
    | some b => !full && !s.2.outputOk t b
    | none => false
  if c.aux = 0 then
    if i > 7 ∨ bad then endCmd h c stParam [] s
    else
      let ch := ids.foldl (fun ch id => ch.fwWrite (ch.s1Addr id + 32 * i) img) s.2
      (s.1, ch.updCmd h c.id (fun c => { c with aux := 1 }))
  else
    match t with
    | none => endCmd h c stOk [] s
    | some t => if Chip.tenantQuiet h t s.2 then endCmd h c stOk [] (s.1, s.2.tlbiTag h t) else s

/-- XLT_INVAL: on both halves; it ends when the invalidations have completed there (R292, R293, R440). -/
def opXltInval : OpFn := fun h c s =>
  let t := c.par 16 2
  let kind := c.par 18 1
  let w := c.par 19 1
  if c.checks && !s.2.bothReady h then endCmd h c stRefused [] s
  else if t ≥ 4096 ∨ kind > 2 then endCmd h c stParam [] s
  else bothHalves h c id (fun ch => !ch.usesTlb h (fun x => kind = 2 || x = t)) (fun ch =>
    let ch := if tb w 0 then ch.wci h else ch
    let ch := if tb w 1 then ch.wciIpa h (c.par 32 8) else ch
    if kind = 0 then ch.tlbiVa h t (c.par 24 8) else if kind = 1 then ch.tlbiTag h t else ch.tlbiAll h) [] s

/-- Mark a range of the revocable window in a half's bitmap (R71, R475). -/
def Chip.revokeOn (ch : Chip) (v : Vig) (g t base n : Nat) : Chip :=
  let rb := g * 2 ^ 40 + ch.tenantFld g t 40 8
  let g0 := (base - ch.tenantFld g t 24 8) / 16
  let ch := (List.range (n / 16)).foldl (fun (c : Chip) i =>
    let a := rb + (g0 + i) / 8
    c.fwWrite a (leBytes 1 (bfSet (c.ram.visLe a 1) ((g0 + i) % 8) 1 1))) ch
  let first := ch.tenantFld g t 56 8
  (ch.setTenant g t 48 8 (ch.tenantFld g t 48 8 + n)).setTenant g t 56 8 (if first = 0 then v.dt else first)

/-- REVOKE. -/
def opRevoke : OpFn := fun h c s =>
  let t := c.par 16 2
  let base := c.par 24 8
  let n := c.par 32 8
  let lo := s.2.tenantFld h t 24 8
  if c.checks && !s.2.bothReady h then endCmd h c stRefused [] s
  else if !s.2.tenantOk h t ∨ base % 16 ≠ 0 ∨ n % 16 ≠ 0 ∨ base < lo ∨ lo + s.2.tenantFld h t 32 8 < base + n then
    endCmd h c stParam [] s
  else bothHalves h c (fun s => (s.1, s.2.revokeOn s.1 h t base n)) (fun _ => true) id [] s

/-- SWEEP: the sweep is queued, or starts at once where it may; the command ends when it starts (R440, R477). -/
def opSweep : OpFn := fun h c s =>
  let t := c.par 16 2
  if c.aux = 1 then if s.2.sweepQ.contains t then s else endCmd h c stOk [] s
  else if s.2.sweepPending t then endCmd h c stRefused [] s
  else if !s.2.tenantOk h t then endCmd h c stParam [] s
  else
    let ch := (s.2.sweepEnqueue t).sweepNext
    if ch.sweepQ.contains t then (s.1, ch.updCmd h c.id (fun c => { c with aux := 1 })) else endCmd h c stOk [] (s.1, ch)

/-- AD_RESOLVE (R442). -/
def opAdResolve : OpFn := fun h c s =>
  let kind := c.par 16 1
  let id := c.par 18 2
  if kind = 0 then
    if (tGet s.2.adq h).any (fun r => r.id = id) then endCmd h c stOk [] (s.1, s.2.adAck h id) else endCmd h c stParam [] s
  else
    let paused := compHalf id = h && ((s.2.record id).map (fun r => r.flag fPaused)) = some true
    if kind = 1 ∧ paused then endCmd h c stOk [] (s.1, (s.2.setFlag id fPaused false).repend id)
    else endCmd h c stParam [] s

/-- A line of a half's memory: DRAM, packet buffer or cluster local memory. -/
def Chip.memLine (ch : Chip) (pa : Nat) : Bool :=
  match ch.ram.region pa with
  | .dram | .pbuf | .clm _ => true
  | _ => false

/-- The checks of MEM_READ and MEM_WRITE (`wr`; R429, R440, R441): a status, or 0. The service core's guard refuses none of these
accesses (R313). -/
def memCheck (c : Cmd) (v : Vig) (ch : Chip) (pa : Nat) (wr : Bool) : Nat :=
  let n := c.dlen
  let l := lineList pa n
  let inMem := l.all (fun a => ch.memLine a)
  if v.lc = 3 ∧ inMem ∧ l.any (fun a => ch.ram.colour a ≠ 2) then stPermit
  else if !c.bufOk 64 ∨ n % 64 ≠ 0 ∨ n > 4096 ∨ pa % 64 ≠ 0 ∨ !inMem ∨ (wr ∧ l.any (fun a => ch.ram.colour a = 0)) then stParam
  else if l.any (fun a => ch.lineBad a) then stData
  else 0

/-- MEM_READ. -/
def opMemRead : OpFn := fun h c s =>
  let a := c.par 24 8
  let pa := h * 2 ^ 40 + a
  let st := if a ≥ 2 ^ 40 then stParam else memCheck c s.1 s.2 pa false
  if st ≠ 0 then endCmd h c st [] s
  else endBuf h c [] (s.2.loadBytes [⟨pa, c.dlen, false, 0⟩]) s

/-- MEM_WRITE: a store to the hand-back window is discarded and counted (R350). -/
def opMemWrite (data : HostRead) : OpFn := fun h c s =>
  let a := c.par 24 8
  let pa := h * 2 ^ 40 + a
  let l := lineList pa c.dlen
  let st := if a ≥ 2 ^ 40 then stParam else memCheck c s.1 s.2 pa true
  if st ≠ 0 then endCmd h c st [] s
  else withBuf h c c.dlen data (fun d s =>
    let ch := l.foldl (fun (ch : Chip) a =>
      if (hbPort a).isSome then ch.cnt FLW_HB_REFUSED FLW_HB_REFUSED_COUNT h
      else { ch with ram := ch.ram.write a (sliceB d (a - pa) 64) }) s.2
    endCmd h c stOk [] (s.1, ch)) s

/-- MEM_ALLOC. -/
def execMemAlloc (h id addr : Nat) (s : State) : Out := opRow 0x200 h id (opMemAlloc addr) s
/-- MEM_FREE. -/
def execMemFree (h id : Nat) (s : State) : Out := opRow 0x201 h id opMemFree s
/-- S1_SET. -/
def execS1Set (h id : Nat) (s : State) : Out := opRow 0x202 h id opS1Set s
/-- XLT_INVAL. -/
def execXltInval (h id : Nat) (s : State) : Out := opRow 0x203 h id opXltInval s
/-- REVOKE. -/
def execRevoke (h id : Nat) (s : State) : Out := opRow 0x204 h id opRevoke s
/-- SWEEP. -/
def execSweep (h id : Nat) (s : State) : Out := opRow 0x205 h id opSweep s
/-- AD_RESOLVE. -/
def execAdResolve (h id : Nat) (s : State) : Out := opRow 0x206 h id opAdResolve s
/-- MEM_READ. -/
def execMemRead (h id : Nat) (s : State) : Out := opRow 0x207 h id opMemRead s
/-- MEM_WRITE. -/
def execMemWrite (h id : Nat) (data : HostRead) (s : State) : Out := opRow 0x208 h id (opMemWrite data) s

end Sys2Proof.Machine
end

