-- ==== Sys2Proof/Machine/FlowAct.lean ====
section
/-! DEFINITION. What the flow engine does with a frame once its lookup is decided (R342 to R348, R352 to R354, R363, R371):
policers, delivery, templates, misses. -/

namespace Sys2Proof.Machine

/-- Drop a frame of the engine (R343, R346): its run is released and the drop counted in FLW_ACT_FAIL. -/
def Chip.actFail (ch : Chip) (h first : Nat) : Chip := (ch.cnt FLW_ACT_FAIL FLW_ACT_FAIL_COUNT h).releaseRun h first

/-- Set a policer's tokens to BURST and its time to now (R371). -/
def Chip.polRefill (ch : Chip) (v : Vig) (h ten p : Nat) : Chip :=
  let b := ch.reg MTR_POLBURST h [ten, p]
  (ch.updFlow h (fun f => { f with pol := mSet f.pol (ten * 8 + p) (b * 256, v.time / 1000) })).setReg MTR_POLTOK h [ten, p] b

/-- R371: whether a policer passes `cost` tokens, and the bucket after. -/
def Chip.police (ch : Chip) (v : Vig) (h ten p len : Nat) : Bool × Chip :=
  let c := ch.reg MTR_POLCFG h [ten, p]
  if !tb c 31 then (true, ch)
  else
    let now := v.time / 1000
    let old := mGet (tGet ch.flow h).pol (ten * 8 + p) (0, 0)
    let tok := min (ch.reg MTR_POLBURST h [ten, p] * 256) (old.1 + bf c 0 24 * (now - old.2))
    let cost := (if tb c 24 then 1 else len) * 256
    let left := if tok ≥ cost then tok - cost else tok
    (tok ≥ cost, (ch.updFlow h (fun f => { f with pol := mSet f.pol (ten * 8 + p) (left, now) })).setReg MTR_POLTOK h [ten, p]
      (left / 256))

/-- The frame capability of a run (R348), derived from FLW_PBCAP of the half that holds the run. -/
def Chip.frameCap (ch : Chip) (h pbva first n ten : Nat) : Cap :=
  let pb := ch.capReg FLW_PBCAP h
  let base := pbva + 2048 * first
  let c := cpos (cdrop (ccut (cpos pb base) (2048 * n)) 0x1003) (base + 128)
  (c.put 124 2 (ch.epochOf h ten)).withTag (c.tag && pb.colour = 3 && pb.has pLoad && pb.has pStore && pb.has pPacket)

/-- A delivery decided at the owning half (R346): event class, tenant, destination, virtual base, and what the event
carries (R347). -/
structure Dlv where
  comp : Nat
  ten : Nat
  cls : Nat
  pbva : Nat
  reason : Nat
  idx : Nat
  tpl : Nat
deriving DecidableEq, Repr

/-- The delivery event of a frame (R347). -/
def dlvEvent (f : Frm) (d : Dlv) (c : Cap) : Ev :=
  let hi := leBytes 2 f.len ++ [BitVec.ofNat 8 f.port, BitVec.ofNat 8 (f.kprof + 16 * d.reason)] ++ leBytes 4 f.h1 ++
    leBytes 4 d.idx ++ leBytes 2 d.tpl ++ leBytes 2 f.eop
  ⟨c, ⟨false, BitVec.ofNat 128 (leNat hi)⟩, d.cls⟩

/-- Offer a delivered frame's event to its queue (R346); with fewer than 5 free entries the frame is released. -/
def Chip.offer (ch : Chip) (v : Vig) (h first comp ten : Nat) (ev : Ev) : Chip :=
  match (ch.record comp).bind (fun r => ch.enqueue comp r ev) with
  | some c => c
  | none => ((ch.cnt FLW_QFULL FLW_QFULL_COUNT h).meter h v.parity ten 16 1).releaseRun h first

/-- The compartment's queue can take an event at once: nothing of it waits and its cluster is not in reset (R346). -/
def Chip.canOffer (ch : Chip) (h comp : Nat) : Bool :=
  ch.reachable comp && !(tGet ch.flow h).dwait.any (fun w => w.comp == comp)

/-- An event waits for its destination's cluster (R346). -/
def Chip.addWait (ch : Chip) (h : Nat) (w : DWait) : Chip := ch.updFlow h (fun x => { x with dwait := x.dwait ++ [w] })

/-- Offer an event, or let it wait (R346). -/
def Chip.offerOrWait (ch : Chip) (v : Vig) (h : Nat) (w : DWait) : Chip :=
  if ch.canOffer h w.comp then ch.offer v h w.first w.comp w.tenant w.ev else ch.addWait h w

/-- The number of buffers of a run. -/
def Chip.runLen (ch : Chip) (h first : Nat) : Nat := ((mGet? (tGet ch.runs h) first).map (fun r => r.size)).getD 0

/-- The run becomes HELD by the destination compartment (R349). -/
def Chip.holdRun (ch : Chip) (v : Vig) (h first n : Nat) (d : Dlv) : Chip :=
  let vb := d.pbva + 2048 * first
  let r : Run := { first := first, size := n, held := true, tenant := d.ten, comp := d.comp, vbase := vb, since := v.clk }
  { ch with runs := tSet ch.runs h (mSet (tGet ch.runs h) first r) }

/-- Deliver a frame that lies in a run of the destination's half (R346, R348, R349, R363): descriptor, holding record,
event. While the destination's cluster is in reset the event waits, and later ones behind it. -/
def Chip.deliverHere (ch : Chip) (v : Vig) (h : Nat) (f : Frm) (d : Dlv) : Chip :=
  let n := ch.runLen h f.first
  let c := ch.frameCap h d.pbva f.first n d.ten
  if c.tag then
    ((ch.frameWrite h (bufAt h f.first) (rxDesc f)).holdRun v h f.first n d).offerOrWait v h
      { first := f.first, comp := d.comp, ev := dlvEvent f d c, tenant := d.ten, since := v.clk }
  else ch.actFail h f.first

/-- Offer every waiting event whose destination can take it again, in order (R34, R346). -/
def Chip.drainWaits (ch : Chip) (v : Vig) (h : Nat) : Chip :=
  let q := (tGet ch.flow h).dwait
  let ch := ch.updFlow h (fun x => { x with dwait := [] })
  q.foldl (fun c w => c.offerOrWait v h w) ch

/-- A lookup's decision (R342, R352): the template, the entry hit, the event's REASON and entry index. -/
structure Hit where
  tpl : Nat
  ent : Option (List Byte)
  reason : Nat
  idx : Nat
deriving DecidableEq, Repr

/-- The entry index of an event without an entry (R347). -/
def noIndex : Nat := 0xFFFFFFFF

/-- The checks of DELIVER before the policer (R346): the destination's record, or none for act_fail. -/
def Chip.dlvCheck (ch : Chip) (h : Nat) (t : List Byte) (ent : Option (List Byte)) : Option CompRec :=
  let e := ent.filter (fun e => tb (entCtl e) 13)
  let s := (e.map entSlot).getD (tplSlot t)
  let q := ch.capReg FLW_DTAB h [s]
  if !q.tag ∨ q.otype ≠ 0xFFD ∨ (e.map (fun e => fieldB e 40 16)).getD q.bits.toNat ≠ q.bits.toNat then none
  else
    match ch.record (q.addr % 2 ^ 16) with
    | none => none
    | some r =>
      if r.qgen ≠ bf q.addr 16 32 ∨ r.qlog2 = 0 ∨ (compHalf r.id ≠ h ∧ !ch.wickUp h) ∨ r.tenant ≠ tplTenant t then none
      else some r

/-- The numbers that go with a frame to be delivered on the other half (R42). -/
def Frm.info (f : Frm) : List Nat := [f.port, f.flags, f.kprof, leNat f.key, f.h1, f.eop, f.time, f.gen]

/-- A frame from the numbers that came with it. -/
def frmOfInfo (first len : Nat) (i : List Nat) : Frm :=
  ⟨first, 128, len, i.getD 0 0, i.getD 1 0, i.getD 2 0, leBytes 40 (i.getD 3 0), i.getD 4 0, i.getD 5 0, i.getD 6 0, i.getD 7 0⟩

/-- The action of a template on a frame that has been rewritten, policed and counted (R343). -/
def Chip.doAction (ch : Chip) (v : Vig) (h : Nat) (f : Frm) (b : List Byte) (t : List Byte) (hit : Hit)
    (r : Option CompRec) : Chip :=
  match tplAction t, r with
  | 1, some r =>
    let d : Dlv := ⟨r.id, tplTenant t, bf (fieldB t 0 4) 4 3, tplPbva t, hit.reason, hit.idx, hit.tpl⟩
    if compHalf r.id = h then ch.deliverHere v h f d
    else
      (ch.packetSend h 1 b (f.info ++ [d.comp, d.ten, d.cls, d.pbva, d.reason, d.idx, d.tpl])).releaseRun h f.first
  | 2, _ => ch.egSend v h (bf (fieldB t 0 4) 8 4) b (some f.first) (tplTenant t) false
  | 3, _ =>
    let rec_ := leBytes 2 f.len ++ [BitVec.ofNat 8 f.port, BitVec.ofNat 8 f.kprof] ++ leBytes 4 f.h1 ++ leBytes 8 f.time ++
      f.key ++ [1]
    let slot := ((mGet? (tGet ch.adrus h).rings 0).map (·.slot)).getD 0
    (match (if f.len + 64 ≤ slot then ch.ringWrite h 0 rec_ b else none) with
      | some c => c
      | none => ch.cnt FLW_PUNT_DROP FLW_PUNT_DROP_COUNT h).releaseRun h f.first
  | _, _ => ch.releaseRun h f.first

/-- Apply a template to a frame (R343): `rx` for a received frame, else a frame handed back for transmission. -/
def Chip.applyTpl (ch : Chip) (v : Vig) (h : Nat) (f : Frm) (hit : Hit) (rx : Bool) : Chip :=
  let t := ch.tpl h hit.tpl
  if !tplOk ch.portCfg t then ch.actFail h f.first
  else
    let rd := Chip.frmBytes v ch h f
    let ch := rd.1
    match applyRws t rd.2 with
    | none => ch.actFail h f.first
    | some b =>
      let ch := if b = rd.2 then ch else ch.frameWrite h (bufAt h f.first + f.off) b
      let r := if tplAction t = 1 then ch.dlvCheck h t hit.ent else none
      if tplAction t = 1 ∧ r.isNone then ch.actFail h f.first
      else
        let ten := tplTenant t
        let len := if rx then f.len + 4 else txLength f.len
        let w := fieldB t 0 4
        let p := if tb w 16 then ch.police v h ten (bf w 17 3) len else (true, ch)
        let ch := p.2
        if !p.1 then ((ch.meter h v.parity ten 12 1).meter h v.parity ten 13 len).releaseRun h f.first
        else
          let ch := if rx then (ch.meter h v.parity ten 0 1).meter h v.parity ten 1 len else ch
          let ch := if tb w 7 then ch.egSend v h (bf w 12 4) b none ten true else ch
          ch.doAction v h f b t hit r

/-- The result of a lookup that is no miss (R342), or its learn and slow-path templates. -/
def Chip.lookupResult (ch : Chip) (h : Nat) (f : Frm) : Hit ⊕ Nat × Nat :=
  let k := ch.reg FLW_KPROF h [f.kprof]
  let deftpl := bf k 8 12
  let exact := tb k 6
  match (if exact then ch.findKey h f.kprof (ch.klen h f.kprof) f.key else none) with
  | some (i, e) => .inl ⟨entTpl e, some e, 0, i⟩
  | none =>
    match (if tb k 7 then classify (tGet ch.flow h).rules f.kprof f.key else none) with
    | some r =>
      if !tb (fieldB r 80 4) 2 then .inl ⟨bf (fieldB r 84 4) 0 12, none, 1, noIndex⟩
      else if exact then .inr (bf (fieldB r 84 4) 0 12, bf (fieldB r 84 4) 16 12)
      else .inl ⟨deftpl, none, 4, noIndex⟩
    | none => if exact then .inr (deftpl, bf k 20 12) else .inl ⟨deftpl, none, 4, noIndex⟩

/-- The learn template is applied without an entry (R353). -/
def Chip.learnless (ch : Chip) (v : Vig) (h : Nat) (f : Frm) (t : Nat) : Chip :=
  (ch.cnt FLW_LEARN_FAIL FLW_LEARN_FAIL_COUNT h).applyTpl v h f ⟨t, none, 5, noIndex⟩ true

/-- A miss (R352 to R354): learn template `t`, slow-path template `m`. -/
def Chip.miss (ch : Chip) (v : Vig) (h : Nat) (f : Frm) (t m : Nat) : Chip :=
  match ch.fld FLW_MODE FLW_MODE_MISS h with
  | 0 =>
    if !tplOk ch.portCfg (ch.tpl h t) ∨ (tGet ch.flow h).pend.length ≥ 256 then ch.learnless v h f t
    else ch.updFlow h (fun x => { x with pend := x.pend ++ [⟨f, t, []⟩] })
  | 2 =>
    let ch := ch.meter h v.parity (tplTenant (ch.tpl h t)) 17 1
    if tplAction (ch.tpl h m) = 1 then ch.applyTpl v h f ⟨m, none, 3, noIndex⟩ true else ch.actFail h f.first
  | _ =>
    let rec_ := leBytes 2 f.len ++ [BitVec.ofNat 8 f.port, BitVec.ofNat 8 f.kprof] ++ leBytes 4 f.h1 ++ leBytes 8 f.time ++
      f.key ++ [0]
    let slot := ((mGet? (tGet ch.adrus h).rings 0).map (·.slot)).getD 0
    let rd := Chip.frmBytes v ch h f
    (match (if f.len + 64 ≤ slot then rd.1.ringWrite h 0 rec_ rd.2 else none) with
      | some c => c.meter h v.parity (tplTenant (ch.tpl h t)) 17 1
      | none => rd.1.cnt FLW_PUNT_DROP FLW_PUNT_DROP_COUNT h).releaseRun h f.first

/-- Two frames of one flow: profile and key. -/
def Frm.same (a b : Frm) : Bool := a.kprof = b.kprof && a.key = b.key

/-- A frame's lookup is decided (R341, R342): behind a learn-pending entry of its key it waits; else it takes its result. -/
def Chip.lookupDone (ch : Chip) (v : Vig) (h : Nat) (f : Frm) : Chip :=
  if (tGet ch.flow h).pend.any (fun p => p.fr.same f) ∧ ch.fld FLW_KPROF FLW_KPROF_EXACT h [f.kprof] = 1 then
    ch.updFlow h (fun x =>
      { x with pend := x.pend.map (fun p => if p.fr.same f then { p with waiting := p.waiting ++ [f] } else p) })
  else
    match ch.lookupResult h f with
    | .inl hit =>
      let ch := match hit.ent with
        | some e => ch.touchEnt v h hit.idx e
        | none => ch
      ch.applyTpl v h f hit true
    | .inr (t, m) => ch.miss v h f t m

/-- The lookup of a frame reads its buckets (R341): it is exact, there is a table, and neither the flow cache nor a learn-pending entry
has its key. -/
def Chip.readsBuckets (ch : Chip) (h : Nat) (f : Frm) : Bool :=
  ch.fld FLW_KPROF FLW_KPROF_EXACT h [f.kprof] = 1 && (ch.log2b h).isSome &&
    (ch.cacheKey h f.kprof (ch.klen h f.kprof) f.key).isNone && !(tGet ch.flow h).pend.any (fun p => p.fr.same f)

/-- Begin a frame's lookup (R341): one that reads no bucket is decided at once unless a frame of its flow is still waiting; any other
waits for its buckets. -/
def Chip.startLookup (ch : Chip) (v : Vig) (h : Nat) (f : Frm) : Chip :=
  if (tGet ch.flow h).lookup.any (fun g => g.same f) ∨ ch.readsBuckets h f then
    ch.updFlow h (fun x => { x with lookup := x.lookup ++ [f] })
  else ch.lookupDone v h f

/-- The bucket reads of a frame are made, and its lookup is decided (R341, R357). A bucket with a line that cannot be corrected drops
the frame (R79, R521). -/
def Chip.bucketsRead (ch : Chip) (v : Vig) (h : Nat) (f : Frm) : Chip :=
  match ch.log2b h with
  | none => ch.lookupDone v h f
  | some k =>
    let b := ch.buckets h k f.kprof (ch.klen h f.kprof) f.key
    if ch.bucketBad h b.1 || ch.bucketBad h b.2 then ch.actFail h f.first
    else (Chip.noteBucket v (Chip.noteBucket v ch h b.1) h b.2).lookupDone v h f

/-- A frame is looked up again (R354). -/
def Chip.relook (ch : Chip) (v : Vig) (h : Nat) (f : Frm) : Chip :=
  if ch.readsBuckets h f then ch.bucketsRead v h f else ch.lookupDone v h f

/-- The entry of the owner map for a hash (R334). -/
def ownIndex (h1 : Nat) : Nat := bf h1 24 8
/-- The owning half of a hash by half `h`'s owner map (R334). -/
def Chip.owner (ch : Chip) (h h1 : Nat) : Nat :=
  b2n (tb (ch.reg FLW_OWNMAP h [ownIndex h1 / 32]) (ownIndex h1 % 32))

/-- Steer a parsed frame by the owner map as it stands (R334 to R336): sent across Wick when the other half owns it; else looked
up. -/
def Chip.steerNow (ch : Chip) (v : Vig) (h : Nat) (f : Frm) : Chip :=
  let f := { f with gen := mGet (tGet ch.flow h).ownN (ownIndex f.h1) 0 }
  if ch.klen h f.kprof ≠ 0 ∧ ch.owner h f.h1 ≠ h then
    let rd := Chip.frmBytes v ch h f
    ((rd.1.cnt FLW_MISDIR FLW_MISDIR_COUNT h).packetSend h 0 rd.2 f.info).releaseRun h f.first
  else ch.startLookup v h f

/-- Steer a parsed frame (R336): held while its owner-map entry is being changed. -/
def Chip.steer (ch : Chip) (v : Vig) (h : Nat) (f : Frm) : Chip :=
  if (tGet ch.flow h).holds.contains (ownIndex f.h1) then ch.updFlow h (fun x => { x with held := x.held ++ [f] })
  else ch.steerNow v h f

/-- A frame admitted and written at offset 128 of its run enters the parser (R327, R330, R332). -/
def Chip.enterParser (ch : Chip) (v : Vig) (h p first : Nat) (b : List Byte) : Chip :=
  match parseFrame (tGet ch.flow h) b (8 * h + p) (ch.fld FLW_PORT FLW_PORT_START h [p]) with
  | none => (ch.cnt FLW_PARSE_ERR FLW_PARSE_ERR_COUNT h).releaseRun h first
  | some r =>
    let kl := ch.klen h r.kprof
    let key := trimKey kl r.key
    ch.steer v h ⟨first, 128, b.length, 8 * h + p, r.flags, r.kprof, key, flowH1 r.kprof kl key, r.eop, v.time, 0⟩

/-- A frame with a good FCS is received (R39, R359, R362, R364): the length limit, the admission, the frame's bytes, the
parser. `pick` is the buffer the engine would take. -/
def Chip.receive (ch : Chip) (v : Vig) (h p : Nat) (b : List Byte) (pick : Nat) : Option Chip :=
  if !v.forwards ∨ ch.fld FLW_CTRL FLW_CTRL_ENABLE h = 0 then some ch
  else
    let m := ch.fld FLW_CTRL FLW_CTRL_MAXFRAME h
    let lim := if 64 ≤ m ∧ m ≤ 9216 then m else 9216
    if b.length + 4 > lim then some (ch.cnt FLW_RX_DROP FLW_RX_DROP_COUNT h)
    else
      match ch.allocRun h b.length (ch.fld FLW_PB FLW_PB_RX_RESERVE h) [pick] with
      | none => none
      | some (first, ch) =>
        some ((ch.frameWrite h (bufAt h first + 128) b).enterParser v h p first b)

end Sys2Proof.Machine
end

