-- ==== Sys2Proof/Machine/Flow.lean ====
section
/-! DEFINITION. The commands of the flow engine (chapter 11). -/

namespace Sys2Proof.Machine

/-- The FCS of a frame's bytes (R40, R561): the CRC-32 of IEEE 802.3, as it stands on the wire. -/
def ethFcs (b : List Byte) : List Byte :=
  leBytes 4 ((b.foldl (fun c x => crcp true 32 0xEDB88320 c x.toNat 1) 0xFFFFFFFF) ^^^ 0xFFFFFFFF)

/-- A half's flow engine runs: the half is a line half and is not in reset. -/
def Chip.engineUp (ch : Chip) (h : Nat) : Bool := decide (h < 2) && !(tGet ch.half h).inReset

/-- A port of half `h` takes and sends frames: it is configured. -/
def Chip.portUp (ch : Chip) (h p : Nat) : Bool := ch.engineUp h && decide (p < 8) && ch.portCfg (8 * h + p)

/-- The FEC of a port has corrected some codewords since the last frame, and met some that it could not (R561, R564). -/
def Chip.fecCount (ch : Chip) (h p : Nat) (fec : FecSeen) : Chip :=
  (ch.cnt ETH_FECCORR ETH_FECCORR_COUNT h [p] fec.corr).cnt ETH_FECUNC ETH_FECUNC_COUNT h [p] fec.unc

/-- FRAME_RECEIVE (R39, R40, R327 to R364): the MAC of port `p` hands on a frame of `bytes`, FCS included. -/
def frameReceive (h p : Nat) (bytes : List Byte) (fec : FecSeen) (pick : Nat) (v : Vig) (ch : Chip) : Chip :=
  let n := bytes.length - 4
  let b := bytes.take n
  if !ch.portUp h p || decide (bytes.length < 64) then ch
  else
    let ch := (ch.fecCount h p fec).updFlow h (fun f => { f with ethAt := v.clk })
    if bytes.drop n != ethFcs b then ch.cnt ETH_FCSERR ETH_FCSERR_COUNT h [p]
    else (ch.receive v h p b pick).getD (ch.cnt FLW_RX_DROP FLW_RX_DROP_COUNT h)

/-- The PACKET message that half `h` must take first (R24): its kind, frame and metadata, and the chip without it. -/
def Chip.takePacket (ch : Chip) (h : Nat) : Option (Nat × List Byte × List Nat × Chip) :=
  let box := (tGet ch.wick h).inbox
  match box.find? (fun m => m.vc = 4) with
  | none => none
  | some m =>
    match m.body with
    | .frame k b i => some (k, b, i, ch.updWick h (fun p => { p with inbox := p.inbox.erase m }))
    | _ => none

/-- MISDIRECTED_FRAME_ARRIVAL (R335, R362): a frame that the other half steered here gets a run, from the reserve too, and
is looked up. -/
def misdirectedArrival (h pick alt : Nat) (v : Vig) (ch : Chip) : Chip :=
  if !ch.engineUp h then ch
  else
    match ch.takePacket h with
    | some (0, b, i, ch) =>
      (match ch.allocRun h b.length 0 [pick, alt] with
       | none => ch.cnt FLW_RX_DROP FLW_RX_DROP_COUNT h
       | some (first, ch) => (ch.frameWrite h (bufAt h first + 128) b).startLookup v h (frmOfInfo first b.length i))
    | _ => ch

/-- WICK_PACKET_FRAME_ARRIVAL (R39, R42, R351): a frame for delivery on this half is copied into its packet buffer and its
event offered; a frame for one of its ports is queued. -/
def packetArrival (h pick : Nat) (v : Vig) (ch : Chip) : Chip :=
  if !ch.engineUp h then ch
  else
    match ch.takePacket h with
    | some (1, b, i, ch) =>
      (match ch.allocRun h b.length 0 [pick] with
       | none => ch.cnt FLW_RX_DROP FLW_RX_DROP_COUNT h
       | some (first, ch) =>
         let g := fun (k : Nat) => i.getD (8 + k) 0
         (ch.frameWrite h (bufAt h first + 128) b).deliverHere v h (frmOfInfo first b.length i)
           { comp := g 0, ten := g 1, cls := g 2, pbva := g 3, reason := g 4, idx := g 5, tpl := g 6 })
    | some (2, b, i, ch) => ch.egQueue v h (i.getD 0 0 % 8) b (portRun i) (some (i.getD 1 0)) (i.getD 2 0 = 1)
    | _ => ch

/-- The misdirected frames that are on their way in one direction of Wick. -/
def WickPort.misdirected (p : WickPort) : List WMsg :=
  (p.replay ++ p.resend ++ p.wire ++ p.txq.flatMap (fun e => e.2)).filterMap (fun f => f.msg) ++ p.inbox

/-- A frame of owner-map entry `j` was steered, by the half that received it, before that half's last change of the entry (R336). -/
def Chip.steeredOld (ch : Chip) (j : Nat) (f : Frm) : Bool :=
  ownIndex f.h1 = j && decide (f.gen < mGet (tGet ch.flow (f.port / 8)).ownN j 0)

/-- A misdirected frame of owner-map entry `j` that was steered under its old value. -/
def Chip.oldMsg (ch : Chip) (j : Nat) (m : WMsg) : Bool :=
  match m.body with
  | .frame 0 b i => ch.steeredOld j (frmOfInfo 0 b.length i)
  | _ => false

/-- A frame of owner-map entry `j` that was steered under the old value has not completed step 5 of R39, or may still be: the
other half, which Wick reaches, has the old value yet (R336). -/
def Chip.entryBusy (ch : Chip) (j : Nat) : Bool :=
  let eng := fun (f : Flow) => f.lookup.any (ch.steeredOld j) || f.pend.any (fun p => (p.fr :: p.waiting).any (ch.steeredOld j))
  eng ch.flow.h0 || eng ch.flow.h1 || ch.wick.h0.misdirected.any (ch.oldMsg j) || ch.wick.h1.misdirected.any (ch.oldMsg j) ||
    (ch.wickUp 0 && decide (ch.owner 0 (j * 2 ^ 24) ≠ ch.owner 1 (j * 2 ^ 24)))

/-- OWNMAP_HOLD_RELEASE (R336): once no frame steered under the old value is short of step 5, half `h` steers the frames
it held for entry `j` under the new value, in arrival order: the oldest and `n` more. The hold ends with the last. -/
def holdRelease (h j n : Nat) (v : Vig) (ch : Chip) : Chip :=
  let f := tGet ch.flow h
  if h ≥ 2 || !f.holds.contains j || ch.entryBusy j then ch
  else
    let mine := f.held.filter (fun x => ownIndex x.h1 = j)
    let stay := mine.drop (n + 1)
    let ch := ch.updFlow h (fun x =>
      { x with holds := if stay.isEmpty then x.holds.filter (fun i => i ≠ j) else x.holds
               held := x.held.filter (fun y => ownIndex y.h1 ≠ j) ++ stay })
    (mine.take (n + 1)).foldl (fun c f => c.steerNow v h f) ch

/-- FLOW_BUCKET_READ_DONE (R341, R342, R357): the bucket reads of the `n`-th waiting frame are complete. Lookups of one flow
complete in arrival order (R357). -/
def bucketReadDone (h n : Nat) (v : Vig) (ch : Chip) : Chip :=
  let l := (tGet ch.flow h).lookup
  match l[n]? with
  | none => ch
  | some f =>
    if h ≥ 2 || (l.take n).any (fun g => g.same f) then ch
    else (ch.updFlow h (fun x => { x with lookup := x.lookup.eraseIdx n })).bucketsRead v h f

/-- DELIVERY_WAIT_TIMEOUT (R346): the `n`-th waiting event has waited 250 microseconds. -/
def deliveryWaitTimeout (h n : Nat) (v : Vig) (ch : Chip) : Chip :=
  match (tGet ch.flow h).dwait[n]? with
  | none => ch
  | some w =>
    if h ≥ 2 ∨ v.clk < w.since + 250000 then ch
    else
      (((ch.updFlow h (fun x => { x with dwait := x.dwait.eraseIdx n })).cnt FLW_QFULL FLW_QFULL_COUNT h).meter
        h v.parity w.tenant 16 1).releaseRun h w.first

/-- Apply the learn template to every frame of a learn that failed (R353, R354). -/
def Chip.learnFailed (ch : Chip) (v : Vig) (h : Nat) (p : Learn) : Chip :=
  (p.fr :: p.waiting).foldl (fun c f => c.learnless v h f p.tpl) ch

/-- A learn took effect, or found an entry (R354, R355): the frame that missed takes the template with REASON 2; the frames
behind it are looked up again in arrival order. -/
def Chip.learned (ch : Chip) (v : Vig) (h : Nat) (p : Learn) (i tpl reason : Nat) : Chip :=
  p.waiting.foldl (fun c f => c.relook v h f)
    (ch.applyTpl v h p.fr { tpl := tpl, ent := some (ch.entNow h i), reason := reason, idx := i } true)

/-- The learn that commits (R352 to R355): an existing entry stands, and the frame uses it as an exact hit. -/
def Chip.commitLearn (ch : Chip) (v : Vig) (h : Nat) (p : Learn) : Chip :=
  let kl := ch.klen h p.fr.kprof
  let ctl := 1 + p.fr.kprof * 2 + kl * 2 ^ 5 + 2 ^ 13 + p.tpl * 2 ^ 14 + tplSlot (ch.tpl h p.tpl) * 2 ^ 26
  match ch.commitInsert v h p.fr.key ctl true false with
  | .full ch => ch.learnFailed v h p
  | .exists_ i ch => ch.learned v h p i (entTpl (ch.ent h i)) 0
  | .done i _ ch => (ch.meter h v.parity (tplTenant (ch.tpl h p.tpl)) 18 1).learned v h p i p.tpl 2

/-- LEARN_COMMIT (R354, R355): the oldest learn commits when it is its turn. -/
def learnCommit (h : Nat) (v : Vig) (ch : Chip) : Chip :=
  let f := tGet ch.flow h
  match f.pend with
  | [] => ch
  | p :: r =>
    if h ≥ 2 || (!f.hostq.isEmpty && !f.lastHost) then ch
    else (ch.updFlow h (fun x => { x with pend := r, lastHost := false })).commitLearn v h p

/-- The result of FLOW_INSERT, FLOW_DELETE and FLOW_QUERY (R443): entry index, REPLACED, control word. -/
def flowResult (i : Nat) (repl : Bool) (ctl : Nat) : List Byte :=
  leBytes 4 i ++ [BitVec.ofNat 8 (b2n repl), 0, 0, 0] ++ leBytes 8 ctl ++ leBytes 8 0

/-- FLOW_FLUSH takes entry `i`: it is valid, of the tenant where one is named, and learned where only those are meant. -/
def Chip.flushes (ch : Chip) (h t : Nat) (learned : Bool) (i : Nat) : Bool :=
  let e := ch.ent h i
  entValid e && (t = 0xFFFF || tplTenant (ch.tpl h (entTpl e)) = t) && (!learned || tb (entCtl e) 11)

/-- The entries that a flush takes. -/
def Chip.flushList (ch : Chip) (h t : Nat) (learned : Bool) : List Nat :=
  match ch.log2b h with
  | none => []
  | some n => (List.range (4 * 2 ^ n)).filter (ch.flushes h t learned)

/-- The command of an update completes; an insert that Chandler makes has none. -/
def Chip.updDone (ch : Chip) (h : Nat) (u : Upd) (st : Nat) (res : List Byte) : Chip :=
  match u.cmd with
  | some c => ch.complete h c st res []
  | none => ch

/-- A host update commits and its command completes (R355, R443, R444). -/
def Chip.commitHost (ch : Chip) (v : Vig) (h : Nat) (u : Upd) : Chip :=
  if u.kind = 0 then
    match ch.commitInsert v h u.key u.ctl false u.replace with
    | .full ch => ch.updDone h u 0x301 []
    | .exists_ _ ch => ch.updDone h u 0x302 []
    | .done i r ch => ch.updDone h u 0 (flowResult i r 0)
  else if u.kind = 3 then
    let go := ch.flushList h u.ctl u.replace
    (go.foldl (fun ch i => ch.removeEnt v h i) ch).updDone h u 0 (leBytes 4 go.length)
  else
    let ch := Chip.noteKey v ch h (bf u.ctl 1 4) (bf u.ctl 5 6) u.key
    match ch.lookupKey h (bf u.ctl 1 4) (bf u.ctl 5 6) u.key with
    | none => ch.updDone h u 0x303 []
    | some (i, _) =>
      if u.kind = 1 then (ch.removeEnt v h i).updDone h u 0 (flowResult i false 0)
      else ch.updDone h u 0 (flowResult i false (entCtl (ch.entNow h i)))

/-- The control word without LASTHIT. -/
def ctlPlain (c : Nat) : Nat := bfSet c 38 16 0

/-- The aging record of an entry (R445). -/
def agingRecord (key : List Byte) (ctl i present : Nat) : List Byte :=
  sliceB key 0 40 ++ leBytes 8 ctl ++ leBytes 4 i ++ [BitVec.ofNat 8 present] ++ leBytes 10 0

/-- An aging removal commits (R355, R358): only while KEY and the control word, LASTHIT apart, are as the scan read them,
and never on a STANDBY (R403). -/
def Chip.commitAge (ch : Chip) (v : Vig) (h : Nat) (u : AgeUpd) : Chip :=
  let ch := Chip.noteBucket v ch h (u.index / 4)
  let e := ch.entNow h u.index
  if e.take 40 != u.key || ctlPlain (entCtl e) != ctlPlain u.ctl || v.pair.role = 3 then ch
  else
    let ch := (ch.removeEnt v h u.index).cnt FLW_AGED FLW_AGED_COUNT h
    if ch.fld FLW_AGE FLW_AGE_REPORT h = 1 then (ch.ringWrite h 1 (agingRecord u.key (entCtl e) u.index 0) []).getD ch else ch

/-- TABLE_UPDATE_COMMIT (R355): a host update when it is its turn, else an aging removal in a slot nobody else uses. `u.ins` is an insert
that Chandler hands to the update unit (R352, R355): it joins the host updates. -/
def tableUpdateCommit (u : UpdTurn) (v : Vig) (ch : Chip) : Chip :=
  let h := u.half
  let f := tGet ch.flow h
  if h ≥ 2 then ch
  else
    match u.ins with
    | some i =>
      if (tGet ch.half h).inReset then ch
      else ch.updFlow h (fun x => { x with hostq := x.hostq ++ [⟨0, sliceB i.key 0 40, i.ctl, i.replace, none⟩] })
    | none =>
    match f.hostq, f.ageq with
    | u :: r, _ =>
      if !f.pend.isEmpty && f.lastHost then ch
      else (ch.updFlow h (fun x => { x with hostq := r, lastHost := true })).commitHost v h u
    | [], u :: r => if f.pend.isEmpty then (ch.updFlow h (fun x => { x with ageq := r })).commitAge v h u else ch
    | [], [] => ch

/-- The scan of one entry (R358); the scanner of a STANDBY removes nothing (R403). -/
def Chip.ageOne (ch : Chip) (v : Vig) (h i : Nat) : Chip :=
  let e := ch.entNow h i
  if !entValid e then ch
  else
    let ch := ch.cacheSync v h i
    let now := ch.tick v h
    let age := (now + 65536 - bf (entCtl e) 38 16) % 65536
    let ch := if age ≥ 0x8000 then ch.putHit v h i (now + 65536 - 0x7FFF) else ch
    let idle := ch.fld FLW_AGE FLW_AGE_IDLE h
    if idle = 0 || age < idle || tb (entCtl e) 12 then ch
    else if ch.fld FLW_MODE FLW_MODE_AGE h = 0 then
      if v.pair.role = 3 then ch else ch.updFlow h (fun x => { x with ageq := x.ageq ++ [⟨i, e.take 40, entCtl e⟩] })
    else (ch.ringWrite h 1 (agingRecord (e.take 40) (entCtl e) i 1) []).getD ch

/-- AGING_SCAN (R358, R411): the scanner visits bucket `b`. -/
def agingScan (h b : Nat) (v : Vig) (ch : Chip) : Chip :=
  match ch.log2b h with
  | none => ch
  | some n =>
    if h ≥ 2 ∨ b ≥ 2 ^ n then ch
    else (List.range 4).foldl (fun c w => c.ageOne v h (4 * b + w)) (Chip.noteBucket v ch h b)

/-- A hand-back is refused (R350, R366). -/
def Chip.hbRefuse (ch : Chip) (v : Vig) (h ten : Nat) : Chip :=
  let ch := ch.cnt FLW_HB_REFUSED FLW_HB_REFUSED_COUNT h
  if ten < 4096 then ch.meter h v.parity ten 23 1 else ch

/-- The engine takes a run that was handed back and acts on its descriptor (R350, R360). -/
def Chip.hbTake (ch : Chip) (v : Vig) (h ten : Nat) (r : Run) : Chip :=
  let ch : Chip := { ch with runs := tSet ch.runs h (mSet (tGet ch.runs h) r.first { r with held := false }) }
  let rd := Chip.engRead1 v ch h (bufAt h r.first) 64
  let ch := rd.1
  let d := rd.2
  let len := fieldB d 16 2
  let off := fieldB d 18 2
  let ti := bf (fieldB d 20 2) 0 12
  let t := ch.tpl h ti
  if fieldB d 22 1 ≠ 0 then ch.releaseRun h r.first
  else if !tb (fieldB t 0 4) 0 || tplTenant t != ten || (tplAction t != 2 && tplAction t != 0) || decide (off < 64) ||
      decide (len < 14) || decide (off + len > 2048 * r.size) then ch.actFail h r.first
  else
    ch.applyTpl v h { first := r.first, off := off, len := len, port := 0, flags := 0, kprof := 0, key := [], h1 := 0
                      eop := 0, time := 0, gen := 0 } { tpl := ti, ent := none, reason := 0, idx := noIndex } false

/-- HAND_BACK (R278, R350): the oldest store to the hand-back window is processed, once every older store of its task is performed. -/
def handBack (h : Nat) (v : Vig) (ch : Chip) : Chip :=
  match tGet ch.hbq h with
  | [] => ch
  | x :: q =>
    if !ch.engineUp h || ch.storesBefore x.task x.before then ch
    else
      let ch : Chip := { ch with hbq := tSet ch.hbq h q }
      let c := x.cap
      if c.otype != 0 || !c.has pPacket || c.colour != 3 then ch.hbRefuse v h x.tenant
      else
        match (tGet ch.runs h).find? (fun e => e.2.held && e.2.vbase = c.base && e.2.tenant = x.tenant) with
        | none => ch.hbRefuse v h x.tenant
        | some (_, r) => if c.top ≠ r.vbase + 2048 * r.size then ch.hbRefuse v h x.tenant else ch.hbTake v h x.tenant r

/-- FRAME_TRANSMIT_DONE (R351, R362, R563): the oldest frame of a port has left the MAC, padded to 60 bytes and with its FCS; its
run is released, and frames of the overflow area come back on-die. -/
def transmitDone (h p : Nat) (v : Vig) (ch : Chip) : Chip :=
  match mGet (tGet ch.flow h).egress p [] with
  | [] => ch
  | f :: q =>
    if !ch.portUp h p then ch
    else
      let b := f.bytes ++ List.replicate (60 - f.bytes.length) 0
      let r := Chip.ovfBack v h (ch.onDie h) q.length [] q ch
      (r.1.updFlow h (fun x => { x with
        egress := mSet x.egress p r.2, sent := mSet x.sent p (b ++ ethFcs b), ethAt := v.clk })).releaseOf f.run

/-- RUN_RECLAIM (R361): a run held for FLW_PB.HOLD_US without a hand-back is released. One whose event still waits is not
held yet. -/
def runReclaim (h first : Nat) (v : Vig) (ch : Chip) : Chip :=
  match mGet? (tGet ch.runs h) first with
  | none => ch
  | some r =>
    if h ≥ 2 || !r.held || decide (v.clk < r.since + 1000 * max 1 (ch.fld FLW_PB FLW_PB_HOLD_US h)) ||
        (tGet ch.flow h).dwait.any (fun w => w.first = first) then ch
    else ((ch.cnt FLW_RECLAIM FLW_RECLAIM_COUNT h).meter h v.parity r.tenant 22 1).releaseRun h first

/-- PARSE_GRAPH_SWAP (R331). -/
def parseGraphSwap (h : Nat) (ch : Chip) : Chip := if h ≥ 2 then ch else ch.updFlow h (fun x => { x with bank := 1 - x.bank })

/-- POLICER_CONFIG_WRITE (R371, R393): MTR_POLCFG (`which` false) or MTR_POLBURST is written. -/
def policerWrite (h ten p : Nat) (burst : Bool) (x : Nat) (v : Vig) (ch : Chip) : Chip :=
  if h ≥ 2 ∨ ten ≥ 4096 ∨ p ≥ 8 then ch
  else
    let ch := if burst then ch.setReg MTR_POLBURST h [ten, p] (x % 2 ^ 32)
      else ch.setReg MTR_POLCFG h [ten, p] (bf x 0 25 + bf x 31 1 * 2 ^ 31)
    ch.polRefill v h ten p

/-- FRAME_RECEIVE. -/
def execFrameReceive (h p : Nat) (bytes : List Byte) (fec : FecSeen) (pick : Nat) (s : State) : Out :=
  chipStep (frameReceive h p bytes fec pick) s
/-- MISDIRECTED_FRAME_ARRIVAL. -/
def execMisdirectedFrameArrival (h pick alt : Nat) (s : State) : Out := chipStep (misdirectedArrival h pick alt) s
/-- WICK_PACKET_FRAME_ARRIVAL. -/
def execWickPacketFrameArrival (h pick : Nat) (s : State) : Out := chipStep (packetArrival h pick) s
/-- OWNMAP_HOLD_RELEASE. -/
def execOwnmapHoldRelease (h j n : Nat) (s : State) : Out := chipStep (holdRelease h j n) s
/-- FLOW_BUCKET_READ_DONE. -/
def execFlowBucketReadDone (h n : Nat) (s : State) : Out := chipStep (bucketReadDone h n) s
/-- DELIVERY_WAIT_TIMEOUT. -/
def execDeliveryWaitTimeout (h n : Nat) (s : State) : Out := chipStep (deliveryWaitTimeout h n) s
/-- LEARN_COMMIT. -/
def execLearnCommit (h : Nat) (s : State) : Out := chipStep (learnCommit h) s
/-- TABLE_UPDATE_COMMIT. -/
def execTableUpdateCommit (u : UpdTurn) (s : State) : Out := chipStep (tableUpdateCommit u) s
/-- AGING_SCAN. -/
def execAgingScan (h b : Nat) (s : State) : Out := chipStep (agingScan h b) s
/-- HAND_BACK. -/
def execHandBack (h : Nat) (s : State) : Out := chipStep (handBack h) s
/-- FRAME_TRANSMIT_DONE. -/
def execFrameTransmitDone (h p : Nat) (s : State) : Out := chipStep (transmitDone h p) s
/-- RUN_RECLAIM. -/
def execRunReclaim (h first : Nat) (s : State) : Out := chipStep (runReclaim h first) s
/-- PARSE_GRAPH_SWAP. -/
def execParseGraphSwap (h : Nat) (s : State) : Out := chipStep (fun _ ch => parseGraphSwap h ch) s
/-- POLICER_CONFIG_WRITE. -/
def execPolicerConfigWrite (h ten p : Nat) (burst : Bool) (x : Nat) (s : State) : Out :=
  chipStep (policerWrite h ten p burst x) s

end Sys2Proof.Machine
end

