-- ==== Sys2Proof/Machine/AdrusFlow.lean ====
section
/-! DEFINITION. The flow-table opcodes (R443 to R446). -/

namespace Sys2Proof.Machine

/-- The KEY of a flow opcode. -/
def Cmd.flowKey (c : Cmd) : List Byte := sliceB c.entry 16 40
/-- The control word of a flow opcode. -/
def Cmd.flowCtl (c : Cmd) : Nat := c.par 56 8

/-- KLEN is at most 40 and the KEY bytes at KLEN and above are zero (R444). -/
def Cmd.keyOk (c : Cmd) : Bool :=
  let n := bf c.flowCtl 5 6
  decide (n ≤ 40) && (c.flowKey.drop n).all (fun b => b = 0)

/-- A fast opcode of the flow table joins the update unit's host updates (R355, R428); it ends with its commit. -/
def flowQueue (kind : Nat) : OpFn := fun h c s =>
  if c.aux = 1 then s
  else
    let u : Upd := ⟨kind, c.flowKey, c.flowCtl, c.replace, some c.id⟩
    (s.1, (s.2.updFlow h (fun f => { f with hostq := f.hostq ++ [u] })).updCmd h c.id (fun c => { c with aux := 1 }))

/-- FLOW_INSERT. -/
def opFlowInsert : OpFn := fun h c s =>
  if !s.1.forwards then endCmd h c stRefused [] s
  else if !c.keyOk ∨ !tb c.flowCtl 0 then endCmd h c stParam [] s
  else flowQueue 0 h c s

/-- FLOW_DELETE. -/
def opFlowDelete : OpFn := fun h c s =>
  if !s.1.forwards then endCmd h c stRefused [] s
  else if !c.keyOk then endCmd h c stParam [] s
  else flowQueue 1 h c s

/-- FLOW_QUERY. -/
def opFlowQuery : OpFn := fun h c s => if !c.keyOk then endCmd h c stParam [] s else flowQueue 2 h c s

/-- FLOW_FLUSH (R355, R443): the removals go through the update unit, in its order. -/
def opFlowFlush : OpFn := fun h c s =>
  let t := c.par 16 2
  if c.aux = 1 then s
  else if t ≥ 4096 ∧ t ≠ 0xFFFF then endCmd h c stParam [] s
  else
    let u : Upd := ⟨3, [], t, tb (c.par 18 1) 0, some c.id⟩
    (s.1, (s.2.updFlow h (fun f => { f with hostq := f.hostq ++ [u] })).updCmd h c.id (fun c => { c with aux := 1 }))

/-- A valid entry of the half's table names template `i`. -/
def Chip.tplNamed (ch : Chip) (h i : Nat) : Bool :=
  match ch.log2b h with
  | none => false
  | some n => (List.range (4 * 2 ^ n)).any (fun k => entValid (ch.ent h k) && entTpl (ch.ent h k) = i)

/-- TEMPLATE_SET. -/
def opTemplateSet (data : HostRead) : OpFn := fun h c s =>
  let i := c.par 16 2
  if i ≥ 4096 ∨ !c.bufOk 64 then endCmd h c stParam [] s
  else withBuf h c 64 data (fun d s =>
    if tplTenant d ≠ tplTenant (s.2.tpl h i) ∧ s.2.tplNamed h i then endCmd h c stRefused [] s
    else endCmd h c stOk [] (s.1, s.2.updFlow h (fun f => { f with tpls := mSet f.tpls i d }))) s

/-- The queue capability of a simple compartment (R245): its cursor holds QGEN and the ID. -/
def queueCap (r : CompRec) : Cap := (((Cap.null.put 0 64 (r.qgen * 2 ^ 16 + r.id)).put 80 12 0xFFD)).withTag true

/-- SLOT_SET. -/
def opSlotSet : OpFn := fun h c s =>
  let i := c.par 16 2
  let id := c.par 18 2
  if tb (c.par 20 1) 0 then
    if id ≠ 0 then endCmd h c stReserved [] s
    else if i ≥ 4096 then endCmd h c stParam [] s
    else endCmd h c stOk [] (s.1, s.2.setCapReg FLW_DTAB h [i] Cap.null)
  else
    match (s.2.frontOf 9 id).bind (fun f => s.2.record f) with
    | none => endCmd h c stParam [] s
    | some r =>
      if i ≥ 4096 then endCmd h c stParam [] s
      else endCmd h c stOk [] (s.1, s.2.setCapReg FLW_DTAB h [i] (queueCap r))

/-- RULE_SET. -/
def opRuleSet (data : HostRead) : OpFn := fun h c s =>
  let i := c.par 16 4
  if i ≥ 65536 ∨ !c.bufOk 128 then endCmd h c stParam [] s
  else withBuf h c 128 data (fun d s =>
    endCmd h c stOk [] (s.1, s.2.updFlow h (fun f => { f with rules := mSet f.rules i d }))) s

/-- Nodes loaded into the inactive bank from node `first` (R331). -/
def Flow.loadNodes (f : Flow) (first n : Nat) (d : List Byte) : Flow :=
  { f with nodes := (List.range n).foldl (fun m i => mSet m ((1 - f.bank) * 64 + first + i) (sliceB d (64 * i) 64)) f.nodes }

/-- PARSE_LOAD. -/
def opParseLoad (data : HostRead) : OpFn := fun h c s =>
  let i := c.par 16 1
  let n := c.par 17 1
  if n = 0 ∨ i + n > 64 ∨ !c.bufOk (64 * n) then endCmd h c stParam [] s
  else withBuf h c (64 * n) data (fun d s =>
    let ch := s.2.updFlow h (fun f => f.loadNodes i n d)
    endCmd h c stOk [] (s.1, if tb (c.par 18 1) 0 then parseGraphSwap h ch else ch)) s

/-- KPROF_SET. -/
def opKprofSet : OpFn := fun h c s =>
  if c.par 16 1 > 15 then endCmd h c stParam [] s
  else endCmd h c stOk [] (s.1, s.2.setReg FLW_KPROF h [c.par 16 1] (c.par 20 4))

/-- The owner map of half `g` is written (R336): from then on it holds the frames of each entry that changes. -/
def Chip.setOwnmap (ch : Chip) (g : Nat) (m : List Byte) : Chip :=
  let new := fun (j : Nat) => fieldB m (j / 8) 1 / 2 ^ (j % 8) % 2
  let chg := (List.range 256).filter (fun j => ch.owner g (j * 2 ^ 24) ≠ new j)
  let ch := ch.updFlow g (fun f =>
    { f with holds := f.holds ++ chg.filter (fun j => !f.holds.contains j)
             ownN := chg.foldl (fun m j => mSet m j (mGet m j 0 + 1)) f.ownN })
  (List.range 8).foldl (fun c k => c.setReg FLW_OWNMAP g [k] (fieldB m (4 * k) 4)) ch

/-- OWNMAP_SET. -/
def opOwnmapSet : OpFn := fun h c s =>
  let m := sliceB c.entry 16 32
  if c.checks && !s.2.bothReady h then endCmd h c stRefused [] s
  else bothHalves h c (fun s => (s.1, s.2.setOwnmap h m)) (fun _ => true) id [] s

/-- PORT_SET. -/
def opPortSet : OpFn := fun h c s =>
  if c.par 16 1 > 7 ∨ c.par 17 1 > 63 then endCmd h c stParam [] s
  else endCmd h c stOk [] (s.1, s.2.setReg FLW_PORT h [c.par 16 1] (c.par 17 1))

/-- TABLE_CONFIG (R339): Chandler paints the table with colour 1 before it sets LOG2B to 10 or more. -/
def opTableConfig : OpFn := fun h c s =>
  let k := c.par 16 1
  let base := bf (c.par 20 4) 0 17 * 2 ^ 23
  let n := 256 * 2 ^ (min 21 k)
  if s.2.tableUsed h then endCmd h c stRefused [] s
  else if k > 31 ∨ (10 ≤ k ∧ !s.2.inDram h base n) then endCmd h c stParam [] s
  else
    let ch := if 10 ≤ k then s.2.paint (h * 2 ^ 40 + base) n 1 else s.2
    endCmd h c stOk [] (s.1, ((ch.setReg FLW_TBL h [] k).setReg FLW_TBASE h [] (bf (c.par 20 4) 0 17)).setReg
      FLW_HASHSEED h [] (c.par 24 4))

/-- RING_SET (R445). -/
def opRingSet : OpFn := fun h c s =>
  let k := c.par 16 1
  let n := c.par 20 4
  let size := n = 0 || (64 ≤ n && n ≤ 65536 && n &&& (n - 1) = 0)
  if k > 1 ∨ c.par 18 1 > 63 ∨ !size then endCmd h c stParam [] s
  else
    let slot := if k = 1 then 64 else if tb (c.par 17 1) 0 then 10240 else 2048
    let r : Ring := ⟨c.par 24 8, n, slot, c.par 18 1, 0, 0, false, true⟩
    endCmd h c stOk [] (s.1, s.2.updAdrus h (fun a => { a with rings := if n = 0 then mDel a.rings k else mSet a.rings k r }))

/-- FRAME_INJECT (R446). `pick` is what a received frame's would be. -/
def opFrameInject (data : HostRead) (pick : Nat) : OpFn := fun h c s =>
  let p := c.par 17 1
  let n := c.dlen
  if !s.1.forwards then endCmd h c stRefused [] s
  else if c.par 16 1 > 1 ∨ p > 7 ∨ n < 60 ∨ n > 9212 ∨ !c.bufOk 60 then endCmd h c stParam [] s
  else withBuf h c n data (fun d s =>
    if c.par 16 1 = 0 then
      (match s.2.allocRun h n (s.2.fld FLW_PB FLW_PB_RX_RESERVE h) [pick] with
       | none => endCmd h c stNoRes [] s
       | some (first, ch) =>
         endCmd h c stOk [] (s.1, (ch.frameWrite h (bufAt h first + 128) d).egQueue s.1 h p d (some (h, first)) none false))
    else
      (match s.2.receive s.1 h p d pick with
       | none => endCmd h c stNoRes [] s
       | some ch => endCmd h c stOk [] (s.1, ch))) s

/-- FLOW_INSERT. -/
def execFlowInsert (h id : Nat) (s : State) : Out := opRow 0x300 h id opFlowInsert s
/-- FLOW_DELETE. -/
def execFlowDelete (h id : Nat) (s : State) : Out := opRow 0x301 h id opFlowDelete s
/-- FLOW_QUERY. -/
def execFlowQuery (h id : Nat) (s : State) : Out := opRow 0x302 h id opFlowQuery s
/-- FLOW_FLUSH. -/
def execFlowFlush (h id : Nat) (s : State) : Out := opRow 0x304 h id opFlowFlush s
/-- TEMPLATE_SET. -/
def execTemplateSet (h id : Nat) (data : HostRead) (s : State) : Out := opRow 0x305 h id (opTemplateSet data) s
/-- SLOT_SET. -/
def execSlotSet (h id : Nat) (s : State) : Out := opRow 0x306 h id opSlotSet s
/-- RULE_SET. -/
def execRuleSet (h id : Nat) (data : HostRead) (s : State) : Out := opRow 0x307 h id (opRuleSet data) s
/-- PARSE_LOAD. -/
def execParseLoad (h id : Nat) (data : HostRead) (s : State) : Out := opRow 0x308 h id (opParseLoad data) s
/-- KPROF_SET. -/
def execKprofSet (h id : Nat) (s : State) : Out := opRow 0x309 h id opKprofSet s
/-- OWNMAP_SET. -/
def execOwnmapSet (h id : Nat) (s : State) : Out := opRow 0x30A h id opOwnmapSet s
/-- PORT_SET. -/
def execPortSet (h id : Nat) (s : State) : Out := opRow 0x30B h id opPortSet s
/-- TABLE_CONFIG. -/
def execTableConfig (h id : Nat) (s : State) : Out := opRow 0x30C h id opTableConfig s
/-- RING_SET. -/
def execRingSet (h id : Nat) (s : State) : Out := opRow 0x30D h id opRingSet s
/-- FRAME_INJECT. -/
def execFrameInject (h id : Nat) (how : ReadEnd) (data : List Byte) (pick : Nat) (s : State) : Out :=
  opRow 0x30E h id (opFrameInject ⟨how, data⟩ pick) s

end Sys2Proof.Machine
end

