-- ==== Sys2Proof/Machine/Wick.lean ====
section
/-! DEFINITION. Wick (R19 to R29): flits, credits, the transmitter's choice, CRC, replay, training and the link being
down. The credit of a flit returns when the receiver accepts it, as it then leaves the receiver's FIFO. -/

namespace Sys2Proof.Machine

/-- The credits of a virtual channel (R21). -/
def vcCredits (vc : Nat) : Nat := if vc = 0 then 16 else if vc = 4 then 192 else 64

/-- The CRC of a flit (R19): payload, then control bits 63:16. -/
def flitCrc (pay : List Byte) (ctl : Nat) : Nat := crc16 (pay ++ leBytes 6 (ctl / 2 ^ 16))

/-- A control word completed with its CRC. -/
def sealCtl (pay : List Byte) (ctl : Nat) : Nat := bfSet ctl 0 16 (flitCrc pay ctl)

/-- Bits 37:33 of a control word: the virtual channel, SOM and EOM. -/
def ctlKeep (ctl : Nat) : Nat := bf ctl 33 5 * 2 ^ 33

/-- A virtual channel's flit may be sent: a flit waits and a credit is held (R22). -/
def WickPort.canSend (p : WickPort) (vc : Nat) : Bool := !(mGet p.txq vc []).isEmpty && 0 < mGet p.credits vc 0

/-- PACKET keeps within its share of the last 16 slots (R23). -/
def WickPort.shareOk (p : WickPort) (share : Nat) : Bool := (p.share.filter id).length + 1 ≤ share

/-- R23: the virtual channel that sends next. -/
def WickPort.pick (p : WickPort) (share : Nat) : Option Nat :=
  let ok := fun (vc : Nat) => p.canSend vc && (vc ≠ 4 || p.shareOk share)
  if ok 0 then some 0
  else if ok 2 then some 2
  else
    let order := if p.rr = 1 then [3, 4, 1] else if p.rr = 3 then [4, 1, 3] else [1, 3, 4]
    order.find? ok

/-- The credits returned in the next flit: virtual channel and count (R22). -/
def WickPort.ret (p : WickPort) : Nat × Nat :=
  match p.retCred.find? (fun e => 0 < e.2) with
  | some e => (e.1, min 15 e.2)
  | none => (0, 0)

/-- The port after it has put credits `r` in a flit. -/
def WickPort.took (p : WickPort) (r : Nat × Nat) : WickPort :=
  if r.2 = 0 then p else { p with retCred := mSet p.retCred r.1 (mGet p.retCred r.1 0 - r.2) }

/-- Half `h` puts a flit on the wire to the other half. -/
def Chip.toWire (ch : Chip) (h : Nat) (f : Flit) : Chip := ch.updWick (1 - h) (fun p => { p with wire := p.wire ++ [f] })

/-- WICK_FLIT_SEND (R19, R22, R23, R26): a replayed flit first, then a flit of the channel R23 picks, else an idle flit. A
new flit waits while 128 are unacknowledged. An idle flit carries SEQ 0: R19 says only that it does not advance SEQ (log 110). -/
def flitSend (h : Nat) (v : Vig) (ch : Chip) : Chip :=
  let p := tGet ch.wick h
  if h ≥ 2 ∨ !p.up ∨ p.down ∨ p.training then ch
  else
    let ack := p.rxSeq * 2 ^ 24 + b2n p.nak * 2 ^ 32
    match p.resend with
    | f :: r =>
      let ctl := sealCtl f.pay (bfSet (bfSet f.ctl 24 8 p.rxSeq) 32 1 (b2n p.nak))
      (ch.updWick h (fun p => { p with resend := r, nak := false, share := (decide (bf ctl 33 3 = 4) :: p.share).take 15 })).toWire h
        { f with ctl := ctl }
    | [] =>
      let ret := p.ret
      let cred := ret.1 * 2 ^ 38 + ret.2 * 2 ^ 41
      match (if p.replay.length ≥ 128 then none else p.pick (ch.fld WCK_CTRL WCK_CTRL_PKT_SHARE h)) with
      | none =>
        let pay := List.replicate 56 (0 : Byte)
        let ctl := sealCtl pay (ack + cred + 2 ^ 45)
        (ch.updWick h (fun p => { p.took ret with nak := false, share := (false :: p.share).take 15 })).toWire h ⟨ctl, pay, none⟩
      | some vc =>
        match mGet p.txq vc [] with
        | [] => ch
        | f :: r =>
          let f := { f with ctl := sealCtl f.pay (ctlKeep f.ctl + p.seqNext * 2 ^ 16 + ack + cred) }
          (ch.updWick h (fun p => { p.took ret with
            nak := false, txq := mSet p.txq vc r, credits := mSet p.credits vc (mGet p.credits vc 0 - 1)
            seqNext := (p.seqNext + 1) % 256, replay := p.replay ++ [f], share := (decide (vc = 4) :: p.share).take 15
            progress := if p.replay.isEmpty then v.clk else p.progress
            rr := if vc = 1 ∨ vc = 3 ∨ vc = 4 then vc else p.rr })).toWire h f

/-- Start training or retraining of the link (R26, R29). -/
def Chip.startTraining (v : Vig) (ch : Chip) : Chip :=
  let f := fun (p : WickPort) => { p with up := false, training := true, trainSince := v.clk, resend := [], wire := [] }
  { ch with wick := ⟨f ch.wick.h0, f ch.wick.h1⟩ }

/-- Send everything unacknowledged again (R26); the eighth replay without progress starts a retraining, by
WICK_RETRAIN. -/
def Chip.replayAll (v : Vig) (ch : Chip) (h : Nat) : Chip :=
  ((ch.updWick h (fun p => { p with resend := p.replay, replays := p.replays + 1, progress := v.clk })).cnt
    WCK_STATUS WCK_STATUS_REPLAYS h).updBg h (fun b => { b with sumReplay := b.sumReplay + 1 })

/-- The answer to a far inbound read of half `h`'s endpoint (R27, R79, R265): an unreadable line gives a free value, and a
request that fails reads as zero (log 75). -/
def Chip.giveInbound (ch : Chip) (h op code : Nat) (data : List Byte) : Chip :=
  match mGet? (tGet ch.adrus h).inbOut op with
  | none => ch
  | some n =>
    let d := if code = 0 then data else leBytes n (if code = 0x30 then Config.freeNat ch.free else 0)
    ({ ch with free := ch.free + 1 }).updAdrus h (fun a => { a with inb := d, inbOut := mDel a.inbOut op })

/-- The answer to the access that a DMA engine has out (R305). -/
def Chip.giveDma (ch : Chip) (k code : Nat) (data : List Byte) (tags : Nat) : Chip :=
  match mGet? ch.dma k with
  | some d => if d.far = some none then { ch with dma := mSet ch.dma k { d with far := some (some (code, data, tags)) } } else ch
  | none => ch

/-- A request's response has arrived, or it has failed: the waiting operation, DMA engine or endpoint gets it (R27, R28). -/
def Chip.giveRsp (ch : Chip) (t op code : Nat) (data : List Byte) (tags : Nat) : Chip :=
  if t ≥ 65600 then ch.giveInbound (t - 65600) op code data
  else if t ≥ 65536 then ch.giveDma (t - 65536) code data tags
  else
    ch.updTask t (fun x => { x with ops := x.ops.map (fun o =>
      if o.id = op ∧ o.remote ∧ o.resp = none then { o with resp := some (code, data, tags) } else o) })

/-- A delivered message: a response goes to its operation, or is late (R27); any other waits in the inbox. -/
def Chip.wickDeliver (ch : Chip) (h : Nat) (m : WMsg) : Chip :=
  match m.body with
  | .memRsp r =>
    if (tGet ch.wick h).reqs.any (fun q => q.tag = m.tag && q.vc = 1) then
      (ch.giveRsp r.task r.op r.code r.data r.tags).updWick h (fun p =>
        { p with reqs := p.reqs.filter (fun q => !(q.tag = m.tag && q.vc = 1)) })
    else ch.cnt WCK_STATUS WCK_STATUS_LATE h
  | _ => ch.updWick h (fun p => { p with inbox := p.inbox ++ [m] })

/-- The unacknowledged flits after the acknowledgement of sequence number `ack` (R19). -/
def ackDrop (ack : Nat) (l : List Flit) : List Flit :=
  if l.any (fun f => bf f.ctl 16 8 = ack) then (l.dropWhile (fun f => bf f.ctl 16 8 ≠ ack)).drop 1 else l

/-- A flit received without error is taken in order (R19, R22, R26); a flit that was taken before returns no credits again. -/
def Chip.flitTake (v : Vig) (ch : Chip) (h ctl : Nat) (f : Flit) : Chip :=
  let p := tGet ch.wick h
  let rest := ackDrop (bf ctl 24 8) p.replay
  let ch := if rest.length < p.replay.length then
      ch.updWick h (fun p => { p with replay := rest, replays := 0, progress := v.clk }) else ch
  let again := !tb ctl 45 && bf ctl 16 8 ≠ (p.rxSeq + 1) % 256
  let n := if again then 0 else bf ctl 41 4
  let cvc := bf ctl 38 3
  let ch := if n = 0 then ch else ch.updWick h (fun p => { p with credits := mSet p.credits cvc (mGet p.credits cvc 0 + n) })
  let ch := if tb ctl 32 ∧ !(tGet ch.wick h).replay.isEmpty then ch.replayAll v h else ch
  if tb ctl 45 || again then ch
  else
    let vc := bf ctl 33 3
    let ch := ch.updWick h (fun p =>
      { p with rxSeq := bf ctl 16 8, skip := false, retCred := mSet p.retCred vc (mGet p.retCred vc 0 + 1) })
    match f.msg with
    | some m => ch.wickDeliver h m
    | none => ch

/-- WICK_FLIT_RECEIVE (R26): half `h` takes the oldest flit on its wire, received with the bits of `noise` flipped. After
an error every later flit is discarded until the replayed one. -/
def flitReceive (h noise : Nat) (v : Vig) (ch : Chip) : Chip :=
  let p := tGet ch.wick h
  match p.wire with
  | [] => ch
  | f :: r =>
    let ch := ch.updWick h (fun p => { p with wire := r })
    if !p.up ∨ p.down ∨ p.training then ch
    else
      let raw := leNat (f.pay ++ leBytes 8 f.ctl) ^^^ (noise % 2 ^ 512)
      let pay := leBytes 56 raw
      let ctl := bf raw 448 64
      if bf ctl 0 16 ≠ flitCrc pay ctl ∨ (!tb ctl 45 ∧ bf ctl 33 3 ≥ 5) then
        (ch.flag WCK_ERR WCK_ERR_CRC_SEEN h).updWick h (fun p => { p with nak := true, skip := true })
      else if p.skip ∧ (tb ctl 45 ∨ bf ctl 16 8 ≠ (p.rxSeq + 1) % 256) then ch
      else ch.flitTake v h ctl f

/-- WICK_REPLAY_TIMEOUT (R26): no acknowledgement of an outstanding flit has come for 200 ns, counted from the last one that
moved ACK, the last replay, or the sending of the oldest flit into an empty buffer (log 111). -/
def replayTimeout (h : Nat) (v : Vig) (ch : Chip) : Chip :=
  let p := tGet ch.wick h
  if h < 2 ∧ p.up ∧ !p.replay.isEmpty ∧ p.resend.isEmpty ∧ p.progress + 200 ≤ v.clk then ch.replayAll v h else ch

/-- WICK_RETRAIN (R26): the same flit was replayed 8 times without progress. -/
def wickRetrain (h : Nat) (v : Vig) (ch : Chip) : Chip :=
  if h < 2 ∧ (tGet ch.wick h).replays ≥ 8 ∧ !(tGet ch.wick h).training then ch.startTraining v else ch

/-- The transmit queues with the flits the far half never took put back in front (R26: none is lost or duplicated). -/
def WickPort.putBack (p : WickPort) (farSeq : Nat) : NMap (List Flit) :=
  (ackDrop farSeq p.replay).foldr (fun f q =>
    let vc := bf f.ctl 33 3
    mSet q vc ({ f with ctl := ctlKeep f.ctl } :: mGet q vc [])) p.txq

/-- A port after a successful training (R22, R29, R311): credits at the counts of R21, sequence numbers from 0. -/
def WickPort.trained (p : WickPort) (farSeq farTop : Nat) : WickPort :=
  { p with
    txq := p.putBack farSeq, credits := [(0, 16), (1, 64), (2, 64), (3, 64), (4, 192)], retCred := [], seqNext := 0
    replay := [], resend := [], acked := 255, replays := 0, rxSeq := 255, nak := false, skip := false, wire := []
    up := true, down := false, training := false, fails := 0, farTop := farTop }

/-- WICK_TRAINING_COMPLETE (R28, R29): training ends, with success or not; both halves have left reset. -/
def trainingComplete (ok : Bool) (ch : Chip) : Chip :=
  let a := ch.wick.h0
  let b := ch.wick.h1
  if !a.training ∨ ch.half.h0.inReset ∨ ch.half.h1.inReset then ch
  else if ok then { ch with wick := ⟨a.trained b.rxSeq (ch.ram.dramTop 1), b.trained a.rxSeq (ch.ram.dramTop 0)⟩ }
  else
    let f := fun (p : WickPort) => { p with fails := min 3 (p.fails + 1) }
    { ch with wick := ⟨f a, f b⟩ }

/-- WCK_STATUS of a half (R29): the link's state over the stored counts. -/
def Chip.wckStatus (ch : Chip) (h : Nat) : Nat :=
  let p := tGet ch.wick h
  let v := ch.reg WCK_STATUS h []
  bfSet v 0 8 (b2n p.up + b2n (!ch.wickUp h) * 2 + b2n p.training * 4 + p.fails * 16)

/-- What one half loses when Wick goes down (R28): its memory requests fail, its EVENT messages are reported, its PACKET
frames are dropped and counted. What the far half has taken already is not lost. -/
def Chip.wickLose (v : Vig) (ch : Chip) (h : Nat) : Chip :=
  let p := tGet ch.wick h
  let msgs := (ackDrop (tGet ch.wick (1 - h)).rxSeq p.replay ++ p.txq.flatMap (fun e => e.2)).filterMap (·.msg)
  let frames := (msgs.filter (fun m => m.vc = 4)).length
  let ch := ch.updWick h (fun p =>
    { p with up := false, down := true, training := false, txq := [], replay := [], resend := [], wire := []
             reqs := p.reqs.filter (fun q => q.vc ≠ 1) })
  let ch := (p.reqs.filter (fun q => q.vc = 1)).foldl (fun c q => c.giveRsp q.task q.op 0x32 [] 0) ch
  let ch := msgs.foldl (fun c m => match m.body with
    | .event e => if e.scluster = 17 then c.cnt SCH_NOTICE_LOST SCH_NOTICE_LOST_COUNT h [((c.record e.scomp).map (·.cluster)).getD 0]
        else Chip.undeliverable v c e 4
    | .frame 2 _ i => c.releaseOf (portRun i)
    | _ => c) ch
  let ch := if frames = 0 then ch else (ch.cnt WCK_PKT_DROPS WCK_PKT_DROPS_COUNT h [] frames).flag WCK_ERR WCK_ERR_PKT_DROP h
  ch.flag WCK_ERR WCK_ERR_DOWN_SEEN h

/-- Wick goes down (R28): both halves lose what was under way, and Chandler of each reports it. -/
def Chip.goDown (v : Vig) (ch : Chip) : Chip :=
  let ch := (ch.wickLose v 0).wickLose v 1
  let rep := fun (c : Chip) (h : Nat) => c.hostEvent h 4 (leBytes 4 (c.wckStatus h) ++ leBytes 4 (c.reg WCK_ERR h []))
  rep (rep ch 0) 1

/-- WICK_DOWN (R28): after three consecutive failed retrainings. -/
def wickDown (v : Vig) (ch : Chip) : Chip :=
  if (tGet ch.wick 0).fails ≥ 3 ∧ !(tGet ch.wick 0).down then ch.goDown v else ch

/-- WCK_CTRL.RETRAIN written with 1 (R29). -/
def wickRetrainWrite (h : Nat) (v : Vig) (ch : Chip) : Chip :=
  if h < 2 ∧ ch.fld WCK_CTRL WCK_CTRL_ENABLE 0 = 1 ∧ ch.fld WCK_CTRL WCK_CTRL_ENABLE 1 = 1 then ch.startTraining v else ch

/-- WCK_CTRL.ENABLE written (R28, R29): 0 holds the link down; once both halves enable it, it trains. -/
def wickEnableWrite (h : Nat) (en : Bool) (v : Vig) (ch : Chip) : Chip :=
  let was := ch.fld WCK_CTRL WCK_CTRL_ENABLE h
  let ch := ch.setFld WCK_CTRL WCK_CTRL_ENABLE h [] (b2n en)
  if !en then if ch.wick.h0.down then ch else ch.goDown v
  else if was = 0 ∧ ch.fld WCK_CTRL WCK_CTRL_ENABLE (1 - h) = 1 then ch.startTraining v
  else ch

/-- A memory request has waited too long (R27). -/
def Chip.reqExpired (ch : Chip) (h : Nat) (v : Vig) (q : WReq) : Bool :=
  let us := min 1000 (max 1 (ch.fld WCK_TIMEOUT WCK_TIMEOUT_TIMEOUT_US h))
  q.sent + us * 1000 ≤ v.clk

/-- WICK_FLIT_SEND. -/
def execWickFlitSend (h : Nat) (s : State) : Out := chipStep (flitSend h) s
/-- WICK_FLIT_RECEIVE. -/
def execWickFlitReceive (h noise : Nat) (s : State) : Out := chipStep (flitReceive h noise) s
/-- WICK_REPLAY_TIMEOUT. -/
def execWickReplayTimeout (h : Nat) (s : State) : Out := chipStep (replayTimeout h) s
/-- WICK_RETRAIN. -/
def execWickRetrain (h : Nat) (s : State) : Out := chipStep (wickRetrain h) s
/-- WICK_TRAINING_COMPLETE. -/
def execWickTrainingComplete (ok : Bool) (s : State) : Out := chipStep (fun _ ch => trainingComplete ok ch) s
/-- WICK_RETRAIN_WRITE. -/
def execWickRetrainWrite (h : Nat) (s : State) : Out := chipStep (wickRetrainWrite h) s

end Sys2Proof.Machine
end

