-- ==== Sys2Proof/Machine/AdrusQ.lean ====
section
/-! DEFINITION. The queues of Adrus (R418 to R420, R425, R427, R445, R454 to R456, R461): doorbells, fetching, completions,
timeouts, and commands forwarded over Wick. -/

namespace Sys2Proof.Machine

/-- SQ_DOORBELL (R419, R456): the host writes `x` to CMD_SQT_q. -/
def sqDoorbell (h q x : Nat) (ch : Chip) : Chip :=
  match mGet? (tGet ch.adrus h).pairs q with
  | none => ch
  | some p => if x % 65536 ≥ p.size then ch.pairError h q else ch.updPairQ h q (fun p => { p with sqTail := x % 65536 })

/-- CQ_DOORBELL (R419, R456): the host writes `x` to CMD_CQH_q. -/
def cqDoorbell (h q x : Nat) (ch : Chip) : Chip :=
  match mGet? (tGet ch.adrus h).pairs q with
  | none => ch
  | some p =>
    if x % 65536 ≥ p.size then ch.pairError h q
    else ch.updPairQ h q (fun p =>
      { p with cqHead := x % 65536, posted := p.posted - (x % 65536 + p.size - p.cqHead) % p.size })

/-- The half's link to its host works and the half is out of reset. -/
def Chip.hostLink (ch : Chip) (h : Nat) : Bool :=
  decide (h < 2) && !(tGet ch.half h).inReset && ch.fld PCIE_STAT PCIE_STAT_LINKUP h = 1

/-- SQ_READ_DONE (R418, R456, R568): the read of pair `q`'s next entry ends. -/
def sqReadDone (h q : Nat) (how : ReadEnd) (entry : List Byte) (ch : Chip) : Chip :=
  match mGet? (tGet ch.adrus h).pairs q with
  | none => ch
  | some p =>
    if !ch.hostLink h ∨ p.err ∨ p.del.isSome ∨ p.sqRead = p.sqTail then ch
    else if how = .failed then ch.pairError h q
    else if how = .poisoned then (ch.flag PCIE_ERR PCIE_ERR_POISONED h).pairError h q
    else ch.updPairQ h q (fun p => { p with sqRead := (p.sqRead + 1) % p.size, buf := p.buf ++ [sliceB entry 0 64] })

/-- A fetched, uncompleted command of a pair, or a completion of it that is not posted yet (R419). -/
def Adrus.heldOf (x : Adrus) (q : Nat) : Nat :=
  (x.cmds.filter (fun c => c.src = .pair q && !c.timedOut)).length + (x.compl.filter (fun c => c.src = .pair q)).length

/-- The commands of a half that its pairs have fetched (R420). -/
def Adrus.fetched (x : Adrus) : Nat :=
  (x.cmds.filter (fun c => !c.timedOut && (match c.src with
    | .pair _ => true
    | _ => false))).length

/-- A RESET of the half itself has started: fetching stops (R435). -/
def Adrus.resetting (x : Adrus) (h : Nat) : Bool :=
  x.cmds.any (fun c => c.op = 6 && c.started && pathLen c.target = 2 && pathHalf c.target = h)

/-- Pair `q` has a fetchable entry (R419, R420, R456, R523). -/
def Chip.fetchable (ch : Chip) (h q : Nat) (p : QPair) : Bool :=
  let x := tGet ch.adrus h
  match p.buf with
  | [] => false
  | e :: _ =>
    !p.err && p.del.isNone && decide (x.heldOf q < p.size - p.posted) &&
      (ch.cmdReady h || ((opInfo (fieldB e 0 2)).map (·.fast)).getD false)

/-- The pair of a list that is served next after `last` (R420). -/
def nextPair (last : Nat) (l : List Nat) : Option Nat :=
  match l.find? (fun q => q > last) with
  | some q => some q
  | none => l.head?

/-- COMMAND_FETCH (R420, R429): high pairs first, round-robin; the entry passes the first four checks or completes. -/
def commandFetch (h : Nat) (v : Vig) (ch : Chip) : Chip :=
  let x := tGet ch.adrus h
  if !ch.hostLink h ∨ ch.fld PCIE_STAT PCIE_STAT_D3 h = 1 ∨ x.fetched ≥ 1024 ∨ x.resetting h then ch
  else
    let ok := x.pairs.filter (fun e => ch.fetchable h e.1 e.2)
    let hi := (ok.filter (fun e => e.2.high)).map (·.1)
    let lo := (ok.filter (fun e => !e.2.high)).map (·.1)
    match (if hi.isEmpty then nextPair x.rrLow lo else nextPair x.rrHigh hi) with
    | none => ch
    | some q =>
      match mGet? x.pairs q with
      | none => ch
      | some p =>
        let sqh := (p.sqHead + 1) % p.size
        let c : Cmd := { id := x.next, src := .pair q, org := 0, entry := p.buf.headD [], at_ := v.clk, sqHead := sqh
                         started := false, fwd := false, acked := false, timedOut := false, aux := 0, part := none }
        let ch := ch.updPairQ h q (fun p => { p with sqHead := sqh, buf := p.buf.drop 1 })
        let ch := ch.updAdrus h (fun x => { x with
          next := x.next + 1, cmds := x.cmds ++ [c]
          rrHigh := if p.high then q else x.rrHigh, rrLow := if p.high then x.rrLow else q })
        let st := c.admission v ch
        if st = 0 then ch else ch.complete h c.id st [] []

/-- Q0_ENABLE_WRITE (R418, R456, R461): `x` is written to CMD_Q0CFG. ENABLE is ignored while READY is 0; pair 0 starts when
there is none, and a write of 0 deletes it. -/
def q0Enable (h x : Nat) (ch : Chip) : Chip :=
  if h ≥ 2 then ch
  else
    let cur := mGet? (tGet ch.adrus h).pairs 0
    let want := tb x 0
    let start := want && cur.isNone && ch.cmdReady h
    let stop := !want && cur.isSome && ch.cmdReady h
    let en := if start then true else if stop then false else ch.fld CMD_Q0CFG CMD_Q0CFG_ENABLE h = 1
    let ch := ch.setReg CMD_Q0CFG h [] (bfSet (x % 2 ^ 27) 0 1 (b2n en))
    if start then
      let sq := ch.reg CMD_Q0SQ_LO h [] + ch.reg CMD_Q0SQ_HI h [] * 2 ^ 32
      let cq := ch.reg CMD_Q0CQ_LO h [] + ch.reg CMD_Q0CQ_HI h [] * 2 ^ 32
      let p := QPair.fresh sq cq (max 1 (bf x 1 12) + 1) (bf x 13 6) (bf x 19 8) (ch.fld CMD_Q0COAL CMD_Q0COAL_TIME h) true
      (ch.updAdrus h (fun a => { a with pairs := mSet a.pairs 0 p })).setQerr h 0 false
    else if stop then ch.stopPair h 0 0
    else ch

/-- The 32 bytes of a completion entry (R425). -/
def Compl.bytes (c : Compl) (sqid : Nat) (phase : Bool) : List Byte :=
  leBytes 2 c.tag ++ [BitVec.ofNat 8 (sqid % 64 + b2n phase * 128), 0] ++ leBytes 2 c.sqHead ++ leBytes 2 c.status ++
    sliceB c.result 0 24

/-- A CQ counts a completion toward its interrupt (R422, R454). -/
def Chip.coalesce (ch : Chip) (v : Vig) (h q : Nat) (noirq : Bool) : Chip :=
  match mGet? (tGet ch.adrus h).pairs q with
  | none => ch
  | some p =>
    if noirq then ch
    else if p.coCount + 1 ≥ max 1 p.count then
      (ch.updPairQ h q (fun p => { p with coCount := 0 })).msixSignal h p.vector
    else ch.updPairQ h q (fun p =>
      { p with coCount := p.coCount + 1, coSince := if p.coCount = 0 then v.clk else p.coSince })

/-- Post a completion to pair `q` (R419, R424, R425, R456): its buffer first, then its entry unless the host refuses it. A pair that is
being deleted takes only the completion of the command that deletes it (R432). -/
def Chip.postTo (ch : Chip) (v : Vig) (h q : Nat) (c : Compl) (ok : Bool) : Chip :=
  match mGet? (tGet ch.adrus h).pairs q with
  | none => ch
  | some p =>
    if p.del.isSome ∧ p.del ≠ some (c.id + 1) then ch
    else
      let ch := ch.hostWrite h c.dptr c.buf
      if !ok then ch.pairError h q
      else
        let ch := ch.hostWrite h (p.cq + 32 * p.cqTail) (c.bytes q p.phase)
        let t := (p.cqTail + 1) % p.size
        (ch.updPairQ h q (fun p =>
          { p with cqTail := t, posted := p.posted + 1, phase := if t = 0 then !p.phase else p.phase })).coalesce v h q c.noirq

/-- The I3C completion (R458): it waits for the controller's private read, announced by an in-band interrupt. -/
def Vig.i3cDone (v : Vig) (c : Compl) : Vig :=
  { v with i3c := { v.i3c with
      busy := false, reply := c.bytes 0 true, ibis := if v.i3c.ibi ∧ v.i3c.addr ≠ 0 then v.i3c.ibis + 1 else v.i3c.ibis } }

/-- COMPLETION_POST (R425): the `n`-th completion that waits is posted; `ok` says that the host takes the write. -/
def completionPost (h n : Nat) (ok : Bool) (v : Vig) (ch : Chip) : Vig × Chip :=
  match (tGet ch.adrus h).compl[n]? with
  | none => (v, ch)
  | some c =>
    if h ≥ 2 then (v, ch)
    else
      let ch := ch.updAdrus h (fun x => { x with compl := x.compl.eraseIdx n })
      match c.src with
      | .pair q => (v, (ch.postTo v h q c ok).reapPairs h)
      | .i3c => (v.i3cDone c, ch)
      | .far => (v, ch)

/-- The oldest `n` completions that wait are posted, in their order. -/
def completionsPosted (h : Nat) : Nat → Vig × Chip → Vig × Chip
  | 0, s => s
  | n + 1, s => completionsPosted h n (completionPost h 0 true s.1 s.2)

/-- MSIX_COALESCE_TIMER (R454). -/
def coalesceTimer (h q : Nat) (v : Vig) (ch : Chip) : Chip :=
  match mGet? (tGet ch.adrus h).pairs q with
  | none => ch
  | some p =>
    if h ≥ 2 ∨ p.coCount = 0 ∨ p.time = 0 ∨ v.clk < p.coSince + p.time * 1000 then ch
    else (ch.updPairQ h q (fun p => { p with coCount := 0 })).msixSignal h p.vector

/-- The Bound of a command in nanoseconds (R432 to R453): what grows with a size is added. -/
def Cmd.bound (c : Cmd) : Nat :=
  let mib := fun (n per : Nat) => (n * per + 2 ^ 20 - 1) / 2 ^ 20
  if c.op = 6 then if pathLen c.target = 4 then 200000 else if pathLen c.target = 3 then 5000000 else 200000000
  else ((opInfo c.op).map (·.bound)).getD 0 +
    (if c.op = 0x200 ∨ c.op = 0x201 then mib (c.par 20 4 * 4096) 20000
     else if c.op = 0x204 then mib (c.par 32 8) 10000
     else if c.op = 0x30C then mib (256 * 2 ^ min 21 (c.par 16 1)) 20000
     else 0)

/-- COMMAND_TIMEOUT (R455): a fetched command has reached its limit. -/
def commandTimeout (h id : Nat) (v : Vig) (ch : Chip) : Chip :=
  match ch.cmd h id with
  | none => ch
  | some c =>
    let lim := max (max 1 (ch.fld CMD_TIMEOUT CMD_TIMEOUT_LIMIT_MS h) * 1000000) c.bound
    let pair := match c.src with
      | .pair _ => true
      | _ => false
    if h ≥ 2 ∨ !pair ∨ c.op = 5 ∨ c.timedOut ∨ v.clk < c.at_ + lim then ch
    else if c.started then
      (ch.updCmd h id (fun c => { c with timedOut := true })).updAdrus h (fun x =>
        { x with compl := x.compl ++ [c.compl stTimeout (leBytes 8 1) []] })
    else ch.complete h id stTimeout (leBytes 8 (b2n c.fwd)) []

/-- PCIE_COMPLETION_TIMEOUT (R456, R522): a read of an entry of pair `q`, or of the input buffer of command `id`, times out. -/
def pcieTimeout (h q : Nat) (id : Option Nat) (v : Vig) (ch : Chip) : Chip :=
  if !ch.hostLink h then ch
  else
    match id with
    | none =>
      match mGet? (tGet ch.adrus h).pairs q with
      | none => ch
      | some p =>
        if p.err ∨ p.del.isSome ∨ p.sqRead = p.sqTail then ch
        else (ch.flag PCIE_ERR PCIE_ERR_CPL_TIMEOUT h).pairError h q
    | some i =>
      match ch.cmd h i with
      | none => ch
      | some c =>
        let input := ((opInfo c.op).map (·.input)).getD false
        if !input ∨ c.started ∨ c.fwd ∨ c.src = .far ∨ !ch.canStart v h c then ch
        else ((ch.flag PCIE_ERR PCIE_ERR_CPL_TIMEOUT h).complete h i stData [] []).reapPairs h

/-- The MGMT message of a half that waits first (R427), without it the chip. -/
def Chip.takeMgmt (ch : Chip) (h : Nat) (ok : Nat → Bool) : Option (Nat × List Nat × List Byte × Chip) :=
  match (tGet ch.wick h).inbox.find? (fun m => match m.body with
    | .mgmt k _ _ => ok k
    | _ => false) with
  | none => none
  | some m =>
    match m.body with
    | .mgmt k n b => some (k, n, b, ch.updWick h (fun p => { p with inbox := p.inbox.erase m }))
    | _ => none

/-- FORWARDED_COMMAND_ARRIVAL (R427): the half accepts the command, or answers at once that it is not ready. -/
def forwardedArrival (h : Nat) (v : Vig) (ch : Chip) : Chip :=
  if h ≥ 2 ∨ (tGet ch.half h).inReset then ch
  else
    match ch.takeMgmt h (fun k => k = 0) with
    | none => ch
    | some (_, n, b, ch) =>
      let org := n.headD 0
      if !ch.cmdReady h then ch.wickSend h (mkMsg 0 2 0xFFFFFF (org % 65536) (.mgmt 2 [org] []))
      else
        let x := tGet ch.adrus h
        let c : Cmd := { id := x.next, src := .far, org := org, entry := b, at_ := v.clk, sqHead := 0
                         started := false, fwd := false, acked := false, timedOut := false, aux := 0, part := none }
        (ch.updAdrus h (fun x => { x with next := x.next + 1, cmds := x.cmds ++ [c] })).wickSend h
          (mkMsg 0 1 0xFFFFFF (org % 65536) (.mgmt 1 [org] []))

/-- A forwarded command's acknowledgement or refusal arrives (R27, R427): one that is late is counted. A part that the other half
turns away leaves its command TIMEOUT (R576). -/
def Chip.forwardReply (ch : Chip) (h k org : Nat) : Chip :=
  if (tGet ch.wick h).reqs.any (fun q => q.vc = 0 && q.tag = org) then
    let ch := ch.updWick h (fun p => { p with reqs := p.reqs.filter (fun q => !(q.vc = 0 && q.tag = org)) })
    if k = 1 then ch.updCmd h org (fun c => { c with acked := true }) else if ((ch.cmd h org).map (·.fwd)) = some true then ch.complete h org stRefused [] []
    else ch.complete h org stTimeout (leBytes 8 1) []
  else ch.cnt WCK_STATUS WCK_STATUS_LATE h

/-- FORWARDED_COMPLETION_ARRIVAL (R427, R455): an acknowledgement, a refusal or a completion of a forwarded command. -/
def forwardedCompletion (h : Nat) (ch : Chip) : Chip :=
  if h ≥ 2 ∨ (tGet ch.half h).inReset then ch
  else
    match ch.takeMgmt h (fun k => k = 1 || k = 2 || k = 3) with
    | none => ch
    | some (k, n, b, ch) =>
      let org := n.headD 0
      if k ≠ 3 then ch.forwardReply h k org
      else
        match ch.cmd h org with
        | some c =>
          if c.fwd then ch.complete h org (n.getD 1 0) (sliceB b 0 24) (b.drop 24)
          else if c.part = some none then ch.updCmd h org (fun c => { c with part := some (some (n.getD 1 0, b)) })
          else ch.cnt CMD_TIMEOUT CMD_TIMEOUT_LATE h
        | none => ch.cnt CMD_TIMEOUT CMD_TIMEOUT_LATE h

/-- WICK_REQUEST_TIMEOUT (R27): the oldest request of half `h` that has waited WCK_TIMEOUT.TIMEOUT_US. -/
def wickRequestTimeout (h : Nat) (v : Vig) (ch : Chip) : Chip :=
  match (tGet ch.wick h).reqs.find? (ch.reqExpired h v) with
  | none => ch
  | some q =>
    if h ≥ 2 then ch
    else
      let ch := (ch.updWick h (fun p => { p with reqs := p.reqs.erase q })).flag WCK_ERR WCK_ERR_TIMEOUT_SEEN h
      if q.vc = 0 then ch.complete h q.tag stTimeout (leBytes 8 1) [] else (ch.giveRsp q.task q.op 0x31 [] 0)

/-- Outstanding commands forwarded by either half end when Wick is down (R28, R427). -/
def Chip.wickFail (was : Bool) (ch : Chip) : Chip :=
  if !was ∧ (tGet ch.wick 0).down then (ch.failForwards 0).failForwards 1 else ch

/-- WICK_ENABLE_WRITE (R28, R29). -/
def Chip.wickEnable (v : Vig) (ch : Chip) (h : Nat) (en : Bool) : Chip := (wickEnableWrite h en v ch).wickFail (tGet ch.wick 0).down

/-- SQ_DOORBELL. -/
def execSqDoorbell (h q x : Nat) (s : State) : Out := chipStep (fun _ ch => sqDoorbell h q x ch) s
/-- CQ_DOORBELL. -/
def execCqDoorbell (h q x : Nat) (s : State) : Out := chipStep (fun _ ch => cqDoorbell h q x ch) s
/-- RING_DOORBELL. -/
def execRingDoorbell (h k x : Nat) (s : State) : Out := chipStep (fun _ ch => ch.ringHead h k x) s
/-- Q0_ENABLE_WRITE. -/
def execQ0EnableWrite (h x : Nat) (s : State) : Out := chipStep (fun _ ch => q0Enable h x ch) s
/-- COMMAND_FETCH. -/
def execCommandFetch (h : Nat) (s : State) : Out := chipStep (commandFetch h) s
/-- SQ_READ_DONE. -/
def execSqReadDone (h q : Nat) (how : ReadEnd) (entry : List Byte) (s : State) : Out :=
  chipStep (fun _ ch => sqReadDone h q how entry ch) s
/-- COMPLETION_POST. -/
def execCompletionPost (h n : Nat) (ok : Bool) (s : State) : Out := bothStep (completionPost h n ok) s
/-- MSIX_COALESCE_TIMER. -/
def execMsixCoalesceTimer (h q : Nat) (s : State) : Out := chipStep (coalesceTimer h q) s
/-- COMMAND_TIMEOUT. -/
def execCommandTimeout (h id : Nat) (s : State) : Out := chipStep (commandTimeout h id) s
/-- PCIE_COMPLETION_TIMEOUT. -/
def execPcieCompletionTimeout (h q : Nat) (id : Option Nat) (s : State) : Out := chipStep (pcieTimeout h q id) s
/-- FORWARDED_COMMAND_ARRIVAL. -/
def execForwardedCommandArrival (h : Nat) (s : State) : Out := chipStep (forwardedArrival h) s
/-- FORWARDED_COMPLETION_ARRIVAL. -/
def execForwardedCompletionArrival (h : Nat) (s : State) : Out := chipStep (fun _ ch => forwardedCompletion h ch) s
/-- WICK_REQUEST_TIMEOUT. -/
def execWickRequestTimeout (h : Nat) (s : State) : Out := chipStep (wickRequestTimeout h) s
/-- WICK_DOWN. -/
def execWickDown (s : State) : Out := chipStep (fun v ch => (wickDown v ch).wickFail (tGet ch.wick 0).down) s
/-- WICK_ENABLE_WRITE. -/
def execWickEnableWrite (h : Nat) (en : Bool) (s : State) : Out :=
  chipStep (fun v ch => if h < 2 then ch.wickEnable v h en else ch) s

end Sys2Proof.Machine
end

