-- ==== Sys2Proof/Machine/Pair.lean ====
section
/-! DEFINITION. The commands of the pair and its mirror links (chapter 13). -/

namespace Sys2Proof.Machine

/-- HEARTBEAT_SEND (R404): every 5 microseconds, a heartbeat on every link that is up, and an edge on PEER_ALIVE_OUT; none
while the device holds the ball high. -/
def heartbeatSend (v : Vig) (ch : Chip) : Vig × Chip :=
  if v.clk < ch.mir.h0.hbSent + 5000 then (v, ch)
  else
    let ch := (ch.updMir 0 (fun l => { l with hbSent := v.clk })).updMir 1 (fun l => { l with hbSent := v.clk })
    if v.pair.aliveHeld then (v, ch)
    else (v.updPair (fun p => { p with aliveOut := !p.aliveOut }), ch.mirSendAll 0 (ctlMsg v 1) true)

/-- The spacing of a channel's cells in picoseconds (R401): MEMORY is not capped. -/
def chanGap (step chn : Nat) : Nat :=
  match chn with
  | 0 => 1000000
  | 1 => if step = 3 then 6667 else 10000
  | 2 => 12196
  | 3 => 125000
  | _ => 0

/-- The channel that sends next (R401): strict priority, each within its cap. -/
def MirLink.pick (l : MirLink) (now : Nat) : Option Nat :=
  (List.range 5).find? (fun c => !(mGet l.txq c []).isEmpty && mGet l.nextAt c 0 ≤ now * 1000 + 9999)

/-- The 64 bytes of a cell (R400). -/
def cellBytes (c : MCell) (seq ack : Nat) (nak : Bool) : List Byte :=
  let hd := c.chn + b2n c.som * 8 + b2n c.eom * 16 + b2n c.unseq * 32 + seq * 2 ^ 8 + ack * 2 ^ 24 + b2n nak * 2 ^ 40
  leBytes 6 hd ++ leBytes 2 (crc16 (c.pay ++ leBytes 6 hd)) ++ c.pay

/-- A cell joins the codeword under way; ten cells after the alignment marker and the codeword count fill one, and codewords alternate
between the two lanes (R400, log 126). -/
def MirLink.fill (l : MirLink) (b : List Byte) : MirLink :=
  let c := l.cells ++ [b]
  if c.length < 10 then { l with cells := c }
  else
    let w := leBytes 643 (0xA5C + l.cwCount * 2 ^ 12 + leNat c.flatten * 2 ^ 20)
    { l with cells := [], cwCount := (l.cwCount + 1) % 256, lanes := tSet l.lanes (l.cwCount % 2) w }

/-- A cell goes out on the link. -/
def MirLink.emit (l : MirLink) (b : List Byte) : MirLink := { l.fill b with out := b, nak := false }

/-- The mirror queue's next line goes to the MEMORY channel when that is empty (R401, R409), charged under R366. -/
def Chip.linesOut (ch : Chip) (v : Vig) (h : Nat) : Chip :=
  let q := (tGet ch.mirq h).dropWhile (fun l => l.marker)
  if !(mGet (tGet ch.mir h).txq 4 []).isEmpty then ch
  else
    match q with
    | [] => { ch with mirq := tSet ch.mirq h [] }
    | l :: r => (({ ch with mirq := tSet ch.mirq h r } : Chip).meter h v.parity l.tenant 15 64).mirSend h 4 (lineMsg l)

/-- MIRROR_CELL_SEND (R400 to R402): cells to be replayed first (the oldest of them counts a replay), then the channel R401 picks; at most 4,096 cells wait for
acknowledgement. -/
def mirCellSend (h : Nat) (v : Vig) (ch : Chip) : Chip :=
  if h ≥ 2 ∨ !(tGet ch.mir h).up then ch
  else
    match (tGet ch.mir h).resend with
    | (s, c) :: r =>
      ch.updMir h (fun l =>
        let oldest := (l.replay.head?.map (·.1)) = some s
        { l.emit (cellBytes c s l.rxSeq l.nak) with resend := r, replays := l.replays + b2n oldest })
    | [] =>
      let ch := ch.linesOut v h
      let l := tGet ch.mir h
      match l.pick v.clk with
      | none => ch
      | some k =>
        match mGet l.txq k [] with
        | [] => ch
        | c :: r =>
          if !c.unseq && decide (l.replay.length ≥ 4096) then ch
          else
            ch.updMir h (fun l => { l.emit (cellBytes c (if c.unseq then 0 else l.seqNext) l.rxSeq l.nak) with
              flowSent := if k = 1 then l.flowSent + 1 else l.flowSent
              txq := mSet l.txq k r, nextAt := mSet l.nextAt k (max (mGet l.nextAt k 0) (v.clk * 1000) + chanGap v.pair.step k)
              seqNext := if c.unseq then l.seqNext else (l.seqNext + 1) % 65536
              replay := if c.unseq then l.replay else l.replay ++ [(l.seqNext, c)]
              progress := if l.replay.isEmpty then v.clk else l.progress })

/-- A heartbeat says that the peer has left the resynchronisation (R415): the active's peer is in neither RESYNC nor STANDBY any more, or
the standby's peer is not active. -/
def Pair.peerGone (p : Pair) (role : Nat) : Bool :=
  decide (p.step ≥ 2) && ((decide (p.role = 2) && role ≠ 4 && role ≠ 3) || (decide (p.role = 4) && role ≠ 1 && role ≠ 2))

/-- A heartbeat or TAKEN has arrived (R399, R405, R407, R415). -/
def peerHere (role epoch : Nat) (s : Vig × Chip) : Vig × Chip :=
  let p := s.1.pair
  let s : Vig × Chip := (s.1.updPair (fun p => { p with peerRole := role }), s.2)
  let s := if p.peerGone role then abandonResync s else s
  if (p.role = 1 ∨ p.role = 2) ∧ (role = 1 ∨ role = 2) ∧ (epoch > p.epoch ∨ (epoch = p.epoch ∧ p.pos = 1)) then demote s
  else if p.role = 1 ∧ role ≠ 3 then setRole 2 s
  else s

/-- A HELLO has arrived (R414): each side answers with its own; the standby takes the active's EPOCH, empties its copy and is at step 2;
the active starts live mirroring, and its deltas begin anew with the peer's empty shadow. A mismatch ends the resynchronisation. -/
def helloHere (pos epoch pairId tag : Nat) (s : Vig × Chip) : Vig × Chip :=
  let p := s.1.pair
  let good := pairId = p.pairId ∧ pos ≠ p.pos ∧ tag = p.cfgTag
  if p.role = 0 ∨ p.role = 3 ∨ p.step ≥ 2 then s
  else if !decide good then
    let s := if p.helloSent then s else sendHello s
    ((s.1.pairErr 5).updPair (fun p => { p with step := 0, helloSent := false }), s.2)
  else if p.role ≥ 4 then
    let s := if p.role = 5 then setRole 4 (s.1.updPair (fun p => { p with aliveHeld := false }), s.2) else s
    let s := if s.1.pair.helloSent then s else sendHello s
    emptyCopy (s.1.updPair (fun p => { p with epoch := epoch, step := 2, doneRecv := false }), s.2)
  else
    let s := setRole 2 s
    let s := if s.1.pair.helloSent then s else sendHello s
    let zero := fun (l : MirLink) => { l with bucket := 0, curComp := 0, curBlk := 0, curOff := 0 }
    setStep 2 (({ s.1 with told := [] } : Vig).updPair (fun p => { p with peerRole := 4, doneRecv := false }),
      (s.2.updMir 0 zero).updMir 1 zero)

/-- A whole CONTROL message (R404, R414). -/
def controlHere (h : Nat) (b : List Byte) (s : Vig × Chip) : Vig × Chip :=
  let role := fieldB b 1 1 % 8
  let epoch := fieldB b 2 4
  match fieldB b 0 1 with
  | 1 => peerHere role epoch (s.1, s.2.updMir h (fun l => { l with hbAt := some s.1.clk }))
  | 2 =>
    if s.1.pair.role = 3 then (s.1.updPair (fun p => { p with gotYield := true }), s.2)
    else if s.1.pair.role = 4 ∧ s.1.pair.step ≥ 2 then abandonResync s
    else s
  | 3 => peerHere role epoch s
  | 4 => helloHere (bf (fieldB b 1 1) 3 1) epoch (fieldB b 6 4) (fieldB b 10 4) s
  | 5 => (s.1.updPair (fun p => { p with doneRecv := true }), s.2)
  | 6 => if s.1.pair.role = 4 ∧ s.1.pair.step ≥ 2 then (s.1.updPair (fun p => { p with step := fieldB b 10 1 }), s.2) else s
  | _ => s

/-- A cell that is taken: it joins its channel's message, which is acted on when whole (R400, R401). -/
def cellTaken (h chn : Nat) (som eom : Bool) (pay : List Byte) (s : Vig × Chip) : Vig × Chip :=
  let l := tGet s.2.mir h
  let m := (if som then [] else mGet l.rx chn []) ++ pay
  if !eom then (s.1, s.2.updMir h (fun l => { l with rx := mSet l.rx chn m }))
  else
    let ch := s.2.updMir h (fun l => { l with rx := mDel l.rx chn })
    if chn = 0 then controlHere h m (s.1, ch)
    else (s.1, ch.updMir h (fun l => { l with inbox := l.inbox ++ [(chn, m)] }))

/-- The cells left after an acknowledgement (R402). -/
def mirAck (ack : Nat) (l : List (Nat × MCell)) : List (Nat × MCell) :=
  if l.any (fun e => e.1 = ack) then (l.dropWhile (fun e => e.1 ≠ ack)).drop 1 else l

/-- MIRROR_CELL_RECEIVE (R400 to R402, R405 to R407, R414): a cell with a bad CRC or channel asks for a replay; a sequenced
cell is taken in order. The decision of R406 is evaluated. -/
def mirCellReceive (h : Nat) (cell : List Byte) (v : Vig) (ch : Chip) : Vig × Chip :=
  if h ≥ 2 ∨ !(tGet ch.mir h).up then (v, ch)
  else
    let hd := fieldB cell 0 6
    let pay := sliceB cell 8 56
    if fieldB cell 6 2 ≠ crc16 (pay ++ leBytes 6 hd) ∨ bf hd 0 3 ≥ 5 then (v, ch.updMir h (fun l => { l with nak := true }))
    else
      let l := tGet ch.mir h
      let left := mirAck (bf hd 24 16) l.replay
      let ch := if left.length < l.replay.length then
          ch.updMir h (fun l => { l with replay := left, resend := l.resend.filter (fun e => left.any (fun x => x.1 = e.1))
                                         replays := 0, progress := v.clk }) else ch
      let ch := if tb hd 40 ∧ !left.isEmpty then
          ch.updMir h (fun l => { l with resend := left, progress := v.clk }) else ch
      let seq := bf hd 8 16
      let s : Vig × Chip :=
        if tb hd 5 then cellTaken h (bf hd 0 3) (tb hd 3) (tb hd 4) pay (v, ch)
        else if seq = (l.rxSeq + 1) % 65536 then
          cellTaken h (bf hd 0 3) (tb hd 3) (tb hd 4) pay (v, ch.updMir h (fun l => { l with rxSeq := seq }))
        else if (seq + 65536 - l.rxSeq) % 65536 < 32768 ∧ seq ≠ l.rxSeq then (v, ch.updMir h (fun l => { l with nak := true }))
        else (v, ch)
      decideTake s

/-- PEER_ALIVE_EDGE (R405): the ball takes a level. -/
def aliveEdge (level : Bool) (v : Vig) (ch : Chip) : Vig × Chip :=
  decideTake (v.updPair (fun p => { p with ballIn := level, edgeAt := v.clk, ball := 0 }), ch)

/-- PATH_TIMEOUT (R399, R405, R406): the paths are looked at again. An active device whose link path is absent goes on
alone. -/
def pathTimeout (v : Vig) (ch : Chip) : Vig × Chip :=
  let v := if v.pair.edgeAt + 20000 ≤ v.clk then v.updPair (fun p => { p with ball := if p.ballIn then 2 else 1 }) else v
  let s : Vig × Chip := (v, ch)
  if v.pair.role = 1 ∧ !ch.linkPath v then
    let v := if v.pair.ball = 0 then v.pairErr 0 else v
    setRole 2 (v, ch)
  else decideTake s

/-- TAKEOVER (R408): what the decision of R406 called for. -/
def takeover (v : Vig) (ch : Chip) : Vig × Chip :=
  match v.pair.takeDue with
  | none => (v, ch)
  | some r => if v.pair.role = 3 then doTakeover r (v, ch) else (v.updPair (fun p => { p with takeDue := none }), ch)

/-- FALLBACK_TIMEOUT (R406): FALLBACK_US after the peer's failure was reported without a takeover command. -/
def fallbackTimeout (v : Vig) (ch : Chip) : Vig × Chip :=
  match v.pair.failAt with
  | none => (v, ch)
  | some t =>
    if v.pair.role ≠ 3 ∨ v.pair.failMode = 0 ∨ v.pair.fallback = 0 ∨ v.clk < t + v.pair.fallback * 1000 then (v, ch)
    else (v.updPair (fun p => { p with takeDue := some ((v.takeRow (ch.linkPath v)).getD 3) }), ch)

/-- A condition of R404 holds, by its reason code. -/
def yieldCond (reason half : Nat) (v : Vig) (ch : Chip) : Bool :=
  match reason with
  | 1 => (tGet ch.half half).inReset
  | 2 => !ch.wickUp 0
  | 3 => (tGet ch.half half).swFirst.isSome
  | 4 => v.trip
  | 5 => (tGet ch.bg half).chans.any (fun e => decide (e.2.fails ≥ 3))
  | 6 => (tGet ch.flow half).egress.any (fun e => !e.2.isEmpty) && decide ((tGet ch.flow half).ethAt + 10000 ≤ v.clk)
  | _ => false

/-- YIELD (R404): for one of its conditions the device yields, or in host-assisted mode reports it and keeps its role. -/
def yieldFor (reason half : Nat) (v : Vig) (ch : Chip) : Vig × Chip :=
  let dev := if reason = 2 ∨ reason = 4 then 0xFF else half % 2
  if (v.pair.role ≠ 1 ∧ v.pair.role ≠ 2) ∨ !yieldCond reason half v ch then (v, ch)
  else if v.pair.failMode = 0 then doYield reason dev (v, ch)
  else (v, ch.deviceEvent 7 [BitVec.ofNat 8 reason, BitVec.ofNat 8 dev])

/-- MIRROR_REPLAY_TIMEOUT (R402): 20 microseconds without an acknowledgement. -/
def mirReplay (h : Nat) (v : Vig) (ch : Chip) : Chip :=
  let l := tGet ch.mir h
  if h < 2 ∧ l.up ∧ !l.replay.isEmpty ∧ l.resend.isEmpty ∧ l.progress + 20000 ≤ v.clk then
    ch.updMir h (fun l => { l with resend := l.replay, progress := v.clk })
  else ch

/-- What a mirror link going down does to the pair (R399, R415). -/
def linkLost (s : Vig × Chip) : Vig × Chip :=
  if s.1.pair.role = 3 then setRole 4 (s.1.updPair (fun p => { p with step := 0, helloSent := false, takeDue := none }), s.2)
  else if s.1.pair.step ≠ 0 then abandonResync s
  else s

/-- MIRROR_LINK_DOWN (R402): a link retrains after 8 replays, or is disabled. What was not acknowledged stays. -/
def mirLinkDown (h : Nat) (v : Vig) (ch : Chip) : Vig × Chip :=
  let l := tGet ch.mir h
  if h ≥ 2 ∨ !l.up ∨ (l.replays < 8 ∧ ch.fld MIR_CTRL MIR_CTRL_ENABLE h = 1) then (v, ch)
  else linkLost (v, ch.updMir h (fun l => { l with up := false, resend := [] }))

/-- MIRROR_LINK_UP (R402, R414): a link comes up and sends again what was not acknowledged; with both links up,
resynchronisation starts of itself where AUTORESYNC says so. -/
def mirLinkUp (h : Nat) (v : Vig) (ch : Chip) : Vig × Chip :=
  if h ≥ 2 ∨ (tGet ch.mir h).up ∨ (tGet ch.half h).inReset ∨ ch.fld MIR_CTRL MIR_CTRL_ENABLE h = 0 then (v, ch)
  else
    let ch := ch.updMir h (fun l => { l with up := true, replays := 0, resend := l.replay, progress := v.clk, nak := false })
    if ch.linksUp ∧ v.pair.role ≥ 4 ∧ v.pair.autoResync = 1 ∧ v.pair.step = 0 then startResync (v, ch) else (v, ch)

/-- The message of a meter delta (R403): tenant, FINAL, MINUTE, 16 counts of 48 bits. -/
def deltaMsg (t : Nat) (fin : Bool) (minute : Nat) (c : List Nat) : List Byte :=
  leBytes 2 t ++ [BitVec.ofNat 8 (b2n fin)] ++ leBytes 5 0 ++ leBytes 8 minute ++ c.flatMap (fun n => leBytes 6 n)

/-- Send what changed of one bank of a half since the peer was last told (R403). -/
def sendDeltas (h par minute : Nat) (fin : Bool) (s : Vig × Chip) : Vig × Chip :=
  (List.range 4096).foldl (fun s t =>
    let k := (h * 2 + par) * 4096 + t
    let now := s.1.bill h par t
    let old := mGet s.1.told k []
    let d := (List.range 16).map (fun i => (now.getD i 0 + 2 ^ 64 - old.getD i 0) % 2 ^ 64)
    if anyCount d then ({ s.1 with told := mSet s.1.told k now }, s.2.mirSend h 2 (deltaMsg t fin minute d)) else s) s

/-- METER_DELTA_SEND (R403): every 100 microseconds the open bank's changes; with `fin`, at T + 1 ms, the closed minute's
final counts. -/
def meterDeltaSend (h : Nat) (fin : Bool) (v : Vig) (ch : Chip) : Vig × Chip :=
  if h ≥ 2 ∨ !v.mirrors then (v, ch)
  else if fin then
    match v.sealing with
    | none => (v, ch)
    | some x =>
      if tGet x.finals h ∨ v.clk < x.since + 1000000 ∨ ch.incLeft h x.par then (v, ch)
      else
        let s := sendDeltas h x.par x.minute true (v, ch)
        ({ s.1 with sealing := some { x with finals := tSet x.finals h true } }, s.2)
  else if v.clk < (tGet ch.mir h).deltaAt + 100000 then (v, ch)
  else
    let s := sendDeltas h v.parity (v.dt / minuteNs + 1) false (v, ch)
    (s.1, s.2.updMir h (fun l => { l with deltaAt := v.clk }))

/-- Take the oldest received message of a channel. -/
def Chip.mirTake (ch : Chip) (h chn : Nat) : Option (List Byte × Chip) :=
  match (tGet ch.mir h).inbox.find? (fun m => m.1 = chn) with
  | none => none
  | some m => some (m.2, ch.updMir h (fun l => { l with inbox := l.inbox.erase m }))

/-- PEER_FLOW_COMMIT_APPLY (R403): the entry is written at its index; QCAP is this device's own, LASTHIT the current tick. -/
def flowCommitApply (h : Nat) (v : Vig) (ch : Chip) : Chip :=
  match ch.mirTake h 1 with
  | none => ch
  | some (b, ch) =>
    let i := fieldB b 0 4
    match ch.log2b h with
    | none => ch
    | some n =>
      if h ≥ 2 ∨ i ≥ 4 * 2 ^ n then ch
      else
        let old := ch.ent h i
        let ch := if entValid old then ch.flowGauge h (entTpl old) false else ch
        let e := sliceB b 8 64
        if fieldB b 4 4 = 0 then Chip.putCopy v ch h i (List.replicate 64 0)
        else (Chip.putCopy v ch h i (ch.mkEnt h (e.take 40) (bfSet (entCtl e) 38 16 (ch.tick v h)))).flowGauge h (entTpl e) true

/-- Add a delta to the shadow (R411). -/
def addShadowDelta (l : List Shadow) (x : Shadow) : List Shadow :=
  if l.any (fun y => y.half = x.half && y.tenant = x.tenant && y.minute = x.minute) then
    l.map (fun y => if y.half = x.half && y.tenant = x.tenant && y.minute = x.minute then
      { y with counts := addCounts y.counts x.counts } else y)
  else l ++ [x]

/-- PEER_METER_DELTA_APPLY (R403, R411). -/
def meterDeltaApply (h : Nat) (v : Vig) (ch : Chip) : Vig × Chip :=
  match ch.mirTake h 2 with
  | none => (v, ch)
  | some (b, ch) =>
    if v.pair.role ≠ 3 ∧ v.pair.role ≠ 4 then (v, ch)
    else
      ({ v with shadow := addShadowDelta v.shadow { half := h % 2, tenant := fieldB b 0 2 % 4096, minute := fieldB b 8 8
                                                    counts := (List.range 16).map (fun i => fieldB b (16 + 6 * i) 6) } }, ch)

/-- PEER_LEDGER_BLOCK_APPLY (R382, R403, R411): the peer's block is offered to the host; its minute's shadow is discarded. -/
def ledgerBlockApply (h : Nat) (v : Vig) (ch : Chip) : Vig × Chip :=
  match ch.mirTake h 3 with
  | none => (v, ch)
  | some (b, ch) =>
    let seq := fieldB b 8 8
    let m := fieldB b 16 8
    let v := ({ v with shadow := v.shadow.filter (fun x => x.minute ≠ m) } : Vig).offerBlock
      { seq := seq, minute := m, bytes := b.take (160 + 128 * fieldB b 24 4), peer := true, sent := true }
    (v.updPair (fun p => { p with peerMinute := max p.peerMinute m }), ch.blockEvent seq true)

/-- Translate for a compartment with nothing cached (R409). -/
def Chip.xlateFresh (v : Vig) (ch : Chip) (h comp ten va need : Nat) : XRes :=
  ((ch.updClu (16 * h) (fun k => { k with tlb := [], wcache := [], dcache := [] })).walkFor v (16 * h) none comp ten va need).2

/-- MIRROR_WRITER (R409): the peer's line is written, tags 0, where it may be; else it is discarded and counted. -/
def mirrorWriter (h : Nat) (v : Vig) (ch : Chip) : Vig × Chip :=
  match ch.mirTake h 4 with
  | none => (v, ch)
  | some (b, ch) =>
    let drop : Vig × Chip := (v.pairErr 2, ch.cnt MIR_MEMDROP MIR_MEMDROP_COUNT h)
    match ch.xlateFresh v (h % 2) (fieldB b 2 2) (fieldB b 0 2) (fieldB b 8 8) 2 with
    | .bad _ _ => drop
    | .ok pa _ _ =>
      let a := alignDown pa 64
      if ch.ram.region a = .dram ∧ ch.ram.colour a = fieldB b 16 1 then (v, { ch with ram := ch.ram.write a (sliceB b 48 64) })
      else drop

/-- RESYNC_START (R414): on a device that is DOWN or in RESYNC, of itself. -/
def resyncStart (v : Vig) (ch : Chip) : Vig × Chip :=
  if v.pair.role ≥ 4 ∧ v.pair.step = 0 ∧ v.pair.autoResync = 1 ∧ ch.linksUp then startResync (v, ch) else (v, ch)

/-- A half has sent all its buckets. -/
def Chip.bucketsDone (ch : Chip) (h : Nat) : Bool :=
  match ch.log2b h with
  | none => true
  | some n => (tGet ch.mir h).bucket ≥ 2 ^ n

/-- A half has copied all its mirrored lines. -/
def Chip.linesDone (ch : Chip) (h : Nat) : Bool := (tGet ch.mir h).curComp ≥ 32768

/-- Copy one line of a mirrored block, or go on to the next block or compartment (R414 step 4), through the mirror queue of the half in
which the line lies, as the task's stores are. A line whose address does
not translate has nothing to copy. -/
def Chip.copyLine (v : Vig) (ch : Chip) (h : Nat) : Chip :=
  let l := tGet ch.mir h
  let id := h * 32768 + l.curComp
  let next := ch.updMir h (fun l => { l with curComp := l.curComp + 1, curBlk := 0, curOff := 0 })
  match ch.record id with
  | none => next
  | some r =>
    if l.curBlk ≥ 8 then next
    else
      let full := tb (ch.ram.visLe (ch.tenantAddr h r.tenant) 8) 1
      let skip := ch.updMir h (fun l => { l with curBlk := l.curBlk + 1, curOff := 0 })
      match blkOf (ch.ram.visN (ch.s1Addr id) 256) full l.curBlk with
      | none => skip
      | some b =>
        if !b.mir || decide (l.curOff ≥ b.pages * 4096) then skip
        else
          let on := ch.updMir h (fun l => { l with curOff := l.curOff + 64 })
          match ch.xlateFresh v h id r.tenant (b.vbase + l.curOff) 1 with
          | .bad _ _ => on
          | .ok pa _ _ =>
            let a := alignDown pa 64
            if ch.ram.region a ≠ .dram ∨ ch.ram.colour a = 0 then on
            else
              match mirPut (tGet ch.mirq (paHalf a))
                  { marker := false, line := a, tenant := r.tenant, comp := id, vline := b.vbase + l.curOff
                    colour := ch.ram.colour a, data := ch.ram.rdN a 64 } with
              | none => ch
              | some q => { on with mirq := tSet on.mirq (paHalf a) q }

/-- Send the entries of one bucket (R414 step 3). -/
def Chip.copyBucket (v : Vig) (ch : Chip) (h b : Nat) : Chip :=
  (List.range 4).foldl (fun c w =>
    let e := c.ent h (4 * b + w)
    if entValid e then c.mirSend h 1 (commitMsg (4 * b + w) true e) else c) (Chip.noteBucket v ch h b)

/-- The bulk copy may read its next bucket (R401, R414): commits go first, so that none waits, or the copies are due their third of the
FLOW cells. -/
def Chip.copyTurn (ch : Chip) (h : Nat) : Bool :=
  let l := tGet ch.mir h
  (mGet l.txq 1 []).isEmpty || decide (l.flowSent ≥ 24)

/-- Mark a block of this device as sent to the peer. -/
def Vig.blockSent (v : Vig) (seq : Nat) : Vig :=
  { v with blocks := v.blocks.map (fun b => if !b.peer && b.seq = seq then { b with sent := true } else b) }

/-- Step 5 (R413, R414): what the peer's shadow lacks of all open-bank counts, and the last ledger block. -/
def sendCounts (s : Vig × Chip) : Vig × Chip :=
  let m := s.1.dt / minuteNs + 1
  let s := sendDeltas 1 s.1.parity m false (sendDeltas 0 s.1.parity m false s)
  match s.1.blocks.reverse.find? (fun b => !b.peer) with
  | some b => (s.1.blockSent b.seq, s.2.mirSend 0 3 b.bytes)
  | none => s

/-- RESYNC_BUCKET_COPY (R414): the active's next piece of the bulk copy on half `h`: a bucket in step 3, a mirrored line in
step 4; when both halves are done the next step follows. -/
def bucketCopy (h : Nat) (v : Vig) (ch : Chip) : Vig × Chip :=
  if h ≥ 2 ∨ v.pair.role ≠ 2 ∨ v.pair.peerRole ≠ 4 ∨ v.pair.step < 2 ∨ v.pair.step > 4 then (v, ch)
  else if v.pair.step ≤ 3 then
    let s := if v.pair.step = 2 then setStep 3 (v, ch) else (v, ch)
    let ch := s.2
    let b := (tGet ch.mir h).bucket
    let ch := if ch.bucketsDone h || !ch.copyTurn h then ch
      else (Chip.copyBucket v ch h b).updMir h (fun l => { l with bucket := l.bucket + 1, flowSent := 0 })
    if ch.bucketsDone 0 && ch.bucketsDone 1 then setStep 4 (s.1, ch) else (s.1, ch)
  else
    let ch := if ch.linesDone h then ch else ch.copyLine v h
    if ch.linesDone 0 && ch.linesDone 1 then sendCounts (setStep 5 (v, ch)) else (v, ch)

/-- Everything sent on both links has been acknowledged (R414). -/
def Chip.mirDrained (ch : Chip) : Bool :=
  let ok := fun (l : MirLink) => l.txq.all (fun e => e.1 = 0 || e.2.isEmpty) && l.replay.isEmpty
  ok ch.mir.h0 && ok ch.mir.h1 && ch.mirq.h0.isEmpty && ch.mirq.h1.isEmpty

/-- Send every block of this device that is still held and that the peer has not received (R414 step 5). -/
def sendBlocks (s : Vig × Chip) : Vig × Chip :=
  (s.1.blocks.filter (fun b => !b.peer && !b.sent)).foldl (fun s b => (s.1.blockSent b.seq, s.2.mirSend 0 3 b.bytes)) s

/-- RESYNC_DONE (R399, R414): the active says that it is done once everything has arrived; the standby answers with its
blocks and enters STANDBY; the active enters ACTIVE. -/
def resyncDone (v : Vig) (ch : Chip) : Vig × Chip :=
  let clear := fun (p : Pair) => { p with step := 0, helloSent := false, doneRecv := false }
  if v.pair.role = 2 ∧ v.pair.step = 5 then
    if ch.mirDrained then
      let s := setStep 6 (v, ch)
      (s.1, s.2.mirSend 0 0 (ctlMsg v 5))
    else (v, ch)
  else if v.pair.role = 2 ∧ v.pair.step = 6 ∧ v.pair.doneRecv then setRole 1 (v.updPair (fun p => { clear p with peerRole := 3 }), ch)
  else if v.pair.role = 4 ∧ v.pair.doneRecv ∧ ch.mir.h0.inbox.isEmpty ∧ ch.mir.h1.inbox.isEmpty then
    let s := sendBlocks (v, ch)
    setRole 3 (s.1.updPair (fun p => { clear p with gotYield := false, failAt := none, takeDue := none }),
      s.2.mirSend 0 0 (ctlMsg v 5))
  else (v, ch)

/-- RESYNC_ABANDON (R415): a reset, a mirror link that is down, or a demotion. -/
def resyncAbandon (v : Vig) (ch : Chip) : Vig × Chip :=
  if v.pair.step ≠ 0 ∧ (!ch.linksUp ∨ (tGet ch.half 0).inReset ∨ (tGet ch.half 1).inReset ∨ v.pair.role = 5) then
    abandonResync (v, ch)
  else (v, ch)

/-- HEARTBEAT_SEND. -/
def execHeartbeatSend (s : State) : Out := bothStep heartbeatSend s
/-- MIRROR_CELL_SEND. -/
def execMirrorCellSend (h : Nat) (s : State) : Out := chipStep (mirCellSend h) s
/-- MIRROR_CELL_RECEIVE. -/
def execMirrorCellReceive (h : Nat) (cell : List Byte) (s : State) : Out := bothStep (mirCellReceive h cell) s
/-- PEER_ALIVE_EDGE. -/
def execPeerAliveEdge (level : Bool) (s : State) : Out := bothStep (aliveEdge level) s
/-- PATH_TIMEOUT. -/
def execPathTimeout (s : State) : Out := bothStep pathTimeout s
/-- TAKEOVER. -/
def execTakeover (s : State) : Out := bothStep takeover s
/-- FALLBACK_TIMEOUT. -/
def execFallbackTimeout (s : State) : Out := bothStep fallbackTimeout s
/-- YIELD. -/
def execYield (reason half : Nat) (s : State) : Out := bothStep (yieldFor reason half) s
/-- MIRROR_REPLAY_TIMEOUT. -/
def execMirrorReplayTimeout (h : Nat) (s : State) : Out := chipStep (mirReplay h) s
/-- MIRROR_LINK_DOWN. -/
def execMirrorLinkDown (h : Nat) (s : State) : Out := bothStep (mirLinkDown h) s
/-- MIRROR_LINK_UP. -/
def execMirrorLinkUp (h : Nat) (s : State) : Out := bothStep (mirLinkUp h) s
/-- METER_DELTA_SEND. -/
def execMeterDeltaSend (h : Nat) (fin : Bool) (s : State) : Out := bothStep (meterDeltaSend h fin) s
/-- PEER_FLOW_COMMIT_APPLY. -/
def execPeerFlowCommitApply (h : Nat) (s : State) : Out := chipStep (flowCommitApply h) s
/-- PEER_METER_DELTA_APPLY. -/
def execPeerMeterDeltaApply (h : Nat) (s : State) : Out := bothStep (meterDeltaApply h) s
/-- PEER_LEDGER_BLOCK_APPLY. -/
def execPeerLedgerBlockApply (h : Nat) (s : State) : Out := bothStep (ledgerBlockApply h) s
/-- MIRROR_WRITER. -/
def execMirrorWriter (h : Nat) (s : State) : Out := bothStep (mirrorWriter h) s
/-- RESYNC_START. -/
def execResyncStart (s : State) : Out := bothStep resyncStart s
/-- RESYNC_BUCKET_COPY. -/
def execResyncBucketCopy (h : Nat) (s : State) : Out := bothStep (bucketCopy h) s
/-- RESYNC_DONE. -/
def execResyncDone (s : State) : Out := bothStep resyncDone s
/-- RESYNC_ABANDON. -/
def execResyncAbandon (s : State) : Out := bothStep resyncAbandon s

end Sys2Proof.Machine
end

