-- ==== Sys2Proof/Machine/AdrusSys.lean ====
section
/-! DEFINITION. The metering, ledger, pair, mode and background opcodes (R447 to R452). -/

namespace Sys2Proof.Machine

/-- CNT_READ: the 24 open-bank counters of a tenant, then MTR_GAUGE. -/
def opCntRead : OpFn := fun h c s =>
  let t := c.par 16 2
  if t ≥ 4096 ∨ !c.bufOk 200 then endCmd h c stParam [] s
  else
    let b := (List.range 24).flatMap (fun i => leBytes 8 (s.1.bank h s.1.parity t i)) ++ leBytes 8 (s.2.reg MTR_GAUGE h [t])
    endBuf h c (leBytes 8 (s.1.dt / minuteNs + 1)) b s

/-- POLICER_SET. -/
def opPolicerSet : OpFn := fun h c s =>
  let t := c.par 16 2
  let p := c.par 18 1
  if t ≥ 4096 ∨ p > 7 then endCmd h c stParam [] s
  else endCmd h c stOk [] (s.1, policerWrite h t p true (c.par 24 4) s.1 (policerWrite h t p false (c.par 20 4) s.1 s.2))

/-- SET_TIME (R374, R376). -/
def opSetTime : OpFn := fun h c s =>
  if s.1.tstate = 1 then endCmd h c stRefused [] s
  else endCmd h c stOk [] (({ s.1 with tstate := 2 } : Vig).target (c.par 16 8), s.2)

/-- LEDGER_FETCH. -/
def opLedgerFetch : OpFn := fun h c s =>
  if c.dptr % 64 ≠ 0 then endCmd h c stParam [] s
  else
    match s.1.blocks with
    | [] => endCmd h c stNoData [] s
    | b :: r =>
      if !c.bufOk b.bytes.length then endCmd h c stParam (leBytes 16 0 ++ leBytes 4 b.bytes.length) s
      else endBuf h c (leBytes 8 b.seq ++ leBytes 8 b.minute ++ leBytes 4 b.bytes.length ++ [BitVec.ofNat 8 (b2n b.peer)])
        b.bytes ({ s.1 with blocks := r }, s.2)

/-- HOSTKEY_SET. -/
def opHostkeySet : OpFn := fun h c s =>
  if s.1.signMode = 1 then endCmd h c stRefused [] s
  else endCmd h c stOk [] ({ s.1 with hostKey := some (sliceB c.entry 16 32) }, s.2)

/-- A valid countersignature of the root SEQ `q` (R391): its slot, the next one, is programmed. -/
def Vig.countersign (v : Vig) (q : Nat) (sig : List Byte) : Vig :=
  { v with cs := v.cs.filter (fun e => e.1 ≠ q + 1), progs := v.progs ++ [(q + 1, sig, false)] }

/-- COUNTERSIGN. -/
def opCountersign (data : HostRead) : OpFn := fun h c s =>
  let q := c.par 16 8
  match s.1.cs.find? (fun e => e.1 = q + 1) with
  | none => endCmd h c stRefused [] s
  | some (_, msg, _) =>
    if !c.bufOk 64 then endCmd h c stParam [] s
    else withBuf h c 64 data (fun d s =>
      if (s.1.hostKey.map (fun k => edVerify k msg d)).getD false then endCmd h c stOk [] (s.1.countersign q d, s.2)
      else endCmd h c stSig [] s) s

/-- LEDGER_STATUS. -/
def opLedgerStatus : OpFn := fun h c s =>
  endCmd h c stOk (leBytes 4 s.1.ldgStatus ++ leBytes 4 s.1.entries ++ leBytes 8 s.1.seq ++ leBytes 1 (s.1.tstat % 256)) s

/-- ANCHOR_READ. -/
def opAnchorRead : OpFn := fun h c s =>
  match s.1.anchor with
  | none => endCmd h c stParam [] s
  | some b => if fieldB b 4 4 ≠ c.par 16 4 ∨ !c.bufOk 144 then endCmd h c stParam [] s else endBuf h c [] b s

/-- PAIR_BIND (R395). -/
def opPairBind : OpFn := fun h c s =>
  if s.1.pair.role ≠ 0 then endCmd h c stRefused [] s
  else if c.par 20 1 > 1 ∨ c.par 21 1 > 1 then endCmd h c stParam [] s
  else endCmd h c stOk [] (doBind (c.par 16 4) (c.par 20 1) (c.par 21 1) s)

/-- PAIR_UNBIND (R395). -/
def opPairUnbind : OpFn := fun h c s =>
  if s.1.pair.role = 0 ∨ s.1.pair.role = 4 then endCmd h c stRefused [] s else endCmd h c stOk [] (doUnbind s)

/-- PAIR_TAKEOVER (R406): reason 4 in the control frame. -/
def opPairTakeover : OpFn := fun h c s =>
  if s.1.pair.role = 3 ∨ (s.1.pair.role = 4 ∧ c.force) then
    let s := doTakeover 4 s
    endCmd h c stOk (leBytes 4 s.1.pair.epoch) s
  else endCmd h c stRefused [] s

/-- PAIR_YIELD (R404): reason code 0. -/
def opPairYield : OpFn := fun h c s =>
  if s.1.pair.role = 1 ∨ s.1.pair.role = 2 then endCmd h c stOk [] (doYield 0 0xFF s) else endCmd h c stRefused [] s

/-- PAIR_RESYNC (R414, R449): it ends when step 1 begins. -/
def opPairResync : OpFn := fun h c s =>
  let p := s.1.pair
  if p.role ≠ 2 ∨ (p.peerRole ≠ 4 ∧ p.peerRole ≠ 5) then endCmd h c stRefused [] s
  else endCmd h c stOk [] (if p.step = 0 then startResync s else s)

/-- MIR_STAT (R416). -/
def mirStat (v : Vig) (ch : Chip) (h : Nat) : Nat :=
  let p := v.pair
  let l := tGet ch.mir h
  p.role + p.pos * 8 + b2n l.up * 16 + b2n (ch.linkPath v) * 32 + p.ball * 64 + p.step * 256

/-- PAIR_STATUS. -/
def opPairStatus : OpFn := fun h c s =>
  let p := s.1.pair
  endCmd h c stOk (leBytes 4 (mirStat s.1 s.2 h) ++ leBytes 4 p.epoch ++ leBytes 4 p.err ++ leBytes 4 p.pairId) s

/-- PAIR_CFGTAG. -/
def opPairCfgtag : OpFn := fun h c s =>
  if s.1.pair.role = 4 then endCmd h c stRefused [] s else endCmd h c stOk [] (setCfgTag (c.par 16 4) s)

/-- The level of the patrol nearest a rate in MB/s, at or above it (R463, R464). -/
def scrubLevel (rate : Nat) : Nat := ([2, 8, 32, 128, 512].filter (fun r => r < rate)).length |> (5 - ·)

/-- The level that HOSTRATE stands for. -/
def Chip.hostLevel (ch : Chip) (h : Nat) : Nat := scrubLevel (min 2048 (max 2 (ch.fld BG_TRIM BG_TRIM_HOSTRATE h)))

/-- The patrol takes a level (R463); a full pass counts from the change. -/
def Chip.setLevel (ch : Chip) (h n : Nat) : Chip :=
  if ch.fld BG_TRIM BG_TRIM_LEVEL h = n then ch
  else (ch.setFld BG_TRIM BG_TRIM_LEVEL h [] n).updBg h (fun b => { b with fullPass := false, passOk := decide (b.trim = 0) })

/-- One function of MODE_SET on one half (R450). Function 6 in hardware mode holds every cap at the ceiling (R472); function
7 in host-assisted mode takes the host's rate (R464). -/
def setModeOn (f : Nat) (host alt : Bool) (ch : Chip) (g : Nat) : Chip :=
  let x := b2n host
  match f with
  | 0 => ch.setFld FLW_MODE FLW_MODE_MISS g [] (if host then (if alt then 2 else 1) else 0)
  | 1 => ch.setFld FLW_MODE FLW_MODE_AGE g [] x
  | 2 => ch.setFld XLT_CTRL XLT_CTRL_ADMODE g [] x
  | 3 => ch.setFld BG_MODE BG_MODE_SWEEP g [] x
  | 5 => ch.setFld SCH_BAL SCH_BAL_MODE g [] x
  | 6 =>
    let ch := ch.setFld BG_MODE BG_MODE_CLOCK g [] x
    if host then ch else (List.range 16).foldl (fun c i => c.setReg BG_CLKC g [i] 0) ch
  | 7 => let ch := ch.setFld BG_MODE BG_MODE_SCRUB g [] x; if host then ch.setLevel g (ch.hostLevel g) else ch
  | 9 => ch.setFld BG_MODE BG_MODE_RETRAIN g [] x
  | _ => ch

/-- One function of MODE_SET (R450): signing and failover belong to the device. -/
def setMode (value : Nat) (_alt : Bool) (s : Vig × Chip) (f : Nat) : Vig × Chip :=
  let host := tb value f
  if f = 4 then ({ s.1 with signMode := b2n host }, s.2)
  else if f = 8 then decideTake (s.1.updPair (fun p => { p with failMode := b2n host }), s.2)
  else s

/-- The functions of MODE_SET that belong to a half, on half `h`. -/
def modesOn (h mask value : Nat) (alt : Bool) (ch : Chip) : Chip :=
  ((List.range 10).filter (fun f => tb mask f && f ≠ 4 && f ≠ 8)).foldl (fun c f => setModeOn f (tb value f) alt c h) ch

/-- The other half can be written: it is not in reset and Wick is up (R451). -/
def Chip.otherHalf (ch : Chip) (h : Nat) : Bool := ch.wickUp h && !(tGet ch.half (1 - h)).inReset

/-- MODE_SET (R451): on both halves, but for a MASK of the failover mode alone. -/
def opModeSet : OpFn := fun h c s =>
  let mask := c.par 16 2
  let alt := tb (c.par 20 1) 0
  let device := fun (s : Vig × Chip) => ((List.range 10).filter (tb mask)).foldl (setMode (c.par 18 2) alt) s
  if mask = 0x100 then endCmd h c stOk [] (device s)
  else if c.checks && !s.2.otherHalf h then endCmd h c stRefused [] s
  else bothHalves h c (fun s =>
    let s := if c.src = .far then s else device s
    (s.1, modesOn h mask (c.par 18 2) alt s.2)) (fun _ => true) id [] s

/-- The mode of every function as a half shows it (R450, R451). -/
def modeValue (v : Vig) (ch : Chip) (h : Nat) : Nat :=
  let bg := ch.reg BG_MODE h []
  b2n (ch.fld FLW_MODE FLW_MODE_MISS h ≠ 0) + ch.fld FLW_MODE FLW_MODE_AGE h * 2 + ch.fld XLT_CTRL XLT_CTRL_ADMODE h * 4 +
    bf bg 0 1 * 8 + v.signMode * 16 + ch.fld SCH_BAL SCH_BAL_MODE h * 32 + bf bg 1 1 * 64 + bf bg 2 1 * 128 +
    v.pair.failMode * 256 + bf bg 3 1 * 512

/-- MODE_GET. -/
def opModeGet : OpFn := fun h c s =>
  endCmd h c stOk (leBytes 2 (modeValue s.1 s.2 h) ++ leBytes 1 (b2n (s.2.fld FLW_MODE FLW_MODE_MISS h = 2))) s

/-- SCRUB_SET (R464). -/
def opScrubSet : OpFn := fun h c s =>
  let g := c.par 16 1
  if g < 2 ∧ s.2.fld BG_MODE BG_MODE_SCRUB g = 0 then endCmd h c stRefused [] s
  else if g > 1 then endCmd h c stParam [] s
  else
    let ch := s.2.setFld BG_TRIM BG_TRIM_HOSTRATE g [] (min 2048 (c.par 20 4))
    endCmd h c stOk [] (s.1, ch.setLevel g (ch.hostLevel g))

/-- CLOCK_SET (R472). -/
def opClockSet : OpFn := fun h c s =>
  let m := c.par 16 2
  let k := pathClu c.target % 16
  if s.2.fld BG_MODE BG_MODE_CLOCK h = 0 then endCmd h c stRefused [] s
  else if m % 16 ≠ 0 ∨ m < 1008 ∨ Config.ceilingMHz < m then endCmd h c stParam [] s
  else endCmd h c stOk [] (s.1, s.2.setFld BG_CLKC BG_CLKC_CAP_MHZ h [k] m)

/-- A channel of a half. -/
def Bg.chan (b : Bg) (c : Nat) : Chan := mGet b.chans c Chan.reset
/-- Change a channel of a half. -/
def Chip.updChan (ch : Chip) (h c : Nat) (f : Chan → Chan) : Chip :=
  ch.updBg h (fun b => { b with chans := mSet b.chans c (f (b.chan c)) })

/-- RETRAIN_GRANT (R468): a grant for a channel that is not due has no effect. -/
def opRetrainGrant : OpFn := fun h c s =>
  let g := c.par 16 1
  let k := c.par 17 1
  if g > 1 ∨ k > 3 then endCmd h c stParam [] s
  else
    let due := ((tGet s.2.bg g).chan k).due.isSome
    endCmd h c stOk [] (s.1, if due then s.2.updChan g k (fun x => { x with grant := s.1.clk + c.par 20 4 * 1000 }) else s.2)

/-- SELFTEST_SET (R494), on the executing half. -/
def opSelftestSet : OpFn := fun h c s =>
  let ms := c.par 20 4
  if ms > 65535 then endCmd h c stParam [] s
  else endCmd h c stOk [] (s.1, s.2.setReg BG_ST h [] (bf (c.par 16 1) 0 1 + ms * 2))

/-- TELEMETRY_READ (R483). -/
def opTelemetryRead : OpFn := fun h c s =>
  let g := c.par 16 1
  if g > 1 ∨ !c.bufOk 4096 then endCmd h c stParam [] s
  else if (tGet s.2.bg g).page.isEmpty then endCmd h c stNoData [] s
  else endBuf h c [] (sliceB (tGet s.2.bg g).page 0 4096) s

/-- CNT_READ. -/
def execCntRead (h id : Nat) (s : State) : Out := opRow 0x400 h id opCntRead s
/-- POLICER_SET. -/
def execPolicerSet (h id : Nat) (s : State) : Out := opRow 0x401 h id opPolicerSet s
/-- SET_TIME. -/
def execSetTime (h id : Nat) (s : State) : Out := opRow 0x402 h id opSetTime s
/-- LEDGER_FETCH. -/
def execLedgerFetch (h id : Nat) (s : State) : Out := opRow 0x403 h id opLedgerFetch s
/-- HOSTKEY_SET. -/
def execHostkeySet (h id : Nat) (s : State) : Out := opRow 0x404 h id opHostkeySet s
/-- COUNTERSIGN. -/
def execCountersign (h id : Nat) (data : HostRead) (s : State) : Out := opRow 0x405 h id (opCountersign data) s
/-- LEDGER_STATUS. -/
def execLedgerStatus (h id : Nat) (s : State) : Out := opRow 0x406 h id opLedgerStatus s
/-- ANCHOR_READ. -/
def execAnchorRead (h id : Nat) (s : State) : Out := opRow 0x407 h id opAnchorRead s
/-- PAIR_BIND. -/
def execPairBind (h id : Nat) (s : State) : Out := opRow 0x500 h id opPairBind s
/-- PAIR_UNBIND. -/
def execPairUnbind (h id : Nat) (s : State) : Out := opRow 0x501 h id opPairUnbind s
/-- PAIR_TAKEOVER. -/
def execPairTakeover (h id : Nat) (s : State) : Out := opRow 0x502 h id opPairTakeover s
/-- PAIR_YIELD. -/
def execPairYield (h id : Nat) (s : State) : Out := opRow 0x503 h id opPairYield s
/-- PAIR_RESYNC. -/
def execPairResync (h id : Nat) (s : State) : Out := opRow 0x504 h id opPairResync s
/-- PAIR_STATUS. -/
def execPairStatus (h id : Nat) (s : State) : Out := opRow 0x505 h id opPairStatus s
/-- PAIR_CFGTAG. -/
def execPairCfgtag (h id : Nat) (s : State) : Out := opRow 0x506 h id opPairCfgtag s
/-- MODE_SET. -/
def execModeSet (h id : Nat) (s : State) : Out := opRow 0x600 h id opModeSet s
/-- MODE_GET. -/
def execModeGet (h id : Nat) (s : State) : Out := opRow 0x601 h id opModeGet s
/-- SCRUB_SET. -/
def execScrubSet (h id : Nat) (s : State) : Out := opRow 0x602 h id opScrubSet s
/-- CLOCK_SET. -/
def execClockSet (h id : Nat) (s : State) : Out := opRow 0x603 h id opClockSet s
/-- RETRAIN_GRANT. -/
def execRetrainGrant (h id : Nat) (s : State) : Out := opRow 0x604 h id opRetrainGrant s
/-- SELFTEST_SET. -/
def execSelftestSet (h id : Nat) (s : State) : Out := opRow 0x605 h id opSelftestSet s
/-- TELEMETRY_READ. -/
def execTelemetryRead (h id : Nat) (s : State) : Out := opRow 0x606 h id opTelemetryRead s

end Sys2Proof.Machine
end

