-- ==== Sys2Proof/Machine/Bg.lean ====
section
/-! DEFINITION. The background services (chapter 15) but the slice self-test: Trimmer, SRAM scrub, calibration, island clock
and voltage, Snuffer, telemetry; and the junction sensors (R557). -/

namespace Sys2Proof.Machine

/-- A half's memory island runs. -/
def Chip.halfUp (ch : Chip) (h : Nat) : Bool := decide (h < 2) && !(tGet ch.half h).inReset

/-- Corrected errors of a half's DRAM (R463, R483). -/
def Chip.countCe (ch : Chip) (h c : Nat) : Chip :=
  ((ch.cnt BG_TRIM_CE BG_TRIM_CE_COUNT h).cnt DDR_CE DDR_CE_COUNT h [c]).updBg h (fun b =>
    { b with ceWin := b.ceWin + 1, sumCe := b.sumCe + 1 })

/-- An uncorrectable error in a data line is recorded (R465, R560) and reported (R434). -/
def Chip.dataUe (ch : Chip) (a : Nat) : Chip :=
  let h := paHalf a
  let ch := ch.updBg h (fun b => { b with sumUe := b.sumUe + 1 })
  let ch := if ch.fld DDR_ERR DDR_ERR_UE_SEEN h = 1 then ch.flag DDR_ERR DDR_ERR_UE_OVF h
    else
      let ch := (ch.flag DDR_ERR DDR_ERR_UE_SEEN h).setFld DDR_ERR DDR_ERR_CHANNEL h [] (chanOf a)
      let ch := ch.setFld DDR_ERR DDR_ERR_SUBCH h [] (Config.channelOf (a / 64) / 4 % 2)
      (ch.setReg DDR_UEADDR_LO h [] (bf (paLocal a) 6 32)).setReg DDR_UEADDR_HI h [] (bf (paLocal a) 38 2)
  ch.hostEvent h 0xC (leBytes 4 (ch.reg DDR_ERR h []) ++ leBytes 4 (ch.reg DDR_UEADDR_LO h []) ++
    leBytes 4 (ch.reg DDR_UEADDR_HI h []))

/-- An uncorrectable error in the tag line that covers the 4 KiB of `a` (R79), reported (R434). -/
def Chip.tagUe (ch : Chip) (a : Nat) : Chip :=
  let h := paHalf a
  let ch : Chip := { ch.updBg h (fun b => { b with sumUe := b.sumUe + 1 }) with ram := ch.ram.poisonPage a }
  let ch := if ch.fld HALF_TAGC_ERR HALF_TAGC_ERR_UE_SEEN h = 1 then ch.flag HALF_TAGC_ERR HALF_TAGC_ERR_UE_OVF h
    else (ch.flag HALF_TAGC_ERR HALF_TAGC_ERR_UE_SEEN h).setReg HALF_TAGC_UEADDR h [] (bf (paLocal a) 12 28)
  ch.hostEvent h 0xC (leBytes 4 (ch.reg HALF_TAGC_ERR h []) ++ leBytes 4 (ch.reg HALF_TAGC_UEADDR h []))

/-- When a reader of at most `rate` MB/s that reads a line at time `clk` may read the next (R463, R479): on a clock of 10 ns, so that
what a tick leaves over is not lost. -/
def pacePs (next clk rate : Nat) : Nat := max next (1000 * clk - 10000) + 64000000 / rate

/-- The rate of the patrol of a half in MB/s (R463, R464). -/
def Chip.patrolRate (ch : Chip) (h : Nat) : Nat :=
  if ch.fld BG_MODE BG_MODE_SCRUB h = 1 then min 2048 (max 2 (ch.fld BG_TRIM BG_TRIM_HOSTRATE h))
  else [2048, 512, 128, 32, 8, 2].getD (ch.fld BG_TRIM BG_TRIM_LEVEL h) 2

/-- The patrol moves on by a line; at the end of the fitted DRAM a pass has completed (R462, R463). -/
def Bg.patrolled (b : Bg) (fitted : Nat) : Bg :=
  if b.trim + 64 < fitted then { b with trim := b.trim + 64 }
  else { b with trim := 0, fullPass := b.fullPass || b.passOk, passOk := true }

/-- TRIMMER_PATROL (R462, R463, R465): the patrol reads its next line, no sooner than its rate allows and not while the line's channel
is held (R467); `err` is 0 for none, 1 for a corrected error, else an uncorrectable one. A line of a summarised block is skipped. An
`err` of 8 to 11 is a corrected error that a demand read has met on channel `err - 8`; the patrol does not move (log 56). -/
def trimmerPatrol (h err : Nat) (v : Vig) (ch : Chip) : Chip :=
  let d := tGet ch.ram.fitted h
  let a := h * 2 ^ 40 + (tGet ch.bg h).trim
  let top := ch.ram.dramTop h
  let off := paLocal a
  if !ch.halfUp h ∨ d = 0 then ch
  else if 8 ≤ err ∧ err ≤ 11 then ch.countCe h (err - 8)
  else
    let next := ch.updBg h (fun b => b.patrolled d)
    let ch' := next.updBg h (fun b => { b with trimPs := pacePs b.trimPs v.clk (ch.patrolRate h) })
    if off < top ∧ ch.ram.summarised a then next
    else if 1000 * v.clk < (tGet ch.bg h).trimPs ∨ ch.chanHeld v a then ch
    else if err = 0 then ch'
    else if err = 1 then
      let ch' := ch'.countCe h (chanOf a)
      if off < top then ch' else ch'.flag HALF_TAGC_ERR HALF_TAGC_ERR_CE_SEEN h
    else if off < top then ({ ch' with ram := ch'.ram.poisonLine a } : Chip).dataUe a
    else ch'.tagUe (h * 2 ^ 40 + (off - top) * 64)

/-- SCRUB_LEVEL_ADJUST (R463, R464): at every 60 s of device time. -/
def scrubAdjust (h : Nat) (v : Vig) (ch : Chip) : Chip :=
  let b := tGet ch.bg h
  let m := v.dt / minuteNs
  if !ch.halfUp h ∨ m ≤ b.ceAt then ch
  else
    let ch := ch.updBg h (fun b => { b with ceAt := m, ceWin := 0 })
    let l := ch.fld BG_TRIM BG_TRIM_LEVEL h
    if ch.fld BG_MODE BG_MODE_SCRUB h = 1 then ch
    else if ch.fld BG_TRIM BG_TRIM_CE_HI h < b.ceWin then ch.setLevel h (l - 1)
    else if b.ceWin = 0 ∧ b.fullPass then ch.setLevel h (min 5 (l + 1))
    else ch

/-- SRAM_SCRUB (R79, R466): an on-die word is scrubbed: a register-store entry, the line at a device physical address of the
packet buffer or a local memory, or the tag-cache line that covers an address of DRAM. A corrected word (`err` 1) keeps its value; one of the
tag cache is reported in HALF_TAGC_ERR. An uncorrectable one (`err` 2) is poisoned. -/
def sramScrub (reg : Bool) (a err : Nat) (ch : Chip) : Chip :=
  if err = 1 ∧ !reg ∧ ch.ram.region a = .dram ∧ (mGet ch.tagc (tagKey a) []).any (fun l => l.page = a / 4096) then
    ch.flag HALF_TAGC_ERR HALF_TAGC_ERR_CE_SEEN (paHalf a)
  else if err ≠ 2 then ch
  else if reg then
    let h := coreHalf (a / 4096)
    if a ≥ 514 * 4096 then ch
    else { ch.updBg h (fun b => { b with sumUe := b.sumUe + 1 }) with rsBad := mSet ch.rsBad a () }
  else
    match ch.ram.region a with
    | .pbuf | .clm _ =>
      { ch.updBg (paHalf a) (fun b => { b with sumUe := b.sumUe + 1 }) with ram := ch.ram.poisonLine a }
    | .dram =>
      if (mGet ch.tagc (tagKey a) []).any (fun l => l.page = a / 4096) then
        ({ ch with tagc := mSet ch.tagc (tagKey a) ((mGet ch.tagc (tagKey a) []).filter (fun l => l.page ≠ a / 4096)) } : Chip).tagUe a
      else ch
    | _ => ch

/-- RETRAIN_DUE (R467): a channel becomes due by its interval, or because its temperature has moved 10 degrees C. -/
def retrainDue (h c : Nat) (temp : Bool) (v : Vig) (ch : Chip) : Chip :=
  let x := (tGet ch.bg h).chan c
  let s := max 1 (ch.fld BG_CAL BG_CAL_RETRAIN_S h)
  if !ch.halfUp h ∨ c > 3 ∨ x.due.isSome ∨ x.fails ≥ 3 ∨ tGet ch.ram.fitted h = 0 ∨
      (!temp ∧ v.clk < x.last + s * 1000000000) then ch
  else ch.updChan h c (fun x => { x with due := some v.clk })

/-- A due channel may be retrained now (R468): the mode is hardware, a step of 20 microseconds fits in
the granted window, or it is forced. -/
def Chip.mayRetrain (ch : Chip) (v : Vig) (h : Nat) (x : Chan) : Bool :=
  x.due.isSome && (ch.fld BG_MODE BG_MODE_RETRAIN h = 0 || x.forced || decide (v.clk + 20000 ≤ x.grant))

/-- RETRAIN_STEP (R467): a step holds the channel for 20 microseconds; between steps it carries traffic for 20. -/
def retrainStep (h c : Nat) (v : Vig) (ch : Chip) : Chip :=
  let b := tGet ch.bg h
  let x := b.chan c
  if !ch.halfUp h ∨ c > 3 ∨ !ch.mayRetrain v h x ∨ x.steps ≥ 20 ∨ (x.steps ≠ 0 ∧ v.clk < x.stepEnd + 20000) ∨
      b.chans.any (fun e => e.1 ≠ c && e.2.running) then ch
  else ch.updChan h c (fun x => { x with running := true, steps := x.steps + 1, stepEnd := v.clk + 20000 })

/-- RETRAIN_FORCE (R468). -/
def retrainForce (h c : Nat) (v : Vig) (ch : Chip) : Chip :=
  let x := (tGet ch.bg h).chan c
  let f := ch.fld BG_CAL BG_CAL_FORCE_S h
  match x.due with
  | none => ch
  | some d =>
    if !ch.halfUp h ∨ c > 3 ∨ f = 0 ∨ v.clk < d + f * 1000000000 then ch else ch.updChan h c (fun x => { x with forced := true })

/-- RETRAIN_COMPLETE (R467, R469): a retraining ends; a failed one is repeated, and the third failure in a row declares the
channel failed. -/
def retrainComplete (h c : Nat) (ok : Bool) (v : Vig) (ch : Chip) : Chip :=
  let x := (tGet ch.bg h).chan c
  if !ch.halfUp h ∨ c > 3 ∨ !x.running ∨ v.clk < x.stepEnd then ch
  else if ok then
    ((ch.updChan h c (fun x =>
      { x with due := none, last := v.clk, steps := 0, running := false, fails := 0, grant := 0, forced := false })).cnt
        BG_CALSTAT BG_CALSTAT_RETRAINS h).updBg h (fun b => { b with sumRet := b.sumRet + 1 })
  else if x.fails + 1 < 3 then ch.updChan h c (fun x => { x with steps := 0, fails := x.fails + 1 })
  else ch.updChan h c (fun x => { x with due := none, steps := 0, running := false, fails := 3 })

/-- An island's clock. -/
def Chip.isl (ch : Chip) (c : Nat) : Isl := mGet (tGet ch.bg (c / 16)).isl (c % 16) ⟨0, 0, 0, 0, 1000, 1000, 0, 0⟩
/-- Change an island's clock. -/
def Chip.updIsl (ch : Chip) (c : Nat) (f : Isl → Isl) : Chip :=
  ch.updBg (c / 16) (fun b => { b with isl := mSet b.isl (c % 16) (f (ch.isl c)) })

/-- The frequencies of an island, by step (R30): 1,000 MHz, then 1,008 MHz and multiples of 16 MHz. -/
def gridMHz (n : Nat) : Nat := if n = 0 then 1000 else 992 + 16 * n
/-- The step of a frequency, rounded down. -/
def gridStep (f : Nat) : Nat := (f - 992) / 16
/-- The step of the part's ceiling. -/
def topStep : Nat := gridStep Config.ceilingMHz

/-- CAP_MHZ of a cluster in force (R471, R494): 0 stands for the ceiling, unless bit 25, which no read shows, says that 0 was
written. -/
def Chip.capMHz (ch : Chip) (c : Nat) : Nat :=
  let x := ch.fld BG_CLKC BG_CLKC_CAP_MHZ (c / 16) [c % 16]
  if x = 0 ∧ !tb (ch.reg BG_CLKC (c / 16) [c % 16]) 25 then Config.ceilingMHz else min Config.ceilingMHz (max 1008 (x - x % 16))

/-- The step of an island's cap (R471): the lowest of the ceiling, the host's cap and the thermal cap. -/
def Chip.capStep (ch : Chip) (c : Nat) : Nat :=
  let host := if ch.fld BG_MODE BG_MODE_CLOCK (c / 16) = 1 then gridStep (ch.capMHz c) else topStep
  min host (topStep - (ch.isl c).cool)

/-- An island takes a frequency (R483): its minimum, maximum and sum are kept, and its cycles of the balance epoch (R261). -/
def Chip.setFreq (ch : Chip) (v : Vig) (c f : Nat) : Chip :=
  let old := (ch.clu c).freq
  (ch.updIsl c (fun i => { i with fmin := min i.fmin f, fmax := max i.fmax f, fsum := i.fsum + old * (v.clk - i.acc)
                                  acc := v.clk })).updClu c (fun k =>
    { k with freq := f, fAcc := k.fAcc + k.freq * (v.dt - k.fAt), fAt := v.dt })

/-- BG_CLK.TWARN in 1/8 degrees C (R494). -/
def Chip.twarn (ch : Chip) (h : Nat) : Int := 8 * Int.ofNat (min 120 (ch.fld BG_CLK BG_CLK_TWARN h))

/-- The hottest sensor of a half exceeds a temperature. -/
def Bg.above (b : Bg) (t : Int) : Bool := match b.hottest with
  | some x => decide (t < x)
  | none => false

/-- The hottest sensor of a half is below a temperature. -/
def Bg.below (b : Bg) (t : Int) : Bool := match b.hottest with
  | some x => decide (x < t)
  | none => false

/-- The core voltage that an island needs for margin at a step, in mV, within 0.70 V to 0.85 V (R31, R474; log 113). -/
def needMv (n : Nat) : Nat := min 850 (700 + 5 * Config.marginSteps n)

/-- An island may rise: it runs, is calibrated, and is below its cap (R472). -/
def Chip.mayRise (ch : Chip) (v : Vig) (c : Nat) : Bool :=
  let k := ch.clu c
  !k.inReset && !k.calib && decide (gridStep k.freq < ch.capStep c) && decide ((ch.isl c).hold ≤ v.clk) && !(tGet ch.bg (c / 16)).avsFault

/-- The highest demand of the clusters of a half on its core voltage (R31, R474): an island that may rise needs that of its next
step, any other that of its present one. -/
def Chip.demandMv (ch : Chip) (v : Vig) (h : Nat) : Nat :=
  (List.range 16).foldl (fun m i =>
    let n := gridStep (ch.clu (16 * h + i)).freq
    max m (needMv (if ch.mayRise v (16 * h + i) then n + 1 else n))) 700

/-- What an island's monitor reports (R472): margin at every step while the junction is not above TWARN and the voltage follows
R474, and else what the environment gives. -/
def Chip.marginAt (ch : Chip) (c : Nat) (given : Bool) : Bool :=
  let b := tGet ch.bg (c / 16)
  given || (!b.above (ch.twarn (c / 16)) && !b.avsFault)

/-- ISLAND_CLOCK_STEP (R31, R472, R474): `up` and `here` say that the monitor of a hot island reports margin at the next step and at
the present frequency. An island rises only once its half's voltage suffices for the step. -/
def islandStep (c : Nat) (up here : Bool) (v : Vig) (ch : Chip) : Chip :=
  let k := ch.clu c
  let i := ch.isl c
  let n := gridStep k.freq
  if c ≥ 32 ∨ !ch.halfUp (c / 16) ∨ k.inReset ∨ k.calib ∨ v.clk < i.lastStep + 10000 then ch
  else
    let ch := ch.updIsl c (fun i => { i with lastStep := v.clk })
    let here := ch.marginAt c here
    if n ≠ 0 ∧ (!here ∨ ch.capStep c < n) then ch.setFreq v c (gridMHz (n - 1))
    else if here ∧ ch.marginAt c up ∧ ch.mayRise v c ∧ needMv (n + 1) ≤ (tGet ch.bg (c / 16)).vdd then ch.setFreq v c (gridMHz (n + 1))
    else ch

/-- DROOP (R31, R472): the island falls by one or more steps and stays there for at least 1 ms. -/
def droop (c n : Nat) (v : Vig) (ch : Chip) : Chip :=
  if c ≥ 32 ∨ !ch.halfUp (c / 16) ∨ (ch.clu c).inReset then ch
  else
    let ch := ch.setFreq v c (gridMHz (gridStep (ch.clu c).freq - max 1 n))
    (ch.updIsl c (fun i => { i with hold := v.clk + 1000000 })).updBg (c / 16) (fun b => { b with sumDroop := b.sumDroop + 1 })

/-- CLOCK_CALIBRATION_END (R32): 2 ms after the island started. -/
def calibEnd (c : Nat) (v : Vig) (ch : Chip) : Chip :=
  if c ≥ 32 ∨ !ch.halfUp (c / 16) ∨ (ch.clu c).inReset ∨ !(ch.clu c).calib ∨ v.clk < (ch.isl c).calibEnd then ch
  else (ch.updClu c (fun k => { k with calib := false })).updIsl c (fun i => { i with lastStep := v.clk })

/-- THERMAL_CAP_STEP (R473): every 100 microseconds the thermal cap of each island of a half may move a step. -/
def thermalCap (h : Nat) (v : Vig) (ch : Chip) : Chip :=
  let b := tGet ch.bg h
  if !ch.halfUp h ∨ v.clk < b.capAt + 100000 then ch
  else
    let ch := ch.updBg h (fun b => { b with capAt := v.clk })
    let all := fun (ch : Chip) (f : Nat → Nat) =>
      (List.range 16).foldl (fun c i => c.updIsl (h * 16 + i) (fun x => { x with cool := f x.cool })) ch
    if b.above (ch.twarn h) then all ch (fun n => min topStep (n + 1))
    else if b.below (ch.twarn h - 40) then all ch (fun n => n - 1)
    else ch

/-- VOLTAGE_STEP (R31, R474, R553): VDD_CORE of a half moves by 5 mV towards the highest demand of its clusters, within 0.70 V to
0.85 V: up while some island needs more, down when none would lose margin; `ok` false is an AVSBus fault. -/
def voltageStep (h : Nat) (up ok : Bool) (v : Vig) (ch : Chip) : Chip :=
  let b := tGet ch.bg h
  let x := if up then b.vdd + 5 else b.vdd - 5
  let need := ch.demandMv v h
  if !ch.halfUp h ∨ b.avsFault ∨ x < 700 ∨ 850 < x ∨ (if up then need ≤ b.vdd else x < need) then ch
  else if ok then ch.updBg h (fun b => { b with vdd := x, vmin := min b.vmin x, vmax := max b.vmax x })
  else ch.updBg h (fun b => { b with avsFault := true, avsAt := v.clk })

/-- AVSBUS_RETRY (R553): once per millisecond after a fault. -/
def avsRetry (h : Nat) (ok : Bool) (v : Vig) (ch : Chip) : Chip :=
  let b := tGet ch.bg h
  if !ch.halfUp h ∨ !b.avsFault ∨ v.clk < b.avsAt + 1000000 then ch
  else ch.updBg h (fun b => { b with avsFault := !ok, avsAt := v.clk })

/-- JUNCTION_SENSOR_READ (R433, R434, R557): the eight sensors of a half are read, in 1/8 degrees C; a change of the thermal
warning bit is reported. -/
def sensorRead (h : Nat) (t : List Int) (v : Vig) (ch : Chip) : Chip :=
  if h ≥ 2 ∨ t.length ≠ 8 then ch
  else
    let hot := t.any (fun x => decide (1024 ≤ x))
    let warmBefore := ch.bg.h0.warm || ch.bg.h1.warm
    let ch := ch.updBg h (fun b => { b with
      temps := t, tmax := (List.range 8).map (fun i => max (t.getD i 0) (b.tmax.getD i (t.getD i 0)))
      hot := if hot then some (b.hot.getD v.clk) else none })
    let warm := (tGet ch.bg h).above (ch.twarn h)
    let ch := ch.updBg h (fun b => { b with warm := warm })
    if (ch.bg.h0.warm || ch.bg.h1.warm) = warmBefore then ch else ch.deviceEvent 0xB (healthRecord v ch)

/-- SWEEP_QUEUE (R477): in hardware mode a tenant's marked bytes or the age of the first mark queue a sweep. -/
def sweepQueue (t : Nat) (v : Vig) (ch : Chip) : Chip :=
  let p := ch.tenantFld 0 t 48 8
  let f := ch.tenantFld 0 t 56 8
  let big := decide (max 1 (ch.fld BG_SNF BG_SNF_THRESH_MB 0) * 2 ^ 20 ≤ p)
  let old := f ≠ 0 && decide (f + max 1 (ch.fld BG_SNF BG_SNF_DELAY_S 0) * 1000000000 ≤ v.dt)
  if !ch.tenantOk 0 t || ch.fld BG_MODE BG_MODE_SWEEP 0 = 1 || ch.sweepPending t || !(big || old) then ch else ch.sweepEnqueue t

/-- The visit of a half in a sweep (R478). -/
def Sweep.visit (s : Sweep) (h : Nat) : Visit := if h = 0 then s.v0 else s.v1

/-- Replace the visit of a half. -/
def Chip.setVisit (ch : Chip) (h : Nat) (w : Visit) : Chip :=
  { ch with sweep := ch.sweep.map (fun s => if h = 0 then { s with v0 := w } else { s with v1 := w }) }

/-- A line lies in the save area or the return stack of a compartment of a tenant on a half (R478). -/
def Chip.areasOf (ch : Chip) (h t : Nat) : List (Nat × Nat) :=
  (ch.tableIds h).flatMap (fun id => match ch.record id with
    | some r =>
      if r.tenant = t ∧ !r.flag fCompound then [(r.saveAt, r.saveAt + 0x2400), (r.rsc.base % 2 ^ 41, r.rsc.base % 2 ^ 41 + 1920)]
      else []
    | none => [])

/-- The least address of a list that is `lo` or more. -/
def leastFrom (lo : Nat) (l : List Nat) : Option Nat :=
  l.foldl (fun (b : Option Nat) a =>
    if a < lo then b
    else match b with
      | some m => some (min m a)
      | none => some a) none

/-- The tagged granules of a half's DRAM for which `p` holds, as device physical addresses. -/
def Chip.tagged (ch : Chip) (h : Nat) (p : Nat → Bool) : List Nat :=
  ch.ram.tags.flatMap (fun e =>
    (List.range 4).filterMap (fun i =>
      let a := e.1 * 64 + 16 * i
      if paHalf a = h && paDram a && ch.ram.tag a && p a then some a else none))

/-- The rate of the Snuffer of a half in MB/s (R479). -/
def Chip.snuffRate (ch : Chip) (h : Nat) : Nat := 1000 * min 20 (max 1 (ch.fld BG_SNF BG_SNF_RATE_GBS h))

/-- The Snuffer examines the granule at `a` (R478, R479): it reads the line first, unless it has just read it (`seen` is the address it
was at), and clears the tag of a revoked capability. `next` is where its visit `w` stands then; it stays where the rate does not allow
the read yet, or the line's channel is held (R467). -/
def Chip.snuff (v : Vig) (ch : Chip) (h t a seen : Nat) (w : Visit) (next : Nat) : Chip :=
  let again := seen ≠ 0 && (seen - 1) / 64 = paLocal a / 64
  if !again && (decide (1000 * v.clk < (tGet ch.bg h).snuffPs) || ch.chanHeld v a) then ch
  else
    let ch' : Chip := { ch with ram := ch.ram.setTag a false }
    let ch := if ch.revoked h t (ch.ram.rdCap a) then ch' else ch
    let ch := if again then ch
      else ch.updBg h (fun b => { b with sumSnuff := b.sumSnuff + 64, snuffPs := pacePs b.snuffPs v.clk (ch.snuffRate h) })
    ch.setVisit h { w with page := next }

/-- SNUFFER_GRANULE (R478): the Snuffer examines its next tagged granule: first in the tenant's pages, ascending, then in its
compartments' areas; it is done when none is left. -/
def snufferGranule (h : Nat) (v : Vig) (ch : Chip) : Chip :=
  match ch.sweep with
  | none => ch
  | some s =>
    let w := s.visit h
    if !ch.halfUp h ∨ w.done then ch
    else if w.page < 2 ^ 41 then
      match leastFrom (h * 2 ^ 40 + w.page) (ch.tagged h (fun a => ch.pageOwner a = some s.tenant)) with
      | some a => ch.snuff v h s.tenant a w.page w (paLocal a + 16)
      | none => ch.setVisit h { w with page := 2 ^ 41 }
    else
      let l := ch.areasOf h s.tenant
      match leastFrom (h * 2 ^ 40 + (w.page - 2 ^ 41)) (ch.tagged h (fun a => l.any (fun r => r.1 ≤ a && decide (a < r.2)))) with
      | some a => ch.snuff v h s.tenant a (w.page - 2 ^ 41) w (2 ^ 41 + paLocal a + 16)
      | none => ch.setVisit h { w with done := true }

/-- A granule of the local memory of cluster `c` holds a capability of a tenant (R73): it lies in the ring of one of its compartments,
or a task of the tenant stored it (log 112). -/
def Chip.ownGranule (ch : Chip) (t c a : Nat) : Bool :=
  (ch.clu c).slots.any (fun e => decide (ringBase c e.2 ≤ a) && decide (a < ringBase c e.2 + 32 * e.2.cap) &&
    ((ch.record e.2.comp).map (·.tenant)) = some t) || mGet? ch.clmTen (a / 16) = some t

/-- The cycles that the cores of a cluster lose in a pause, at most 20,480 (R73, R257); how many is not given (log 2). -/
def Chip.pauseIdle (ch : Chip) (c : Nat) : Chip :=
  let n := Config.freeNat ch.free % 20481
  (List.range 16).foldl (fun ch i => ch.idle (16 * c + i) n) { ch with free := ch.free + 1 }

/-- A store-buffer entry whose capability is checked as R72 says. -/
def SBEntry.mapVal (e : SBEntry) (f : Cap → Cap) : SBEntry := if e.capw then { e with val := f e.val } else e

/-- The end-of-sweep pause of one cluster that hosts the tenant (R73): the register-store entries of the tenant's tasks, in which
every fixed-latency result has landed, their capabilities on the way to local memory, and the granules of local memory that hold
capabilities of the tenant. -/
def Chip.endPause (ch : Chip) (t c : Nat) : Chip :=
  let h := c / 16
  let ts := (ch.tasks.filter (fun e => tClu e.1 = c && !coreSvc (tCore e.1) &&
    (e.2.tenant = t || ((e.2.bound.bind ch.record).map (·.tenant)) = some t))).map (·.1)
  let ch := (ts.foldl (fun ch x => ch.flush x) ch).pauseIdle c
  let mine := fun (e : Nat) => ts.any (fun x => decide (ch.base x ≤ e) && decide (e < ch.base x + ch.perTask (tCore x)))
  let new := fun (q : Cap) => ch.epochCheck h t q
  let lo := h * 2 ^ 40 + 0x8040000000 + c % 16 * 0x1000000
  let gs := ch.ram.tags.flatMap (fun e => (List.range 4).filterMap (fun i =>
    let a := e.1 * 64 + 16 * i
    if lo ≤ a && decide (a < lo + 0x100000) && ch.ram.tag a && ch.ownGranule t c a then some a else none))
  { ch with cores := ch.cores.map (fun k =>
              if coreClu k.1 = c && !coreSvc k.1 then
                (k.1, { k.2 with sb := k.2.sb.map (fun e => if e.tenant = t then e.mapVal new else e) })
              else k)
            store := ch.store.map (fun e => if mine e.1 then (e.1, new e.2) else e)
            ram := gs.foldl (fun m a => m.wrCap a (new (m.rdCap a))) ch.ram }

/-- Cluster `c` hosts a compartment of a tenant. -/
def Chip.hostsTenant (ch : Chip) (t c : Nat) : Bool :=
  (ch.compsOf c).any (fun r => decide (r.tenant = t)) ||
    ch.tasks.any (fun e => tClu e.1 = c && !coreSvc (tCore e.1) && ((e.2.bound.bind ch.record).map (·.tenant)) = some t)

/-- SWEEP_COMPLETE (R73, R478, R481): both halves have been visited; the end pauses run and half 0 reports. A cluster in reset
is skipped. A core pauses at an instruction boundary: it completes the pair, the handler's entry or the gate instruction it stands
in first (R168, R192). -/
def sweepComplete (ch : Chip) : Chip :=
  match ch.sweep with
  | none => ch
  | some s =>
    if !(s.v0.done && s.v1.done) ∨ !(ch.wickUp 0 ∨ s.v0.abandoned ∨ s.v1.abandoned) then ch
    else
      let t := s.tenant
      let cs := (List.range 32).filter (fun c => !(ch.clu c).inReset && ch.hostsTenant t c)
      if ch.tasks.any (fun e => cs.contains (tClu e.1) && !coreSvc (tCore e.1) && e.2.busy) then ch
      else
      let ch := cs.foldl (fun ch c => ch.endPause t c) ch
      let ch : Chip := { (ch.tenantBit 0 t 2 false).tenantBit 1 t 2 false with sweep := none }
      ch.hostEvent 0 9 (leBytes 2 t ++ [BitVec.ofNat 8 (b2n (s.v0.abandoned || s.v1.abandoned))])

/-- What a telemetry page says of a cluster (R483): minimum, maximum and mean MHz, and its highest sensor reading. -/
def Chip.cluPage (ch : Chip) (v : Vig) (h c : Nat) : List Byte :=
  let b := tGet ch.bg h
  let i := ch.isl (h * 16 + c)
  let f := (ch.clu (h * 16 + c)).freq
  let sum := i.fsum + f * (v.clk - max i.acc b.pageAt)
  let t := b.tmax.getD (Config.sensorOf c % 8) 0
  leBytes 2 (min i.fmin f) ++ leBytes 2 (max i.fmax f) ++ leBytes 2 (sum / max 1 (v.clk - b.pageAt)) ++
    leBytes 2 ((t % 65536).toNat)

/-- The telemetry page of a half (R483). -/
def Chip.pageBytes (ch : Chip) (v : Vig) (h : Nat) : List Byte :=
  let b := tGet ch.bg h
  leBytes 8 v.boundary ++ leBytes 1 h ++ leBytes 7 0 ++ (List.range 16).flatMap (ch.cluPage v h) ++
    leBytes 2 b.vmin ++ leBytes 2 b.vmax ++ leBytes 1 (ch.fld BG_TRIM BG_TRIM_LEVEL h) ++ leBytes 3 0 ++ leBytes 8 b.sumCe ++
    leBytes 8 b.sumUe ++ leBytes 8 b.sumRet ++ leBytes 8 b.sumPass ++ leBytes 8 b.sumDef ++ leBytes 8 b.sumFail ++
    leBytes 8 b.sumDroop ++ leBytes 8 b.sumReplay ++ leBytes 8 b.sumSnuff

/-- TELEMETRY_PAGE (R483): 1 ms after a minute boundary. -/
def telemetryPage (h : Nat) (v : Vig) (ch : Chip) : Chip :=
  let b := tGet ch.bg h
  if !ch.halfUp h ∨ v.boundary ≤ b.pageMin ∨ v.dt < v.boundary * minuteNs + 1000000 then ch
  else
    let p := ch.pageBytes v h
    let ch := (List.range 16).foldl (fun ch i =>
      let f := (ch.clu (h * 16 + i)).freq
      ch.updIsl (h * 16 + i) (fun x => { x with fmin := f, fmax := f, fsum := 0, acc := v.clk })) ch
    ch.updBg h (fun b => { b with
      page := p, pageMin := v.boundary, pageAt := v.clk, vmin := b.vdd, vmax := b.vdd, tmax := b.temps, sumCe := 0, sumUe := 0
      sumRet := 0, sumPass := 0, sumDef := 0, sumFail := 0, sumDroop := 0, sumReplay := 0, sumSnuff := 0 })

/-- TRIMMER_PATROL. -/
def execTrimmerPatrol (h err : Nat) (s : State) : Out := chipStep (trimmerPatrol h err) s
/-- SCRUB_LEVEL_ADJUST. -/
def execScrubLevelAdjust (h : Nat) (s : State) : Out := chipStep (scrubAdjust h) s
/-- SRAM_SCRUB. -/
def execSramScrub (reg : Bool) (a err : Nat) (s : State) : Out := chipStep (fun _ ch => sramScrub reg a err ch) s
/-- RETRAIN_DUE. -/
def execRetrainDue (h c : Nat) (temp : Bool) (s : State) : Out := chipStep (retrainDue h c temp) s
/-- RETRAIN_STEP. -/
def execRetrainStep (h c : Nat) (s : State) : Out := chipStep (retrainStep h c) s
/-- RETRAIN_FORCE. -/
def execRetrainForce (h c : Nat) (s : State) : Out := chipStep (retrainForce h c) s
/-- RETRAIN_COMPLETE. -/
def execRetrainComplete (h c : Nat) (ok : Bool) (s : State) : Out := chipStep (retrainComplete h c ok) s
/-- ISLAND_CLOCK_STEP. -/
def execIslandClockStep (c : Nat) (up here : Bool) (s : State) : Out := chipStep (islandStep c up here) s
/-- DROOP. -/
def execDroop (c n : Nat) (s : State) : Out := chipStep (droop c n) s
/-- CLOCK_CALIBRATION_END. -/
def execClockCalibrationEnd (c : Nat) (s : State) : Out := chipStep (calibEnd c) s
/-- THERMAL_CAP_STEP. -/
def execThermalCapStep (h : Nat) (s : State) : Out := chipStep (thermalCap h) s
/-- VOLTAGE_STEP. -/
def execVoltageStep (h : Nat) (up ok : Bool) (s : State) : Out := chipStep (voltageStep h up ok) s
/-- AVSBUS_RETRY. -/
def execAvsbusRetry (h : Nat) (ok : Bool) (s : State) : Out := chipStep (avsRetry h ok) s
/-- JUNCTION_SENSOR_READ. -/
def execJunctionSensorRead (h : Nat) (t : List Int) (s : State) : Out := chipStep (sensorRead h t) s
/-- SWEEP_QUEUE. -/
def execSweepQueue (t : Nat) (s : State) : Out := chipStep (sweepQueue t) s
/-- SWEEP_START. -/
def execSweepStart (s : State) : Out := chipStep (fun _ ch => ch.sweepNext) s
/-- SNUFFER_GRANULE. -/
def execSnufferGranule (h : Nat) (s : State) : Out := chipStep (snufferGranule h) s
/-- SWEEP_COMPLETE. -/
def execSweepComplete (s : State) : Out := chipStep (fun _ ch => sweepComplete ch) s
/-- TELEMETRY_PAGE. -/
def execTelemetryPage (h : Nat) (s : State) : Out := chipStep (telemetryPage h) s

end Sys2Proof.Machine
end

