-- ==== Sys2Proof/Machine/Dma.lean ====
section
/-! DEFINITION. The DMA engines (R301 to R308): rings and registers. What a descriptor does stands in DmaGo. -/

namespace Sys2Proof.Machine

/-- The key of an engine. -/
def dmaKey (h e : Nat) : Nat := h * 4 + e
/-- The engine is halted (R306). -/
def Chip.dmaHalted (ch : Chip) (h e : Nat) : Bool := tb (ch.fld HALF_DMA_STAT HALF_DMA_STAT_HALTED h) e
/-- Halt an engine (R306). -/
def Chip.dmaHalt (ch : Chip) (h e : Nat) : Chip :=
  ch.setFld HALF_DMA_STAT HALF_DMA_STAT_HALTED h [] (ch.fld HALF_DMA_STAT HALF_DMA_STAT_HALTED h ||| 2 ^ e)

/-- The descriptors a ring capability's bounds span, or the cause of the rule it breaks (R302). -/
def ringSize (c : Cap) (perms : List Nat) (unit lo hi : Nat) : Nat ⊕ Nat :=
  if !c.tag then .inr 0x10
  else if c.otype ≠ 0 then .inr 0x11
  else if perms.any (fun p => !c.has p) then .inr 0x12
  else if c.base % 64 ≠ 0 then .inr 0x14
  else
    match (List.range (hi + 1)).find? (fun j => lo ≤ j && c.top - c.base = unit * 2 ^ j) with
    | some j => .inl (2 ^ j)
    | none => .inr 0x14

/-- A DMA address (R304): bits 47:0 of the cursor. One with any of bits 47:41 set is unpopulated (R279); its bits 40:0 are what a
violation records (R319). -/
def dmaPa (a : Nat) : Nat := a % 2 ^ 48

/-- A descriptor whose OP, LEN or zero fields are invalid (R303). -/
def dmaBad (d : List Byte) (st : Bool) : Bool :=
  let op := fieldB d 40 1
  let len := fieldB d 32 8
  !(op = 1 || op = 2) || len = 0 || len > 2 ^ 32 || fieldB d 41 1 > 1 || fieldB d 42 6 ≠ 0 || fieldB d 59 1 ≠ 0 ||
    (op = 1 && fieldB d 48 8 ≠ 0) || (op = 2 && (fieldB d 0 16 ≠ 0 || st))

/-- Change the descriptor of an engine. -/
def Chip.dmaNote (ch : Chip) (k : Nat) (f : Dma → Dma) : Chip :=
  match mGet? ch.dma k with
  | some d => { ch with dma := mSet ch.dma k (f d) }
  | none => ch

/-- The half's DMA interrupt to its service core (R306): asserted while any DONE or HALTED bit is 1. -/
def Chip.dmaIrq (ch : Chip) (h : Nat) : Bool :=
  ch.fld HALF_DMA_STAT HALF_DMA_STAT_DONE h ≠ 0 || ch.fld HALF_DMA_STAT HALF_DMA_STAT_HALTED h ≠ 0

/-- DMA_RESUME (R306). -/
def dmaResume (h e : Nat) (ch : Chip) : Chip :=
  let old := ch.fld HALF_DMA_STAT HALF_DMA_STAT_HALTED h
  if h ≥ 2 ∨ e ≥ 4 then ch
  else
    (ch.setFld HALF_DMA_STAT HALF_DMA_STAT_HALTED h [] (bfSet old e 1 0)).setFld HALF_DMA_HEAD HALF_DMA_HEAD_RCAUSE h [e] 0

/-- DMA_ABORT (R306): the descriptor in progress ends failed with cause 0, at the end of its present piece; the engine halts. -/
def dmaAbort (h e : Nat) (ch : Chip) : Chip :=
  if h ≥ 2 ∨ e ≥ 4 then ch
  else
    match mGet? ch.dma (dmaKey h e) with
    | none => ch.dmaHalt h e
    | some d =>
      if d.phase = 1 ∧ d.fail.isNone ∧ d.moved < d.len then { ch with dma := mSet ch.dma (dmaKey h e) { d with fail := some 0 } }
      else ch.dmaHalt h e

/-- DMA_TAIL_WRITE (R302, R308). -/
def dmaTailWrite (h e v : Nat) (ch : Chip) : Chip :=
  if h ≥ 2 ∨ e ≥ 4 then ch else ch.setFld HALF_DMA_TAIL HALF_DMA_TAIL_INDEX h [e] v

/-- DMA_TAIL_WRITE. -/
def execDmaTailWrite (h e v : Nat) (s : State) : Out := chipStep (fun _ ch => dmaTailWrite h e v ch) s
/-- DMA_RESUME. -/
def execDmaResume (h e : Nat) (s : State) : Out := chipStep (fun _ ch => dmaResume h e ch) s
/-- DMA_ABORT. -/
def execDmaAbort (h e : Nat) (s : State) : Out := chipStep (fun _ ch => dmaAbort h e ch) s

end Sys2Proof.Machine
end

