-- ==== Sys2Proof/Machine/Reset.lean ====
section
/-! DEFINITION. What each kind of reset reaches and leaves (R495 to R501, R505, R525). -/

namespace Sys2Proof.Machine

/-- Remove the keys from `lo` to below `lo + n`. -/
def mCut {α : Type} (m : NMap α) (lo n : Nat) : NMap α := mDelIf m (fun k => lo ≤ k && decide (k < lo + n))

/-- Take the registers at `n` addresses from `lo` to their reset values (R496). -/
def Chip.cutRegs (ch : Chip) (lo n : Nat) : Chip := { ch with csr := mCut ch.csr lo n, csrCap := mCut ch.csrCap lo n }

/-- Wipe the register stores and task states of `n` cores from core `k`, and reset their debug windows (R80, R496, R500,
R546). A halted task is lost, which the
Taper port is told (R537). -/
def Chip.wipeTasks (ch : Chip) (k n : Nat) : Chip :=
  let lost := ch.tasks.any (fun e => k * 64 ≤ e.1 && decide (e.1 < (k + n) * 64) && e.2.halted)
  let ch := if lost then ch.raiseAttn 8 else ch
  let ch := ch.cutRegs (coreHalf k * 2 ^ 40 + 0xC00E001000 + coreMaster k * 0x100) (n * 0x100)
  { ch with store := mCut ch.store (k * 4096) (n * 4096), rsBad := mCut ch.rsBad (k * 4096) (n * 4096)
            dirty := mCut ch.dirty (k * 512) (n * 512), zero := mCut ch.zero (k * 512) (n * 512)
            tasks := mCut ch.tasks (k * 64) (n * 64), readyAt := mCut ch.readyAt k n }

/-- The address of a core's CORE block (R267). -/
def coreBlock (k : Nat) : Nat := k / 256 * 2 ^ 40 + 0xC100100000 + k / 16 % 16 * 0x1000000 + k % 16 * 0x10000

/-- The address of a cluster's control region (R267). -/
def cluRegion (c : Nat) : Nat := c / 16 * 2 ^ 40 + 0xC100000000 + c % 16 * 0x1000000

/-- A core is marked failed by its watchdog (R518). -/
def Chip.coreFailed (ch : Chip) (k : Nat) : Bool := tb (ch.fld CLU_WDOG CLU_WDOG_FAILED (k / 256) [k / 16 % 16]) (k % 16)

/-- Assert a core reset (R495, R500): it keeps the marks of R518. -/
def Chip.resetCore (ch : Chip) (k : Nat) : Chip :=
  let f := ch.coreFailed k
  ((ch.wipeTasks k 1).cutRegs (coreBlock k) 0x10000).updCore k (fun c =>
    { CoreSt.reset with inReset := true, failed := f, faultAt := c.faultAt })

/-- The slice under way on a half tests a unit of cluster `i` of the half, or with `i` 16 any unit (R484, R490). -/
def sliceIn (n i : Nat) : Bool :=
  i = 16 || (if n < 256 then n / 16 = i else if n < 2304 then (n - 256) / 128 = i else false)

/-- A slice whose unit a reset reaches is deferred (R490, R525). -/
def Chip.sliceReset (ch : Chip) (h i : Nat) : Chip :=
  match (tGet ch.bg h).slice with
  | none => ch
  | some s => if sliceIn s.num i then ch.sliceDefer h else ch

/-- A cluster's island, stopped or started at device time `dt`, keeps its cycles of the balance epoch and its load (R261). -/
def Cluster.keepEpoch (new old : Cluster) (dt : Nat) : Cluster :=
  { new with loadCyc := old.loadCyc, fAcc := old.fAcc + (if old.inReset then 0 else old.freq * (dt - old.fAt)), fAt := dt }

/-- Assert the reset of a cluster (R495, R496, R500): its cores, local memory, queues, caches and registers. -/
def Chip.resetCluster (v : Vig) (ch : Chip) (c : Nat) : Chip :=
  let h := c / 16
  let ch := (ch.wipeTasks (c * 16) 16).cutRegs (cluRegion c) 0x1000000
  let lo := h * 2 ^ 40 + 0x8040000000 + c % 16 * 0x1000000
  let old := ch.clu c
  let ch : Chip := { ch with ram := ch.ram.wipeRange lo (lo + 0x1000000), clmTen := mCut ch.clmTen (lo / 16) 0x100000, cores := mCut ch.cores (c * 16) 16 }
  ch.updClu c (fun _ => { (Cluster.reset old.tcfg).keepEpoch old v.dt with inReset := true })

/-- A cluster island starts (R32, R81): 1.0 GHz, calibrating for 2 ms, cut as HALF_TASKCFG says. -/
def Chip.startCluster (v : Vig) (ch : Chip) (c : Nat) : Chip :=
  let n := bf (ch.reg HALF_TASKCFG (c / 16) []) (2 * (c % 16)) 2
  (ch.updClu c (fun k => (Cluster.reset n).keepEpoch k v.dt)).updIsl c (fun x =>
    { x with calibEnd := v.clk + 2000000, lastStep := v.clk, hold := 0, cool := 0, fmin := min x.fmin 1000
             fmax := max x.fmax 1000, fsum := x.fsum, acc := v.clk })

/-- Poison the line that holds `a` and count it (R498, R499). -/
def Chip.poisonLost (ch : Chip) (a : Nat) : Chip :=
  { ch.cnt HALF_FAULTS HALF_FAULTS_POISONED (paHalf a) with ram := ch.ram.poisonLine a }

/-- The lines of the store-buffer entries of a core that have not drained (R499). -/
def Chip.undrained (ch : Chip) (k : Nat) : List Nat := ((ch.core k).sb.flatMap (fun e => e.pieces.flatMap linesOf)).eraseDups

/-- The ROM capability of a half (R505), derived from the root as R56 says. -/
def romCap (h : Nat) : Cap := mkCap (h * 2 ^ 40 + 0xC000800000) 0x20000 0x0105 0 (h * 2 ^ 40 + 0xC000800000)

/-- The boot task's key. -/
def bootTask (h : Nat) : Nat := (512 + h) * 64

/-- Set up the boot task (R505, R56), and start the service core and its watchdog's period. -/
def Chip.setBoot (v : Vig) (ch : Chip) (h : Nat) : Chip :=
  let ch := ch.updCore (512 + h) (fun _ => CoreSt.reset)
  let ch := ch.setTask (bootTask h) (({ Task.reset with pcc := romCap h } : Task).putStatus 13 2 3)
  (ch.wrReg (bootTask h) 0 Cap.root).updHalf h (fun x => { x with boot := 0, kick := v.clk, svcReset := false })

/-- Assert the reset of a service core (R495, R523): its register store and SRAMs, and what Chandler holds. -/
def Chip.resetService (ch : Chip) (h : Nat) : Chip :=
  let ch := ((ch.wipeTasks (512 + h) 1).updCore (512 + h) (fun _ => { CoreSt.reset with inReset := true })).updClu (32 + h)
    (fun _ => Cluster.reset 1)
  ch.updHalf h (fun x => { x with svcReset := true, svcDue := false, boot := 0, lcReset := false })

/-- The registers of a half that a half reset leaves (R393, R457, R461, R495, R528): the PCIe block's and the gauges; and what
RESETS and EXPIRIES keep. -/
def Chip.resetRegs (ch : Chip) (h cause : Nat) : Chip :=
  let lo := h * 2 ^ 40
  let kept : NMap Word := ch.csr.filter (fun e => (lo + 0xC007000000 ≤ e.1 && decide (e.1 < lo + 0xC008000000)) ||
    (lo + 0xC00A400000 ≤ e.1 && decide (e.1 < lo + 0xC00A408000)))
  let resets := ch.fld CMD_STAT CMD_STAT_RESETS h
  let exp := ch.fld HALF_SWDOG HALF_SWDOG_EXPIRIES h
  let ch := ch.cutRegs (h * 2 ^ 40) (2 ^ 40)
  let ch : Chip := { ch with csr := kept.foldl (fun m e => mSet m e.1 e.2) ch.csr }
  ((ch.setFld CMD_STAT CMD_STAT_RESETS h [] (resets + 1)).setFld HALF_SWDOG HALF_SWDOG_EXPIRIES h [] exp).setReg HALF_RSTSTAT h []
    cause

/-- Frames of half `h` that the other half is to send on its ports leave no run behind any more, once half `h` is reset. -/
def Chip.forgetRuns (ch : Chip) (h : Nat) : Chip :=
  let msg := fun (m : WMsg) => match m.body with
    | .frame 2 b i => { m with body := .frame 2 b (i.take 3) }
    | _ => m
  let mine := fun (e : Eg) => if (e.run.map (·.1)) = some h then { e with run := none } else e
  (ch.updWick (1 - h) (fun p => { p with inbox := p.inbox.map msg })).updFlow (1 - h) (fun f =>
    { f with egress := f.egress.map (fun e => (e.1, e.2.map mine)) })

/-- The commands, moves and other work of a half that its reset discards (R457, R525). -/
def Chip.resetWork (ch : Chip) (h : Nat) : Chip :=
  let mine := fun (i : Nat) => compHalf i = h
  let a := tGet ch.adrus h
  { ch with
    hev := tSet ch.hev h [], evLost := tSet ch.evLost h 0, loads := mCut ch.loads (h * 16) 16, moves := mDelIf ch.moves mine
    adq := tSet ch.adq h [], dma := mCut ch.dma (h * 4) 4, runs := tSet ch.runs h [], hbq := tSet ch.hbq h []
    carry := mDelIf ch.carry mine, moveFrom := mDelIf ch.moveFrom mine, tagc := mCut ch.tagc (h * 4096) 4096
    clmTen := mCut ch.clmTen (h * 2 ^ 36) (2 ^ 36)
    mirq := tSet ch.mirq h [], compLoad := mDelIf ch.compLoad mine, flow := tSet ch.flow h Flow.reset
    mir := tSet ch.mir h { MirLink.reset with hbAt := (tGet ch.mir h).hbAt }
    adrus := tSet ch.adrus h { Adrus.reset with next := a.next, host := a.host, cplTo := a.cplTo, irqs := a.irqs, inb := a.inb }
    sweep := ch.sweep.map (fun s =>
      let w := fun (x : Visit) => { x with done := true, abandoned := true }
      if h = 0 then { s with v0 := w s.v0 } else { s with v1 := w s.v1 }) }

/-- The SRAMs and DRAM of a half at its reset (R496, R500, R502): SRAM reads zero; DRAM is served again from the end of
initialisation. -/
def Ram.resetHalf (m : Ram) (h : Nat) : Ram :=
  let m := (m.wipeRange (pbBase h) (pbBase h + 2 ^ 25)).wipeRange (h * 2 ^ 40 + 0x8040000000) (h * 2 ^ 40 + 0x8050000000)
  { m with fitted := tSet m.fitted h 0, sumOn := tSet m.sumOn h false, sumClr := mCut m.sumClr (h * 2 ^ 22) (2 ^ 22) }

/-- The background services of a half after its reset: the sensors' readings are the Vigil island's (R524). -/
def Bg.afterReset (b : Bg) : Bg := { Bg.reset with temps := b.temps, tmax := b.tmax, warm := b.warm, hot := b.hot, vdd := b.vdd, vmin := b.vmin, vmax := b.vmax }

/-- Assert the reset of everything of a half but its Wick port and the pair (R495, R496). -/
def Chip.resetBlocks (v : Vig) (ch : Chip) (h cause : Nat) (held : Bool) : Chip :=
  let ch := ((ch.wipeTasks (h * 256) 256).wipeTasks (512 + h) 1).resetRegs h cause
  let ch := (ch.resetWork h).forgetRuns h
  let ch : Chip := { ch with
    ram := ch.ram.resetHalf h, cores := mSet (mCut ch.cores (h * 256) 256) (512 + h) { CoreSt.reset with inReset := true }
    clusters := (List.range 16).foldl (fun m c => mSet m (h * 16 + c) { Cluster.reset 1 with inReset := true })
      (mDel (mCut ch.clusters (h * 16) 16) (32 + h)) }
  (ch.updBg h Bg.afterReset).updHalf h (fun _ =>
    { Half.reset with held := held, since := v.clk, lcReset := decide (cause = 2) })

/-- Wick while a half is in reset (R28): the other half's requests fail; the port of the half is as at reset. -/
def Chip.resetWick (v : Vig) (ch : Chip) (h : Nat) : Chip :=
  let ch := if (tGet ch.wick (1 - h)).down then ch else ch.wickLose v (1 - h)
  let ch := ch.failForwards (1 - h)
  let ch := ch.updWick h (fun _ => { WickPort.reset with down := true, training := false })
  if (tGet ch.half (1 - h)).inReset then ch
  else ch.hostEvent (1 - h) 4 (leBytes 4 (ch.wckStatus (1 - h)) ++ leBytes 4 (ch.reg WCK_ERR (1 - h) []))

/-- The pair when a half is reset (R399, R415, R525): its link is down, and a resynchronisation is abandoned. -/
def resetPair (s : Vig × Chip) : Vig × Chip :=
  if s.1.pair.step ≠ 0 ∨ s.1.pair.role = 4 then abandonResync s else linkLost s

/-- The ledger blocks whose messages a link loses with its reset have not been sent (R414, R525): as many of the last as whole messages of
its LEDGER channel have not been acknowledged. -/
def Vig.unsentBlocks (v : Vig) (l : MirLink) : Vig :=
  let n := ((l.replay.map (·.2) ++ mGet l.txq 3 []).filter (fun c => c.chn = 3 && c.eom)).length
  let last := ((v.blocks.filter (fun b => !b.peer && b.sent)).reverse.take n).map (·.seq)
  { v with blocks := v.blocks.map (fun b => if !b.peer && last.contains b.seq then { b with sent := false } else b) }

/-- Assert a half reset (R18, R495, R525): `cause` as HALF_RSTSTAT has it; `held` until the life cycle lets it go, or for good
by a thermal trip. -/
def halfReset (h cause : Nat) (held : Bool) (s : Vig × Chip) : Vig × Chip :=
  let a := tGet s.2.adrus h
  let mine := a.cmds.any (fun c => c.src = .i3c) || a.compl.any (fun c => c.src = .i3c)
  let v := { s.1.unsentBlocks (tGet s.2.mir h) with i3c := { s.1.i3c with busy := s.1.i3c.busy && !mine }, retries := if h = 0 then 0 else s.1.retries }
  resetPair (v, (s.2.resetBlocks v h cause held).resetWick v h)

end Sys2Proof.Machine
end

