-- ==== Sys2Proof/Machine/ResetEv.lean ====
section
/-! DEFINITION. Resets, their release, the power-up sequence and the timeout ladder (R495 to R524). -/

namespace Sys2Proof.Machine

/-- The flash after a reset that may tear the slot being programmed (R525): the bits of `torn` of the oldest program do not
clear. -/
def Vig.tear (v : Vig) (torn : Option Nat) : Vig :=
  match torn, v.progs with
  | some n, (s, d, _) :: _ =>
    if v.sectors = 0 then v
    else
      let p := v.slotOf s
      let v := if (v.flashN (p.1 * 65536) 64).all (fun b => b = 0xFF) then
          v.program (p.1 * 65536) (v.sectorHeader p.1 (s - p.2)) (n / 2 ^ 512) else v
      v.program (slotAddr p) d n
  | _, _ => v

/-- Boundary scan while RESET_N is low (R547): a selected EXTEST, CLAMP or HIGHZ takes effect. -/
def Jtag.underReset (j : Jtag) : Jtag := { j with driven := j.ir = 3 || j.ir = 4, floating := j.ir = 5 }

/-- Power-on reset and RESET_N (R495, R501): what is left is the fuses and keys of the key store, the flash, the boundary-scan
port, and the bytes in the DRAM devices and in host memory. -/
def deviceReset (cause : Nat) (torn : Option Nat) (v : Vig) (ch : Chip) : Vig × Chip :=
  let f := (v.tear torn).flash
  let v' : Vig := { Vig.reset with
    lc := v.lc, entries := v.entries, dbgKeys := v.dbgKeys, hostKey := v.hostKey, flash := f, jtag := v.jtag.underReset, straps := v.straps }
  let host := fun (h : Nat) => { Adrus.reset with host := (tGet ch.adrus h).host }
  let ch' : Chip := { Chip.reset with
    ram := (ch.ram.resetHalf 0).resetHalf 1, free := ch.free, adrus := ⟨host 0, host 1⟩ }
  (v', (ch'.setReg HALF_RSTSTAT 0 [] cause).setReg HALF_RSTSTAT 1 [] cause)

/-- HALF_RESET (R495): the half reset that a command or the service-core watchdog has called for. A reset of the same half
under way absorbs it (R497). -/
def halfResetRow (h : Nat) (v : Vig) (ch : Chip) : Vig × Chip :=
  match (tGet ch.half h).due with
  | none => (v, ch)
  | some cause =>
    if h ≥ 2 ∨ v.resetN then (v, ch)
    else if (tGet ch.half h).inReset then (v, ch.updHalf h (fun x => { x with due := none }))
    else halfReset h cause false (v, ch)

/-- SERVICE_CORE_RESET (R495, R523): the commands that Chandler holds end ABORTED; the flow engine keeps the fast ones. -/
def serviceReset (h : Nat) (ch : Chip) : Chip :=
  if h ≥ 2 ∨ !(tGet ch.half h).svcDue ∨ (tGet ch.half h).inReset then ch
  else
    let ids := ((tGet ch.adrus h).cmds.filter (fun c => !c.fast)).map (·.id)
    let ch := ids.foldl (fun c id => c.complete h id stAborted [] []) ch
    let ch := (ch.setFld CMD_STAT CMD_STAT_READY h [] 0).reapPairs h
    (ch.resetService h).setReg HALF_RSTSTAT h [] 6

/-- The lines that a cluster's L2 holds dirty (R271, R498), as addresses. -/
def Cluster.dirtyLines (k : Cluster) : List Nat := ((k.l2.flatMap (·.2)).filter (fun l => l.dirty.isSome)).map (fun l => 64 * l.line)

/-- A move into a cluster that is reset is abandoned (R525). -/
def Chip.dropMoves (ch : Chip) (c : Nat) : Chip :=
  (ch.moves.filter (fun m => m.2.1 = c)).foldl (fun ch m =>
    let ch : Chip := { ch.setFlag m.1 fMoving false with moves := mDel ch.moves m.1 }
    if m.2.2 = 0 then ch.cnt SCH_BALSTAT SCH_BALSTAT_DEFERRED (c / 16)
    else { ch with moveEnds := ch.moveEnds ++ [(m.2.2 - 1, 0)] }) ch

/-- Every core of a cluster has drained its store buffer, and no compartment is bound there. -/
def Chip.cluIdle (ch : Chip) (c : Nat) : Bool :=
  (List.range 16).all (fun i => (ch.core (c * 16 + i)).sb.isEmpty && decide (ch.boundCount (c * 16 + i) = 0))

/-- CLUSTER_RESET (R495, R498, R499): the dirty lines of the cluster's L2 are written back first; `dirty` are those not written
back within 20 microseconds, which only a watchdog reset leaves. -/
def clusterReset (c : Nat) (dirty : List Nat) (v : Vig) (ch : Chip) : Chip :=
  let k := ch.clu c
  match k.due with
  | none => ch
  | some (cause, since) =>
    let late := decide (since + 20000 ≤ v.clk)
    if c ≥ 32 ∨ k.inReset ∨ (cause = 0 ∧ !(ch.cluIdle c && dirty.isEmpty)) ∨
        (cause ≠ 0 ∧ !late ∧ !(dirty.isEmpty && (List.range 16).all (fun i => (ch.core (c * 16 + i)).sb.isEmpty))) then ch
    else
      let left := k.dirtyLines.filter (fun a => dirty.any (fun d => alignDown d 64 = a))
      let lost := left ++ (List.range 16).flatMap (fun i => ch.undrained (c * 16 + i))
      let ch := left.foldl (fun ch a => ch.l2Upd c a (fun s => s.filter (fun e => e.line ≠ a / 64))) ch
      let ch := lost.eraseDups.foldl Chip.poisonLost (ch.l2Flush v c)
      Chip.resetCluster v ((ch.sliceReset (c / 16) (c % 16)).dropMoves c) c

/-- CORE_RESET (R495, R499): once the store buffer has drained, or, for the watchdog, after 2 microseconds; what is left is
poisoned. -/
def coreReset (k : Nat) (v : Vig) (ch : Chip) : Chip :=
  match (ch.core k).due with
  | none => ch
  | some (cause, since) =>
    if k ≥ 512 ∨ (ch.core k).inReset ∨ (ch.clu (coreClu k)).inReset ∨
        (!(ch.core k).sb.isEmpty ∧ (cause ≠ 1 ∨ v.clk < since + 2000)) then ch
    else (((ch.undrained k).foldl Chip.poisonLost ch).resetCore k).updCore k (fun c => { c with failed := c.failed || decide (cause = 2) })

/-- A half leaves reset (R500, R505, R511): its clusters start, the boot task is set up, and Wick trains once both halves have
left reset. -/
def Chip.releaseHalf (v : Vig) (ch : Chip) (h : Nat) : Chip :=
  let ch := ch.updHalf h (fun x => { x with inReset := false, since := v.clk, due := none })
  let ch := (List.range 16).foldl (fun ch c => ch.startCluster v (h * 16 + c)) ch
  let ch := (ch.setBoot v h).updBg h (fun b => { b with sliceAt := v.clk, ceAt := v.dt, pageAt := v.clk })
  if (tGet ch.half (1 - h)).inReset then ch
  else
    let on := ch.fld WCK_CTRL WCK_CTRL_ENABLE 0 = 1 ∧ ch.fld WCK_CTRL WCK_CTRL_ENABLE 1 = 1
    if on then
      let f := fun (p : WickPort) => { p with down := false, fails := 0 }
      Chip.startTraining v { ch with wick := ⟨f ch.wick.h0, f ch.wick.h1⟩ }
    else ch

/-- RESET_RELEASE (R500): the SRAMs are wiped and the block leaves reset. `kind` is 0 for RESET_N (`straps` are sampled, R550),
1 for half `i`, 2 for cluster `i`, 3 for core `i`, 4 for the service core of half `i`. A cluster that returns finds
CLU_XVEC_MCH rewritten by the Machine monitor (R510). No half is released while a key change is to be completed (R514). -/
def resetRelease (kind i straps : Nat) (v : Vig) (ch : Chip) : Vig × Chip :=
  match kind with
  | 0 => if v.resetN then ({ v with resetN := false, straps := straps % 8, jtag := { v.jtag with driven := false, floating := false } }, ch) else (v, ch)
  | 1 =>
    let x := tGet ch.half i
    if i ≥ 2 ∨ v.resetN ∨ v.trip ∨ !x.inReset ∨ x.held ∨ v.keyLate then (v, ch) else (v, Chip.releaseHalf v ch i)
  | 2 =>
    if i ≥ 32 ∨ !(ch.clu i).inReset ∨ (tGet ch.half (i / 16)).inReset then (v, ch)
    else
      let ch := ch.startCluster v i
      let mch := ch.capReg HALF_SCXVEC_MCH (i / 16)
      (v, if (tGet ch.half (i / 16)).boot = 0 then ch else ch.setCapReg CLU_XVEC_MCH (i / 16) [i % 16] mch)
  | 3 =>
    if i ≥ 512 ∨ !(ch.core i).inReset ∨ (ch.clu (coreClu i)).inReset then (v, ch)
    else (v, ch.updCore i (fun c => { c with inReset := false }))
  | 4 =>
    if i ≥ 2 ∨ !(tGet ch.half i).svcReset ∨ (tGet ch.half i).inReset then (v, ch) else (v, ch.setBoot v i)
  | _ => (v, ch)

/-- DDR5 density codes (R559, R560): bytes fitted to a half. -/
def fittedOf (dens : Nat) : Nat := if dens = 1 then 64 * 2 ^ 30 else if dens = 2 then 128 * 2 ^ 30 else 0

/-- DDR_INIT_DONE (R74, R79, R502, R559, R560): the wipe of the half's DRAM begins, which drops the tag cache and clears every poison. `dens` is the density that all four channels report (1 or 2), 0 when they differ;
bit k of `fail` says that channel k failed. -/
def ddrInit (h dens fail : Nat) (v : Vig) (ch : Chip) : Chip :=
  let d := fittedOf dens
  if h ≥ 2 ∨ (tGet ch.half h).inReset ∨ ch.fld DDR_STAT DDR_STAT_INIT_DONE h = 1 ∨ ch.fld DDR_STAT DDR_STAT_CHFAIL h ≠ 0 then ch
  else if fail % 16 ≠ 0 then ch.setFld DDR_STAT DDR_STAT_CHFAIL h [] (fail % 16)
  else if d = 0 then ch.setFld DDR_STAT DDR_STAT_CHFAIL h [] 15
  else
    let ch := ((ch.setFld DDR_STAT DDR_STAT_INIT_DONE h [] 1).setFld DDR_STAT DDR_STAT_DENSITY h [] dens).setReg HALF_TAG_BASE h []
      ((d - d / 64) / 4096)
    let ch := (List.range 4).foldl (fun ch c => ch.updChan h c (fun x => { x with last := v.clk })) ch
    { ch with tagc := mCut ch.tagc (h * 4096) 4096, ram := { ch.ram with
        fitted := tSet ch.ram.fitted h d, poison := mCut ch.ram.poison (h * 2 ^ 34) (2 ^ 31), sumOn := tSet ch.ram.sumOn h true, sumClr := mCut ch.ram.sumClr (h * 2 ^ 22) (2 ^ 22) } }

/-- TAG_REGION_ZEROED (R502 step 2): the stored tag bytes of the blocks still summarised are zero. -/
def tagZeroed (h : Nat) (ch : Chip) : Chip :=
  if h ≥ 2 ∨ ch.fld DDR_STAT DDR_STAT_INIT_DONE h = 0 ∨ ch.fld HALF_WIPE HALF_WIPE_TAGDONE h = 1 then ch
  else { ch.setFld HALF_WIPE HALF_WIPE_TAGDONE h [] 1 with
    ram := { ch.ram with tags := mDelIf ch.ram.tags (fun l => ch.ram.summarised (l * 64) && paHalf (l * 64) = h) } }

/-- ZERO_PASS_LINE (R502 step 3): the next line is zeroed if its colour is still 0; it waits for a channel held for retraining (R467). -/
def zeroLine (h : Nat) (v : Vig) (ch : Chip) : Chip :=
  let n := (tGet ch.half h).zeroNext
  let top := ch.ram.dramTop h
  let a := h * 2 ^ 40 + n
  if h ≥ 2 ∨ ch.fld HALF_WIPE HALF_WIPE_TAGDONE h = 0 ∨ top ≤ n ∨ ch.chanHeld v a then ch
  else
    let ch' : Chip := { ch with ram := { ch.ram.unpoison a with cells := mDelIf ch.ram.cells (fun x => x / 64 = a / 64) } }
    let ch := if ch.ram.colour a = 0 then ch' else ch
    (ch.updHalf h (fun x => { x with zeroNext := n + 64 })).setFld HALF_WIPE HALF_WIPE_PROGRESS h []
      (min 65535 ((n + 64) * 65536 / top))

/-- ZERO_PASS_DONE (R502 step 3). -/
def zeroDone (h : Nat) (ch : Chip) : Chip :=
  let top := ch.ram.dramTop h
  if h ≥ 2 ∨ top = 0 ∨ (tGet ch.half h).zeroNext < top then ch else ch.setFld HALF_WIPE HALF_WIPE_ZERODONE h [] 1

/-- The Machine trap entry of a half (R505, R507). -/
def machineTrap (h : Nat) : Cap := cpos (romCap h) (h * 2 ^ 40 + 0xC000800000 + 2048 * (Config.machineTrap % 64))

/-- BOOT_TASK_START (R507 step 1): the Machine trap entries. -/
def bootStart (h : Nat) (ch : Chip) : Chip :=
  let x := tGet ch.half h
  if h ≥ 2 ∨ x.inReset ∨ x.svcReset ∨ x.boot ≠ 0 then ch
  else
    let ch := (List.range 16).foldl (fun ch c => ch.setCapReg CLU_XVEC_MCH h [c] (machineTrap h)) ch
    (ch.setCapReg HALF_SCXVEC_MCH h [] (machineTrap h)).updHalf h (fun x => { x with boot := 1 })

/-- The image's signature is accepted (R507 step 4). -/
def Vig.imageOk (v : Vig) (img sig : List Byte) : Bool :=
  edVerify Config.imageKey.toList img sig || ((v.lc = 1 || v.lc = 2) && (match mGet? v.dbgKeys 0xFFFF with
    | some k => edVerify k img sig
    | none => false))

/-- Chandler's memory capability (R509). -/
def chandlerMem (h : Nat) : Cap := mkCap (h * 2 ^ 40) (2 ^ 40) 0x3F3F 0 (h * 2 ^ 40)

/-- Chandler's Service trap entry (R509). -/
def serviceTrap (h : Nat) (img : List Byte) : Cap :=
  let a := h * 2 ^ 40 + Config.imageTrap img % 2 ^ 40
  mkCap (h * 2 ^ 40) (2 ^ 40) 0x0105 0 a

/-- Start Chandler (R507 step 6, R509): its task and capabilities, the Machine monitor's sealing capability, and the Service
trap entries that Chandler writes; READY. -/
def Chip.startChandler (ch : Chip) (h : Nat) (img : List Byte) : Chip :=
  let b := bootTask h
  let r := Config.bootReg % 13
  let ch := (ch.wrReg b 0 Cap.null).wrReg b (r + 1) (mkCap 0xFFE 1 0x00C0 0 0xFFE)
  let pcc := cpos (chandlerMem h) (h * 2 ^ 40 + Config.imageEntry img % 2 ^ 40)
  let ch := ch.setTask (b + 1) (({ Task.reset with pcc := pcc, svc := true } : Task).putStatus 13 2 1)
  let ch := ((ch.wrReg (b + 1) r (chandlerMem h)).wrReg (b + 1) (r + 1) (mkCap 1 0xFFD 0x00C0 0 1)).wrReg (b + 1) (r + 2)
    (serviceTrap h img)
  let ch := (List.range 16).foldl (fun ch c => ch.setCapReg CLU_XVEC_SVC h [c] (serviceTrap h img)) ch
  let ch := ch.setCapReg HALF_SCXVEC_SVC h [] (serviceTrap h img)
  (ch.setFld CMD_STAT CMD_STAT_READY h [] 1).updHalf h (fun x => { x with boot := 2 })

/-- IMAGE_VERIFY (R507, R508, R559): `img` and `sig` are the Chandler image of the copy that BOOT_SRC selects. When DDR5
initialisation has failed, the boot ROM gives up 100 ms after release. -/
def imageVerify (h : Nat) (img sig : List Byte) (v : Vig) (ch : Chip) : Chip :=
  let x := tGet ch.half h
  let bad := fun (ch : Chip) => (ch.flag HALF_RSTSTAT HALF_RSTSTAT_BOOTFAIL h).updHalf h (fun x => { x with boot := 3 })
  if h ≥ 2 ∨ x.inReset ∨ x.svcReset ∨ x.boot ≠ 1 then ch
  else if ch.fld DDR_STAT DDR_STAT_INIT_DONE h = 0 then if x.since + 100000000 ≤ v.clk then bad ch else ch
  else if x.lcReset ∧ ch.fld HALF_WIPE HALF_WIPE_ZERODONE h = 0 then ch
  else if !v.imageOk img sig then bad ch
  else
    let a := h * 2 ^ 40 + alignDown (Config.firmwareAt h % (max 1 (ch.ram.dramTop h))) 4096
    ((ch.paint a (alignUp img.length 64) 1).fwWrite a img).startChandler h img

/-- A class-7 notice of R520. -/
def faultNotice (v : Vig) (ch : Chip) (id kind lost : Nat) (t : Option Nat) : List Byte :=
  leBytes 16 0 ++ leBytes 2 id ++ leBytes 2 (((ch.record id).map (·.tenant)).getD 0) ++ leBytes 4 lost ++
    leBytes 2 ((t.map (Chip.taskPath v ch)).getD 0) ++ leBytes 5 0 ++ [BitVec.ofNat 8 kind]

/-- Unbind a compartment without saving anything (R518, R519), with the notice of R520 to its supervisor. -/
def Chip.faultUnbind (v : Vig) (ch : Chip) (t kind : Nat) : Chip :=
  match (ch.task t).bound.bind ch.record with
  | none => ch.freeTask t
  | some r =>
    let n := faultNotice v ch r.id kind 0 (some t)
    ((ch.killUnbind t r).notify r.id n).repend r.id

/-- CORE_WATCHDOG (R518): a core has had a ready task, and has issued nothing, for CORE_US microseconds; a task that R173 holds is not
ready. -/
def coreWatchdog (c : CoreView) (v : Vig) (ch : Chip) : Chip :=
  let stalled := c.stalled
  let k := c.core
  let c := ch.core k
  let h := k / 256
  let us := max 1 (ch.fld CLU_WDOG CLU_WDOG_CORE_US h [k / 16 % 16])
  match mGet? ch.readyAt k with
  | none => ch
  | some t0 =>
    if k ≥ 512 ∨ c.inReset ∨ c.due.isSome ∨ (ch.clu (coreClu k)).inReset ∨ (ch.readyTasks k stalled).isEmpty ∨
        v.clk < max t0 c.lastIssue + us * 1000 then ch
    else
      let again := (c.faultAt.map (fun f => decide (v.clk < f + 1000000000))) = some true
      let ts := (ch.tasks.filter (fun e => tCore e.1 = k && e.2.bound.isSome)).map (·.1)
      let ch := ch.cnt HALF_FAULTS HALF_FAULTS_CORE h
      let ch := ts.foldl (fun ch t => ch.faultUnbind v t 3) ch
      let f := ch.fld CLU_WDOG CLU_WDOG_FAILED h [k / 16 % 16]
      let ch := if again then ch.setFld CLU_WDOG CLU_WDOG_FAILED h [k / 16 % 16] (bfSet f (k % 16) 1 1) else ch
      ch.updCore k (fun c => { c with due := some (1, v.clk), faultAt := some v.clk, failed := c.failed || again })

/-- The compartments of a cluster whose oldest enabled event waits though it could be served (R519): the compartment is
bound and yielded in WAITQ, or pending with a task free. -/
def Chip.stuckNow (ch : Chip) (c : Nat) : List (Nat × Ev) :=
  (ch.clu c).slots.filterMap (fun e =>
    let id := e.2.comp
    let mask := match ch.boundTo id with
      | some t => some (ch.task t).evmask.toNat
      | none => (ch.record id).map ch.savedMask
    match mask.bind (fun m => (ch.ringEvs c e.2).find? (fun x => tb m x.cls)) with
    | none => none
    | some ev =>
      let yielded := match ch.boundTo id with
        | some t => (match (ch.task t).wait with
          | .waitq _ _ _ => true
          | _ => false)
        | none => (ch.clu c).pend.contains id && (ch.freeTaskOf c).isSome
      if yielded then some (id, ev) else none)

/-- CLUSTER_PROBE (R519): every 10 microseconds the SCH block probes a cluster; `ok` says that it answers. -/
def clusterProbe (c : Nat) (ok : Bool) (v : Vig) (ch : Chip) : Chip :=
  let k := ch.clu c
  if c ≥ 32 ∨ k.inReset ∨ (tGet ch.half (c / 16)).inReset ∨ v.clk < k.probeAt + 10000 then ch
  else
    let now := (ch.stuckNow c).map (fun e =>
      (e.1, e.2, ((k.stuck.find? (fun o => o.1 = e.1 && o.2.1 = e.2)).map (fun o => o.2.2)).getD v.clk))
    ch.updClu c (fun k => { k with probeAt := v.clk, noAns := if ok then none else some (k.noAns.getD v.clk), stuck := now })

/-- The clusters that a compartment may be moved to (R519, R435), those from `pick` upward first. -/
def moveOrder (c pick : Nat) : List Nat :=
  ((List.range 16).map (fun i => c / 16 * 16 + (pick + i) % 16)).filter (fun d => d ≠ c)

/-- A compartment's saved state fits a cluster (R263 step 2). -/
def Chip.stateFits (ch : Chip) (r : CompRec) (d : Nat) : Bool :=
  !r.flag fSaved || (decide (bf (ch.ram.rdLe (r.saveAt + 0x2050) 4) 8 5 < ch.cluWindows d) &&
    decide (ch.ram.rdLe (r.saveAt + 0x20C0) 8 < 2 ^ (ch.cluGroups d)))

/-- A cluster of the half that takes a compartment. -/
def Chip.homeFor (ch : Chip) (r : CompRec) (c pick : Nat) : Option Nat :=
  (moveOrder c pick).find? (fun d => !(ch.clu d).inReset && (ch.clu d).due.isNone && ch.fits d r.wneed r.qlog2 && ch.stateFits r d)

/-- Place a compartment in a cluster with events (R263 steps 3 and 4). -/
def Chip.rehome (ch : Chip) (r : CompRec) (d : Nat) (evs : List Ev) : Chip :=
  match ch.placeIn d r.qlog2 with
  | none => ch
  | some p =>
    let ch := ch.takePlace d r.id r.qlog2 p evs
    ((((ch.setRec r.id 110 1 (d % 16)).setRec r.id 111 1 (p.1 / 256)).setRec r.id 112 1 (p.1 % 256)).setFlag r.id fMoving
      false).repend r.id

/-- Empty one compartment out of a faulty cluster (R519 step 2): a bound one starts fresh; its events come with it when the
local memory answers, and are otherwise lost. One that no cluster takes stays paused. A move under way ends with it. -/
def Chip.evacuate (v : Vig) (c pick : Nat) (answers : Bool) (ch : Chip) (r : CompRec) : Chip :=
  let evs := ch.queued r
  let t := ch.boundTo r.id
  let ch := match t with
    | some t => ch.killUnbind t r
    | none => ch
  let ch := ch.updClu c (fun k =>
    { k with slots := mDelIf k.slots (fun i => i = r.qslot && r.qlog2 ≠ 0), pend := k.pend.filter (· ≠ r.id) })
  let r := (ch.record r.id).getD r
  let home := ch.homeFor r c pick
  let keep := if answers && home.isSome then evs else []
  let n := faultNotice v ch r.id 4 (evs.length - keep.length) t
  let ch := match home with
    | some d => ch.rehome r d keep
    | none => ch.setFlag r.id fMoving true
  let ch := match mGet? ch.moves r.id with
    | some m => ({ ch with moves := mDel ch.moves r.id, moveEnds := ch.moveEnds ++
        (if m.2 = 0 then [] else [(m.2 - 1, b2n home.isSome)]) } : Chip)
    | none => ch
  ch.notify r.id n

/-- CLUSTER_WATCHDOG (R519): no answer, or no dispatch, for CLU_US microseconds. `answers` says that the cluster's local
memory answers within 20 microseconds; `pick` is where the search for a place begins. -/
def clusterWatchdog (c : Nat) (answers : Bool) (pick : Nat) (v : Vig) (ch : Chip) : Chip :=
  let k := ch.clu c
  let lim := 1000 * max 20 (ch.fld HALF_WDOG HALF_WDOG_CLU_US (c / 16))
  let silent := (k.noAns.map (fun t => decide (t + lim ≤ v.clk))) = some true
  let stuck := k.stuck.any (fun e => decide (e.2.2 + lim ≤ v.clk))
  if c ≥ 32 ∨ k.inReset ∨ k.due.isSome ∨ !(silent || stuck) then ch
  else
    let ch := ch.cnt HALF_FAULTS HALF_FAULTS_CLUSTER (c / 16)
    let ch := (ch.compsOf c).foldl (Chip.evacuate v c pick answers) ch
    ch.updClu c (fun k => { k with due := some (1, v.clk), slots := [], pend := [], outb := [], noAns := none, stuck := [] })

/-- SWDOG_EXPIRY (R523): PERIOD_MS milliseconds without a kick: a service-core reset; a second time within a second of the first,
a half reset. -/
def swdogExpiry (h : Nat) (v : Vig) (ch : Chip) : Chip :=
  let x := tGet ch.half h
  let ms := max 1 (ch.fld HALF_SWDOG HALF_SWDOG_PERIOD_MS h)
  if h ≥ 2 ∨ x.inReset ∨ x.svcDue ∨ x.due.isSome ∨ v.clk < x.kick + ms * 1000000 then ch
  else
    let again := (x.swFirst.map (fun f => decide (v.clk ≤ f + 1000000000))) = some true
    (ch.cnt HALF_SWDOG HALF_SWDOG_EXPIRIES h).updHalf h (fun x =>
      if again then { x with due := some 4, kick := v.clk } else { x with svcDue := true, swFirst := some v.clk, kick := v.clk })

/-- HALF_SWDOG.KICK is written with 1 (R523, R528). -/
def swdogKick (h : Nat) (v : Vig) (ch : Chip) : Chip :=
  if h ≥ 2 ∨ (tGet ch.half h).inReset then ch else ch.updHalf h (fun x => { x with kick := v.clk })

/-- THERMAL_TRIP (R524): 128 degrees C for 10 microseconds: the device yields, and both halves are held in reset. -/
def thermalTrip (v : Vig) (ch : Chip) : Vig × Chip :=
  let hot := fun (h : Nat) => ((tGet ch.bg h).hot.map (fun t => decide (t + 10000 ≤ v.clk))) = some true
  if v.trip ∨ v.resetN ∨ !(hot 0 || hot 1) then (v, ch)
  else halfReset 1 5 true (halfReset 0 5 true (yieldFor 4 0xFF { v with trip := true } ch))

/-- POWER_ON_RESET. -/
def execPowerOnReset (torn : Option Nat) (s : State) : Out := bothStep (fun v ch => deviceReset 0 torn v ch) s
/-- RESET_N. -/
def execResetN (torn : Option Nat) (s : State) : Out := bothStep (fun v ch => deviceReset 1 torn v ch) s
/-- HALF_RESET. -/
def execHalfReset (h : Nat) (s : State) : Out := bothStep (halfResetRow h) s
/-- SERVICE_CORE_RESET. -/
def execServiceCoreReset (h : Nat) (s : State) : Out := chipStep (fun _ ch => serviceReset h ch) s
/-- CLUSTER_RESET. -/
def execClusterReset (c : Nat) (dirty : List Nat) (s : State) : Out := chipStep (clusterReset c dirty) s
/-- CORE_RESET. -/
def execCoreReset (k : Nat) (s : State) : Out := chipStep (coreReset k) s
/-- RESET_RELEASE. -/
def execResetRelease (kind i straps : Nat) (s : State) : Out := bothStep (resetRelease kind i straps) s
/-- DDR_INIT_DONE. -/
def execDdrInitDone (h dens fail : Nat) (s : State) : Out := chipStep (ddrInit h dens fail) s
/-- TAG_REGION_ZEROED. -/
def execTagRegionZeroed (h : Nat) (s : State) : Out := chipStep (fun _ ch => tagZeroed h ch) s
/-- ZERO_PASS_LINE. -/
def execZeroPassLine (h : Nat) (s : State) : Out := chipStep (zeroLine h) s
/-- ZERO_PASS_DONE. -/
def execZeroPassDone (h : Nat) (s : State) : Out := chipStep (fun _ ch => zeroDone h ch) s
/-- SUMMARY_BLOCK_FIRST_WRITE (R503): the block of address `a` is opened. -/
def execSummaryBlockFirstWrite (a : Nat) (s : State) : Out := chipStep (fun _ ch => { ch with ram := ch.ram.openBlock a }) s
/-- BOOT_TASK_START. -/
def execBootTaskStart (h : Nat) (s : State) : Out := chipStep (fun _ ch => bootStart h ch) s
/-- IMAGE_VERIFY. -/
def execImageVerify (h : Nat) (img sig : List Byte) (s : State) : Out := chipStep (imageVerify h img sig) s
/-- CORE_WATCHDOG. -/
def execCoreWatchdog (v : CoreView) (s : State) : Out := chipStep (coreWatchdog v) s
/-- CLUSTER_PROBE. -/
def execClusterProbe (c : Nat) (ok : Bool) (s : State) : Out := chipStep (clusterProbe c ok) s
/-- CLUSTER_WATCHDOG. -/
def execClusterWatchdog (c : Nat) (answers : Bool) (pick : Nat) (s : State) : Out := chipStep (clusterWatchdog c answers pick) s
/-- SWDOG_EXPIRY. -/
def execSwdogExpiry (h : Nat) (s : State) : Out := chipStep (swdogExpiry h) s
/-- SWDOG_KICK. -/
def execSwdogKick (h : Nat) (s : State) : Out := chipStep (swdogKick h) s
/-- THERMAL_TRIP. -/
def execThermalTrip (s : State) : Out := bothStep thermalTrip s

end Sys2Proof.Machine
end

