-- ==== Sys2Proof/Machine/RegAccess.lean ====
section
/-! DEFINITION. Reading and writing the control blocks (R8, R267, R268): what each register shows, what a read clears, what a
write does beside setting its fields, and the tables that lie in the blocks. -/

namespace Sys2Proof.Machine

/-- Two register descriptions are of one register. -/
def RegD.is (d e : RegD) : Bool := d.base = e.base

/-- The register instance that holds the byte at a local address, and the byte's place in it. -/
def regHit (la : Nat) : Option (RegD × List Nat × Nat) :=
  [4, 8, 16].findSome? (fun k =>
    match regAt (alignDown la k) with
    | some (d, ix) => if d.bytes = k then some (d, ix, la % k) else none
    | none => none)

/-- The tasks of a core that are halted, as DBG_CORE_HALT shows them (R546). -/
def Chip.haltedBits (ch : Chip) (k : Nat) : Nat :=
  ch.tasks.foldl (fun n e => if tCore e.1 = k && e.2.halted then n + 2 ^ tNum e.1 else n) 0

/-- The core that a master ID of a half names (R310), cluster cores and the service core. -/
def masterCore (h m : Nat) : Nat := if m = 0x100 then 512 + h else h * 256 + m % 256

/-- CORE_VCTX and CORE_VMARK of a core (R214): a value of each held or marked context. -/
def CoreSt.ctxSum (k : CoreSt) (f : Nat → VCtx → Nat) : Nat := (List.range 4).foldl (fun n c => n + f c (k.ctx c)) 0

/-- CORE_VCTX (R214). -/
def CoreSt.vctxReg (k : CoreSt) : Nat :=
  k.ctxSum (fun c x => match x.owner with
    | some t => t % 64 * 2 ^ (6 * c) + 2 ^ (24 + c)
    | none => 0)

/-- CORE_VMARK (R214). -/
def CoreSt.vmarkReg (k : CoreSt) : Nat := k.ctxSum (fun c x => b2n x.dirty * 2 ^ c + b2n x.zero * 2 ^ (4 + c))

/-- SCH_QSTAT of a cluster (R264): the slot that SCH_QSEL selects. -/
def Chip.qstat (ch : Chip) (c : Nat) : Nat :=
  match mGet? (ch.clu c).slots (ch.fld SCH_QSEL SCH_QSEL_SLOT (c / 16) [c % 16]) with
  | some s => s.ents.length + s.qlog2 * 2 ^ 13 + 2 ^ 17 + b2n (ch.boundTo s.comp).isSome * 2 ^ 19
  | none => 0

/-- BG_CALSTAT of a half (R494) over its stored count. -/
def Chip.calstat (ch : Chip) (h : Nat) : Nat :=
  let one := fun (c : Nat) =>
    match mGet? (tGet ch.bg h).chans c with
    | some x => b2n (x.due.isSome && !x.running) * 2 ^ c + b2n x.running * 2 ^ (4 + c) + b2n (decide (x.fails ≥ 3)) * 2 ^ (8 + c)
    | none => 0
  bfSet (ch.reg BG_CALSTAT h []) 0 12 ((List.range 4).foldl (fun n c => n + one c) 0)

/-- The share of a tenant's pages on a half that a sweep has visited, in 1/65,536 (R494). -/
def Chip.sweepProgress (ch : Chip) (h : Nat) (s : Sweep) (w : Visit) : Nat :=
  let pages := (List.range (ch.ram.dramTop h / 4096)).filter (fun p => ch.pageOwner (h * 2 ^ 40 + 4096 * p) = some s.tenant)
  let seen := pages.filter (fun p => 4096 * (p + 1) ≤ w.page)
  if pages.isEmpty then 0 else min 65535 (seen.length * 65536 / pages.length)

/-- BG_SNFSTAT of a half (R494). -/
def Chip.snfstat (ch : Chip) (h : Nat) : Nat :=
  match ch.sweep with
  | none => 0
  | some s =>
    let w := if h = 0 then s.v0 else s.v1
    let o := if h = 0 then s.v1 else s.v0
    1 + b2n (w.done && (!o.done || !ch.wickUp h)) * 2 + s.tenant * 16 + ch.sweepProgress h s w * 2 ^ 16

/-- BG_CLKC of a cluster (R494): bit 25, which keeps a written 0 apart from the ceiling, is not shown. -/
def Chip.clkc (ch : Chip) (h i : Nat) : Nat :=
  let r := ch.reg BG_CLKC h [i]
  let cap := if bf r 0 12 = 0 ∧ !tb r 25 then Config.ceilingMHz else bf r 0 12
  cap + (ch.clu (h * 16 + i)).freq * 2 ^ 12 + b2n (decide ((ch.isl (h * 16 + i)).cool ≠ 0)) * 2 ^ 24

/-- BG_FLASH (R494): the flash belongs to the Vigil island; half 1 shows zero (log 69). -/
def Vig.flashReg (v : Vig) (h : Nat) : Nat :=
  if h = 0 then v.retries + min 65535 (v.erases.foldl (fun n e => if 2 ≤ e.1 then max n e.2 else n) 0) * 2 ^ 16 else 0

/-- DBG_STAT of a half (R546). -/
def Chip.dbgStat (ch : Chip) (v : Vig) (h : Nat) : Nat :=
  let n := (ch.tasks.filter (fun e => tHalf e.1 = h && e.2.halted)).length
  (match v.session with
    | some s => s.kind + (if s.kind = 2 then s.scope % 4096 * 4 else 0)
    | none => 0) + min 255 n * 2 ^ 14

/-- The registers of the Vigil island, which both halves show (R392, R393, R416, R528, R574); half 1's LDG block is zero. -/
def Vig.regView (v : Vig) (ch : Chip) (h : Nat) (d : RegD) (ix : List Nat) : Option Nat :=
  let p := v.pair
  let m := ix.headD 0
  if d.is MTR_STAT then some v.parity
  else if d.is MTR_CNT then some (mGet v.banks (((h * 2 + v.parity) * 4096 + m) * 24 + ix.getLastD 0) 0 % 2 ^ 64)
  else if d.is LDG_CTRL then some (if h = 0 then v.signMode + v.csWait * 2 ^ 8 else 0)
  else if d.is LDG_STAT then some (if h = 0 then v.ldgStatus else 0)
  else if d.is LDG_SEQ_LO then some (if h = 0 then v.seq % 2 ^ 32 else 0)
  else if d.is LDG_SEQ_HI then some (if h = 0 then bf v.seq 32 32 else 0)
  else if d.is LDG_KEYGEN then some (if h = 0 then v.entries else 0)
  else if d.is VIG_TSTAT then some v.tstat
  else if d.is VIG_LC then some (v.lc + v.entries * 2 ^ 4 + b2n v.lcNext.isSome * 2 ^ 7)
  else if d.is VIG_STRAP then some (v.straps % 8)
  else if d.is MIR_CTRL then
    some (ch.fld MIR_CTRL MIR_CTRL_ENABLE h + p.failMode * 2 + p.autoResync * 4 + p.fallback * 2 ^ 16)
  else if d.is MIR_STAT then some (mirStat v ch h)
  else if d.is MIR_EPOCH then some p.epoch
  else if d.is MIR_PAIRID then some p.pairId
  else if d.is MIR_CFGTAG then some p.cfgTag
  else if d.is MIR_ERR then some p.err
  else if d.is MIR_TKTYPE then some p.tkType
  else if d.is MIR_TKDA_LO then some (p.tkDa % 2 ^ 32)
  else if d.is MIR_TKDA_HI then some (bf p.tkDa 32 16)
  else if d.is BG_FLASH then some (v.flashReg h)
  else if d.is DBG_STAT then some (ch.dbgStat v h)
  else none

/-- The registers that show other state of their half. -/
def Chip.regShow (ch : Chip) (h : Nat) (d : RegD) (ix : List Nat) : Option Nat :=
  let m := ix.headD 0
  let c := h * 16 + m
  let k := h * 256 + m * 16 + ix.getLastD 0
  if d.is WCK_STATUS then some (ch.wckStatus h)
  else if d.is CLU_TASKCFG then some ((ch.clu c).tcfg + ch.cluWindows c * 4)
  else if d.is CORE_VCTX then some (ch.core k).vctxReg
  else if d.is CORE_VMARK then some (ch.core k).vmarkReg
  else if d.is CORE_VRECLAIM then some (ch.core k).vreclaims
  else if d.is SCH_QSTAT then some (ch.qstat c)
  else if d.is SCH_QFREE then some (1024 - (ch.clu c).slots.length + ch.areaFree c * 2 ^ 16)
  else if d.is XLT_ADREQ_LO then some (ch.adreqLo h)
  else if d.is XLT_ADREQ_HI then some (ch.adreqHi h)
  else if d.is GRD_HSTAT then some (ch.grdHstat h)
  else if d.is FLW_PGCTRL then some (tGet ch.flow h).bank
  else if d.is BG_CALSTAT then some (ch.calstat h)
  else if d.is BG_SNFSTAT then some (ch.snfstat h)
  else if d.is BG_CLKC then some (ch.clkc h m)
  else if d.is DBG_CORE_HALT then some (ch.haltedBits (masterCore h m))
  else if d.is ETH_PSTAT then some (bfSet (ch.reg ETH_PSTAT h [m]) 0 1 (b2n (ch.portCfg (h * 8 + m))))
  else none

/-- The interrupts of a half to its service core, as the blocks of this specification assert them: DMA while any DONE or HALTED bit
is 1 (R306), A/D while a request is pending in XLT_ADREQ (R298), guard while a GRD_VINFO is VALID (R320). -/
structure SvcLines where
  dma : Bool
  ad : Bool
  guard : Bool
deriving DecidableEq, Repr

/-- The interrupt lines of half `h` to its service core. -/
def Chip.svcLines (ch : Chip) (h : Nat) : SvcLines :=
  ⟨ch.fld HALF_DMA_STAT HALF_DMA_STAT_DONE h ≠ 0 || ch.fld HALF_DMA_STAT HALF_DMA_STAT_HALTED h ≠ 0, (ch.adHead h).isSome,
    ch.grdHstat h ≠ 0⟩

/-- The value a read of a register returns (R8): a write-only field reads as zero, which its stored value is. -/
def regRead (s : Vig × Chip) (h : Nat) (d : RegD) (ix : List Nat) : Nat :=
  match s.1.regView s.2 h d ix with
  | some n => n
  | none => (s.2.regShow h d ix).getD (s.2.reg d h ix)

/-- A read of a register has been made: the fields that reading clears are zero (R8). -/
def regReadDone (s : Vig × Chip) (h : Nat) (d : RegD) (ix : List Nat) : Vig × Chip :=
  let k := h * 256 + ix.headD 0 * 16 + ix.getLastD 0
  if d.is CORE_VRECLAIM then (s.1, s.2.updCore k (fun c => { c with vreclaims := 0 }))
  else if d.is XLT_ADREQ_HI then (s.1, s.2.adTake h)
  else if d.is VIG_TSTAT then ({ s.1 with toderr := 0 }, s.2)
  else if d.is BG_FLASH then (if h = 0 then { s.1 with retries := 0 } else s.1, s.2)
  else (s.1, d.flds.foldl (fun c f => if f.clr then c.setFld d f h ix 0 else c) s.2)

/-- A register's fields after a write of `x` to the bits of `m` (R8). -/
def fldsWrite (flds : List Fld) (old x m : Nat) : Nat :=
  flds.foldl (fun n f =>
    let new := bf x f.lo f.w &&& bf m f.lo f.w
    let keep := bf n f.lo f.w &&& (2 ^ f.w - 1 - bf m f.lo f.w)
    match f.acc with
    | .rw => bfSet n f.lo f.w (keep ||| new)
    | .w1c => bfSet n f.lo f.w (bf n f.lo f.w &&& (2 ^ f.w - 1 - new))
    | _ => n) old

/-- The compartments of a cluster that wait for a queue slot take one, in ascending ID (R435). -/
def Chip.replaceWaiting (ch : Chip) (c : Nat) : Chip :=
  (ch.compsOf c).foldl (fun s r =>
    let held := (((mGet? (s.clu c).slots r.qslot).map (fun x => decide (x.comp = r.id))) = some true)
    let waits := if r.qlog2 = 0 then r.flag fMoving && (mGet? s.moves r.id).isNone else !held
    if waits then s.rehome r c [] else s) ch

/-- A quad of Ethernet lanes changes its mode (R562): every frame queued on its ports is dropped and counted, and its ports
come up anew. -/
def Chip.quadChange (ch : Chip) (h q : Nat) : Chip :=
  (List.range 4).foldl (fun c i =>
    let p := 4 * q + i
    let fr := mGet (tGet c.flow h).egress p []
    let c := c.cnt ETH_TXDROP ETH_TXDROP_COUNT h [p] fr.length
    let c := fr.foldl (fun c e => c.releaseOf e.run) c
    (c.updFlow h (fun f => { f with egress := mDel f.egress p })).setFld ETH_PSTAT ETH_PSTAT_UP h [p] 0) ch

/-- ETH_CFG is written (R550, R562): a compute half ignores it. -/
def ethCfgWrite (h x : Nat) (v : Vig) (ch : Chip) : Chip :=
  if h ≥ 2 ∨ v.compute h then ch
  else
    let old := ch.reg ETH_CFG h []
    let new := x &&& 0xFFFF0F
    let ch := if bf old 0 2 = bf new 0 2 then ch else ch.quadChange h 0
    let ch := if bf old 2 2 = bf new 2 2 then ch else ch.quadChange h 1
    ch.setReg ETH_CFG h [] new

/-- BG_MODE is written (R464, R472, R494): each function that changes takes its mode as MODE_SET gives it. -/
def Chip.bgModeWrite (ch : Chip) (h x : Nat) : Chip :=
  let old := ch.reg BG_MODE h []
  [(0, 3), (1, 6), (2, 7), (3, 9)].foldl (fun c (e : Nat × Nat) =>
    if tb old e.1 = tb x e.1 then c else setModeOn e.2 (tb x e.1) false c h) ch

/-- A write to a register that the Vigil island shows (R391 to R393, R399, R416); the others of them are read-only. -/
def vigWrite (h : Nat) (d : RegD) (new : Nat) (s : Vig × Chip) : Vig × Chip :=
  let v := s.1
  if d.is LDG_CTRL then if h = 0 then ({ v with signMode := bf new 0 1, csWait := bf new 8 8 }, s.2) else s
  else if d.is LDG_STAT then if h = 0 then ({ v with ldgStat := bfSet new 0 1 0 }, s.2) else s
  else if d.is MIR_CTRL then
    decideTake (v.updPair (fun p => { p with failMode := bf new 1 1, autoResync := bf new 2 1, fallback := bf new 16 16 }),
      s.2.setReg MIR_CTRL h [] (bf new 0 1))
  else if d.is MIR_CFGTAG then setCfgTag new s
  else if d.is MIR_ERR then (v.updPair (fun p => { p with err := new }), s.2)
  else if d.is MIR_TKTYPE then (v.updPair (fun p => { p with tkType := new }), s.2)
  else if d.is MIR_TKDA_LO then (v.updPair (fun p => { p with tkDa := bfSet p.tkDa 0 32 new }), s.2)
  else if d.is MIR_TKDA_HI then (v.updPair (fun p => { p with tkDa := bfSet p.tkDa 32 16 new }), s.2)
  else s

/-- GRD_KEY of guard 0x103 is writable in BLANK, PROVISION and DEVELOP only (R323). -/
def keyLocked (v : Vig) (d : RegD) (ix : List Nat) : Bool := d.is GRD_KEY && ix.headD 0 = 0x103 && decide (v.lc ≥ 3)

/-- Write `x` to the bits `m` of a register (R8) of at most 8 bytes. -/
def regWrite (h : Nat) (d : RegD) (ix : List Nat) (x m : Nat) (s : Vig × Chip) : Vig × Chip :=
  let v := s.1
  let ch := s.2
  let i := ix.headD 0
  let c := h * 16 + i
  let y := x &&& m
  let new := fldsWrite d.flds (ch.reg d h ix) x m
  let on := fun (c : Chip) => (v, c)
  match v.regView ch h d ix with
  | some old => vigWrite h d (fldsWrite d.flds old x m) s
  | none =>
    if keyLocked v d ix then s
    else if d.is WCK_CTRL then
      let ch1 := ch.setFld WCK_CTRL WCK_CTRL_PKT_SHARE h [] (bf new 4 4)
      let ch1 := if bf new 0 1 = ch.fld WCK_CTRL WCK_CTRL_ENABLE h then ch1 else ch1.wickEnable v h (tb new 0)
      on (if tb y 1 then wickRetrainWrite h v ch1 else ch1)
    else if d.is HALF_DMA_CTRL then
      let ch := if tb y 0 then dmaResume h i ch else ch
      on (if tb y 1 then dmaAbort h i ch else ch)
    else if d.is HALF_DMA_TAIL then on (dmaTailWrite h i new ch)
    else if d.is XLT_ADACK then on (if bf m 0 6 = 0 then ch else ch.adAck h (bf y 0 6))
    else if d.is GRD_VINFO then on (if tb y 0 then ch.clearViolation h i else ch)
    else if d.is GRD_SLOT then on (ch.setReg d h ix (if bf new 4 2 = 3 then bfSet new 4 2 2 else new))
    else if d.is SCH_EVAREA then on (if (ch.clu c).slots.isEmpty then (ch.setReg d h ix new).replaceWaiting c else ch)
    else if d.is FLW_TBL ∨ d.is FLW_TBASE ∨ d.is FLW_HASHSEED then on (if ch.tableUsed h then ch else ch.setReg d h ix new)
    else if d.is FLW_PGCTRL then on (if tb y 1 then parseGraphSwap h ch else ch)
    else if d.is MTR_POLCFG ∨ d.is MTR_POLBURST then on (policerWrite h i (ix.getLastD 0) (d.is MTR_POLBURST) new v ch)
    else if d.is CMD_Q0CFG then on (q0Enable h new ch)
    else if d.is CMD_RINGH then on (ch.ringHead h i (bf y 0 16))
    else if d.is CMD_SQT then on (sqDoorbell h i (bf y 0 16) ch)
    else if d.is CMD_CQH then on (cqDoorbell h i (bf y 0 16) ch)
    else if d.is ETH_CFG then on (ethCfgWrite h new v ch)
    else if d.is BG_MODE then on (ch.bgModeWrite h new)
    else if d.is BG_TRIM then
      let ch := ch.setReg d h ix new
      on (if ch.fld BG_MODE BG_MODE_SCRUB h = 1 then ch.setLevel h (ch.hostLevel h) else ch)
    else if d.is BG_CLKC then
      let cap := if bf m 0 12 = 0 then ch.reg d h ix else bf new 0 12 + 2 ^ 25
      on (if ch.fld BG_MODE BG_MODE_CLOCK h = 0 then ch else ch.setReg d h ix cap)
    else if d.is HALF_SWDOG then
      let ch := ch.setReg d h ix new
      on (if tb y 16 then swdogKick h v ch else ch)
    else on (ch.setReg d h ix new)

/-- Write a capability-width register (R237, R268): `cap` is a whole capability store, and any other write clears the tag. The
Machine trap entries are written from Machine privilege only. -/
def capRegWrite (mach : Bool) (h : Nat) (d : RegD) (ix : List Nat) (x m : Nat) (tag : Bool) (ch : Chip) : Chip :=
  if (d.is CLU_XVEC_MCH ∨ d.is HALF_SCXVEC_MCH) ∧ !mach then ch
  else
    let old := (ch.capReg d h ix).bits.toNat
    ch.setCapReg d h ix ⟨tag, BitVec.ofNat 128 ((old &&& (2 ^ 128 - 1 - m)) ||| (x &&& m))⟩

/-- A byte of the tables in the control blocks: the boot ROM (R505), the nodes of the inactive bank, templates and rules
(R328, R331, R337, R343), the MSI-X table and pending bits (R454); any other offset reads as zero (R267). -/
def Chip.tableByte (ch : Chip) (h la : Nat) : Byte :=
  let f := tGet ch.flow h
  let a := tGet ch.adrus h
  let ofN := fun (n o : Nat) => BitVec.ofNat 8 (n >>> (8 * o))
  if 0xC000800000 ≤ la ∧ la < 0xC000820000 then ofN (Config.bootRom ((la - 0xC000800000) / 4)).toNat (la % 4)
  else if 0xC009010000 ≤ la ∧ la < 0xC009011000 then
    (mGet f.nodes ((1 - f.bank) * 64 + (la - 0xC009010000) / 64) []).getD (la % 64) 0
  else if 0xC009040000 ≤ la ∧ la < 0xC009080000 then (mGet f.tpls ((la - 0xC009040000) / 64) []).getD (la % 64) 0
  else if 0xC009800000 ≤ la ∧ la < 0xC00A000000 then (mGet f.rules ((la - 0xC009800000) / 128) []).getD (la % 128) 0
  else if 0xC008008000 ≤ la ∧ la < 0xC008008400 then ofN (a.msixWord ((la - 0xC008008000) / 4)) (la % 4)
  else if 0xC008009000 ≤ la ∧ la < 0xC008009008 then ofN a.pba (la % 8)
  else 0

/-- An entry of `n` bytes of a table with one byte replaced. -/
def tblSet (t : NMap (List Byte)) (i n o : Nat) (b : Byte) : NMap (List Byte) := mSet t i (spliceB (sliceB (mGet t i []) 0 n) o [b])

/-- Write a byte of the MSI-X table (R454). -/
def Adrus.msixByte (a : Adrus) (o : Nat) (b : Byte) : Adrus :=
  { a with msix := mSet a.msix (o / 4) (bfSet (a.msixWord (o / 4)) (8 * (o % 4)) 8 b.toNat) }

/-- The vectors that are pending and no longer masked are signalled (R454). -/
def Chip.msixFlush (ch : Chip) (h : Nat) : Chip :=
  (List.range 64).foldl (fun c i =>
    let a := tGet c.adrus h
    if tb a.pba i && !tb (a.msixWord (4 * i + 3)) 0 then
      (c.updAdrus h (fun x => { x with pba := bfSet x.pba i 1 0 })).msixSignal h i
    else c) ch

/-- Write a byte of the tables in the control blocks; any other offset ignores it (R267). -/
def Chip.tableWrite (ch : Chip) (h la : Nat) (b : Byte) : Chip :=
  if 0xC009010000 ≤ la ∧ la < 0xC009011000 then
    ch.updFlow h (fun f => { f with nodes := tblSet f.nodes ((1 - f.bank) * 64 + (la - 0xC009010000) / 64) 64 (la % 64) b })
  else if 0xC009040000 ≤ la ∧ la < 0xC009080000 then
    ch.updFlow h (fun f => { f with tpls := tblSet f.tpls ((la - 0xC009040000) / 64) 64 (la % 64) b })
  else if 0xC009800000 ≤ la ∧ la < 0xC00A000000 then
    ch.updFlow h (fun f => { f with rules := tblSet f.rules ((la - 0xC009800000) / 128) 128 (la % 128) b })
  else if 0xC008008000 ≤ la ∧ la < 0xC008008400 then ch.updAdrus h (fun a => a.msixByte (la - 0xC008008000) b)
  else ch

/-- A byte of a control block. -/
def csrByte (s : Vig × Chip) (pa : Nat) : Byte :=
  match regHit (paLocal pa) with
  | some (d, ix, o) =>
    let n := if d.bytes = 16 then (s.2.capReg d (paHalf pa) ix).bits.toNat else regRead s (paHalf pa) d ix
    BitVec.ofNat 8 (n >>> (8 * o))
  | none => s.2.tableByte (paHalf pa) (paLocal pa)

/-- The registers that `n` bytes at an address touch, lowest first: the address each begins at. -/
def regsIn (pa n : Nat) : List (Nat × RegD × List Nat) :=
  ((List.range n).filterMap (fun i => (regHit (paLocal (pa + i))).map (fun r => (pa + i - r.2.2, r.1, r.2.1)))).eraseDups

/-- Read `n` bytes of a control block (R8, R267): every register touched is read once. -/
def csrRead (pa n : Nat) (s : Vig × Chip) : List Byte × (Vig × Chip) :=
  let d := (List.range n).map (fun i => csrByte s (pa + i))
  (d, (regsIn pa n).foldl (fun s r => if r.2.1.bytes = 16 then s else regReadDone s (paHalf pa) r.2.1 r.2.2) s)

/-- The tag that a 16-byte capability load of a control block returns (R268). -/
def csrTag (s : Vig × Chip) (pa : Nat) : Bool :=
  match regHit (paLocal pa) with
  | some (d, ix, 0) => if d.bytes = 16 then (s.2.capReg d (paHalf pa) ix).tag else false
  | _ => false

/-- The bytes `d` at `pa`, as a number over the bytes of a register that begins at `a`, and the bits they cover. -/
def regBits (a n pa : Nat) (d : List Byte) : Nat × Nat :=
  (List.range n).foldl (fun (r : Nat × Nat) i =>
    if pa ≤ a + i ∧ a + i < pa + d.length then
      (r.1 + (d.getD (a + i - pa) 0).toNat * 2 ^ (8 * i), r.2 + 255 * 2 ^ (8 * i))
    else r) (0, 0)

/-- Write bytes to a control block (R8, R267, R268): every register touched is written once, then the tables. `mach` says that
the writer is at Machine privilege, `cap` that it is a capability store of a tagged value. -/
def csrWrite (mach : Bool) (pa : Nat) (d : List Byte) (cap : Bool) (s : Vig × Chip) : Vig × Chip :=
  let h := paHalf pa
  let s := (regsIn pa d.length).foldl (fun s r =>
    let b := regBits r.1 r.2.1.bytes pa d
    if r.2.1.bytes = 16 then (s.1, capRegWrite mach h r.2.1 r.2.2 b.1 b.2 (cap && b.2 = 2 ^ 128 - 1) s.2)
    else regWrite h r.2.1 r.2.2 b.1 b.2 s) s
  let ch := ((List.range d.length).zip d).foldl (fun (c : Chip) e =>
    match regHit (paLocal (pa + e.1)) with
    | some _ => c
    | none => c.tableWrite h (paLocal (pa + e.1)) e.2) s.2
  (s.1, if (0xC008008000 ≤ paLocal pa ∧ paLocal pa < 0xC008008400) then ch.msixFlush h else ch)

/-- The half that a control block address names is out of reset, or the block is the Vigil island's (R17, R495). -/
def Chip.csrUp (ch : Chip) (pa : Nat) : Bool :=
  !(tGet ch.half (paHalf pa)).inReset || (0xC00A000000 ≤ paLocal pa && decide (paLocal pa < 0xC00D000000))

/-- A piece cut at line boundaries: address and length of each part. -/
def lineParts (p : Piece) : List (Nat × Nat) :=
  (linesOf p).map (fun l => (max l p.pa, min (l + 64) (p.pa + p.len) - max l p.pa))

/-- Read the parts of an access of a master that is no core, lowest first: data without tags (R67). -/
def busGet (ps : List (Nat × Nat)) (s : Vig × Chip) : List Byte × (Vig × Chip) :=
  ps.foldl (fun (a : List Byte × (Vig × Chip)) p =>
    if (a.2.2.ram.region p.1).isCsr then
      let r := csrRead p.1 p.2 a.2
      (a.1 ++ r.1, r.2)
    else (a.1 ++ a.2.2.loadBytes [⟨p.1, p.2, false, 0⟩], (a.2.1, a.2.2.busTouch a.2.1 false p.1 p.2))) ([], s)

/-- The access touches a line that cannot be read (R79). -/
def Chip.partsBad (ch : Chip) (ps : List (Nat × Nat)) : Bool :=
  ps.any (fun p => !(ch.ram.region p.1).isCsr && ch.lineBad p.1)

/-- Write the parts of an access of a master that is no core, lowest first: tags are cleared (R46, R67), and the hand-back
window takes no such store (R350). -/
def busPut (ps : List (Nat × Nat)) (d : List Byte) (s : Vig × Chip) : Vig × Chip :=
  (ps.foldl (fun (a : List Byte × (Vig × Chip)) p =>
    let b := a.1.take p.2
    let t : Vig × Chip :=
      if (a.2.2.ram.region p.1).isCsr then csrWrite false p.1 b false a.2
      else if (hbPort p.1).isSome then (a.2.1, a.2.2.cnt FLW_HB_REFUSED FLW_HB_REFUSED_COUNT (paHalf p.1))
      else
        let ch := a.2.2.busTouch a.2.1 true p.1 p.2
        (a.2.1, { ch with ram := ch.ram.write p.1 b })
    (a.1.drop p.2, t)) (d, s)).2

/-- REGISTER_WRITE (R8): a master writes the register that begins at `pa`. -/
def registerWrite (pa x : Nat) (mach : Bool) (s : Vig × Chip) : Vig × Chip :=
  match regHit (paLocal pa) with
  | some (d, _, 0) =>
    if !(s.2.ram.region pa).isCsr ∨ !s.2.csrUp pa then s else csrWrite mach pa (leBytes d.bytes x) false s
  | _ => s

/-- COUNTER_READ_CLEAR (R8, R364): a master reads the register that begins at `pa`. -/
def counterRead (pa : Nat) (s : Vig × Chip) : Vig × Chip :=
  match regHit (paLocal pa) with
  | some (d, _, 0) => if !(s.2.ram.region pa).isCsr ∨ !s.2.csrUp pa then s else (csrRead pa d.bytes s).2
  | _ => s

/-- REGISTER_WRITE. -/
def execRegisterWrite (pa x : Nat) (mach : Bool) (s : State) : Out := bothStep (fun v ch => registerWrite pa x mach (v, ch)) s
/-- COUNTER_READ_CLEAR. -/
def execCounterReadClear (pa : Nat) (s : State) : Out := bothStep (fun v ch => counterRead pa (v, ch)) s
/-- ETH_QMODE_WRITE. -/
def execEthQmodeWrite (h x : Nat) (s : State) : Out :=
  chipStep (fun v ch => if h < 2 ∧ !(tGet ch.half h).inReset then ethCfgWrite h x v ch else ch) s

end Sys2Proof.Machine
end

