-- ==== Sys2Proof/Machine/Vector.lean ====
section
/-! DEFINITION. The vector instructions (R194 to R213): contexts, arithmetic, and vector memory operations at issue. -/

namespace Sys2Proof.Machine

/-- The element width in bits (R200). -/
def vEw (w : Nat) : Nat := 8 * 2 ^ bf w 8 2
/-- The number of elements of an operand (R200). -/
def vCap (w : Nat) : Nat := 128 * vGrp w / vEw w
/-- The active count (R201). -/
def Task.active (x : Task) (w : Nat) : Nat := min (bf x.vl.toNat 0 7) (vCap w)

/-- The value of the registers from `r` on, `g` of them (R200). -/
def Chip.rdGrp (ch : Chip) (t r g : Nat) : Nat :=
  (List.range g).foldl (fun n j => n + (ch.rdV t (r + j)).toNat * 2 ^ (128 * j)) 0

/-- Element `i` of a value (R200). -/
def elem (ew v i : Nat) : Nat := bf v (ew * i) ew

/-- A value made of `n` elements. -/
def fromElems (ew n : Nat) (f : Nat → Nat) : Nat :=
  (List.range n).foldl (fun v i => v + (f i % 2 ^ ew) * 2 ^ (ew * i)) 0

/-- Write the `n` active elements of a group with latency `l` (R201, R207). -/
def Chip.laterGrp (ch : Chip) (t r g ew n l v : Nat) : Chip :=
  if n = 0 then ch
  else
    let mask := 2 ^ (ew * n) - 1
    (List.range g).foldl (fun c j =>
      let m := bf mask (128 * j) 128
      if m = 0 then c else c.later t l (.vreg (r + j) m) ⟨false, BitVec.ofNat 128 (bf v (128 * j) 128)⟩) ch

/-- A context of the core that is free. -/
def CoreSt.freeVctx (k : CoreSt) : Option Nat := (List.range 4).find? (fun c => (k.ctx c).owner.isNone)

/-- The compartment bound to a task has saved vector state (R195). -/
def Chip.vsaved (ch : Chip) (t : Nat) : Bool :=
  match (ch.task t).bound.bind ch.record with
  | some r => r.flag fVsaved
  | none => false

/-- A vector instruction that needs a context (R195): it goes on with one, or the task yields before issue. -/
def needCtx (ch : Chip) (t : Nat) (go : Chip → Res) : Res :=
  let k := ch.core (tCore t)
  if (k.ctxOf (tNum t)).isSome then go ch
  else
    match k.freeVctx with
    | some c =>
      if ch.vsaved t then .wait ch .vctx
      else go (ch.updCore (tCore t) (fun k => k.setCtx c ⟨some (tNum t), true, true, []⟩))
    | none => .wait ch .vctx

/-- An element of a vector–vector result (R203): `m` is the mask element of VBSL. -/
def vvElem (min ew d s m : Nat) : Nat :=
  let full := 2 ^ ew - 1
  let sh := s % ew
  match min with
  | 0 => d + s
  | 1 => d + 2 ^ ew - s
  | 2 => d &&& s
  | 3 => d ||| s
  | 4 => d ^^^ s
  | 5 => Nat.min d s
  | 6 => Nat.max d s
  | 7 => if sInt ew d < sInt ew s then d else s
  | 8 => if sInt ew d < sInt ew s then s else d
  | 9 => d <<< sh
  | 10 => d >>> sh
  | 11 => (sExt ew (2 * ew) d >>> sh) % 2 ^ ew
  | 12 => d * s
  | 13 => d * s / 2 ^ ew
  | 14 => if d = s then full else 0
  | 15 => if d > s then full else 0
  | 16 => if sInt ew d > sInt ew s then full else 0
  | 17 => (s &&& m) ||| (d &&& (full - m))
  | 18 => s
  | _ => Nat.min (d + s) full

/-- VECTOR_VV_OP (R203, R207). -/
def bodyVv (_v : Vig) (ch : Chip) (t w : Nat) : Res :=
  needCtx ch t (fun ch =>
    let g := vGrp w
    let ew := vEw w
    let m := bf w 0 6
    let n := (ch.task t).active w
    let d := ch.rdGrp t (wA w) g
    let s := ch.rdGrp t (wB w) g
    let k := if m = 17 then ch.rdGrp t 0 g else 0
    let r := fromElems ew n (fun i => vvElem m ew (elem ew d i) (elem ew s i) (elem ew k i))
    .ok (ch.laterGrp t (wA w) g ew n (if m = 12 ∨ m = 13 then 4 else 2) r))

/-- An element of a vector–scalar result (R204); VINS1 is apart. -/
def vsElem (min ew d s : Nat) : Nat :=
  match min with
  | 5 => vvElem 9 ew d s 0
  | 6 => vvElem 10 ew d s 0
  | 7 => vvElem 11 ew d s 0
  | 8 => vvElem 14 ew d s 0
  | 9 => s
  | m => vvElem m ew d s 0

/-- VECTOR_VS_OP (R204, R207). -/
def bodyVs (_v : Vig) (ch : Chip) (t w : Nat) : Res :=
  needCtx ch t (fun ch =>
    let g := vGrp w
    let ew := vEw w
    let m := bf w 0 6
    let n := (ch.task t).active w
    let d := ch.rdGrp t (wA w) g
    let s := ch.rdInt t (wB w) % 2 ^ ew
    let r := fromElems ew n (fun i =>
      if m = 10 then if i = 0 then s else elem ew d (i - 1) else vsElem m ew (elem ew d i) s)
    .ok (ch.laterGrp t (wA w) g ew n 2 r))

/-- The result of a reduction over the active elements (R205); `ix` is VGET's index. -/
def reduce (m ew ix : Nat) (l : List Nat) : Nat :=
  match m with
  | 1 => l.foldl (· + ·) 0 % 2 ^ 64
  | 2 => l.foldl Nat.max 0
  | 3 => l.foldl Nat.min (2 ^ ew - 1)
  | 4 => l.foldl (· ^^^ ·) 0
  | 5 => (l.filter (· ≠ 0)).length
  | 6 => l.findIdx (· ≠ 0)
  | _ => l.getD ix 0

/-- VECTOR_REDUCTION (R205, R207). -/
def bodyVred (_v : Vig) (ch : Chip) (t w : Nat) : Res :=
  needCtx ch t (fun ch =>
    let ew := vEw w
    let n := (ch.task t).active w
    let s := ch.rdGrp t (wB w) (vGrp w)
    let r := reduce (bf w 0 6) ew (ch.rdInt t (wA w) % 64) ((List.range n).map (elem ew s))
    .ok (ch.laterReg t (wA w) 3 (Cap.ofNat r)))

/-- VPERM (R205, R207). -/
def bodyVperm (_v : Vig) (ch : Chip) (t w : Nat) : Res :=
  needCtx ch t (fun ch =>
    let g := vGrp w
    let n := (ch.task t).active w
    let d := ch.rdGrp t (wA w) g
    let s := ch.rdGrp t (wB w) g
    let r := fromElems 8 n (fun i => let j := elem 8 s i; if j < n then elem 8 d j else 0)
    .ok (ch.laterGrp t (wA w) g 8 n 3 r))

/-- VSETVL (R205). -/
def bodyVsetvl (_v : Vig) (ch : Chip) (t w : Nat) : Res :=
  let n := min (ch.rdInt t (wB w)) (vCap w)
  .ok ((ch.wrInt t (wA w) n).updTask t (fun x => { x with vl := BitVec.ofNat 64 n }))

/-- VRELEASE (R197, R205). -/
def bodyVrelease (_v : Vig) (ch : Chip) (t _w : Nat) : Res :=
  let x := ch.task t
  if x.vecOut then .ok ch
  else
    let ch := ch.freeCtx t
    .ok (match x.bound.bind ch.record with
      | some r => ch.setFlag r.id fVsaved false
      | none => ch)

/-- The bytes of the active elements of a group (R208). -/
def elemBytes (ew n v : Nat) : List Byte := leBytes (ew / 8 * n) v

/-- A vector memory operation at issue (R208, R211, R545): `kind` is VLD, VST or VLDFF. With no active element it does
nothing (R201). -/
def vmemBody (kind : OpKind) (v : Vig) (ch : Chip) (t w : Nat) : Res :=
  if ch.opsFull t then .stall ch
  else
    needCtx ch t (fun ch =>
      let ew := vEw w
      let n := (ch.task t).active w
      let c := ch.rdReg t (wB w)
      let st := kind = .vst
      if n = 0 then .ok ch
      else if ch.watchHit v t c.addr (ew / 8 * n) (!st) st then .halt ch 5
      else
        .ok (ch.addOp t { ch.newOp v t kind 3 with
          va := c.addr, size := ew / 8, n := n, dst := wA w, fn := vGrp w, cap := c, colour := c.colour
          data := if st then elemBytes ew n (ch.rdGrp t (wA w) (vGrp w)) else [] }))

/-- VLD. -/
def bodyVld (v : Vig) (ch : Chip) (t w : Nat) : Res := vmemBody .vld v ch t w
/-- VST. -/
def bodyVst (v : Vig) (ch : Chip) (t w : Nat) : Res := vmemBody .vst v ch t w
/-- VLDFF. -/
def bodyVldff (v : Vig) (ch : Chip) (t w : Nat) : Res := vmemBody .vldff v ch t w

/-- VECTOR_CONTEXT_ACQUIRE (R195, R198): a task that yielded for a context takes a free one, with the compartment's saved
registers when it has them. -/
def vctxAcquire (t : Nat) (ch : Chip) : Chip :=
  if (ch.task t).wait ≠ .vctx then ch
  else
    match (ch.core (tCore t)).freeVctx with
    | none => ch
    | some c =>
      let x : VCtx :=
        match (ch.task t).bound.bind ch.record with
        | some r =>
          if r.flag fVsaved then
            ⟨some (tNum t), false, false, (List.range 32).foldl (fun m i =>
              mPut m i (BitVec.ofNat 128 (ch.ram.rdLe (r.saveAt + 0x2200 + 16 * i) 16)) 0) []⟩
          else ⟨some (tNum t), true, true, []⟩
        | none => ⟨some (tNum t), true, true, []⟩
      (ch.updCore (tCore t) (fun k => k.setCtx c x)).updTask t (fun x => { x with wait := .none })

/-- The place of a yielded WAITQ in the order of waiting. -/
def Wait.stamp? : Wait → Option Nat
  | .waitq _ _ n => some n
  | _ => Option.none

/-- The task of a core that holds a context and has waited longest in WAITQ (R196). -/
def Chip.vctxVictim (ch : Chip) (k : Nat) : Option Nat :=
  let cand := (ch.tasks.filter (fun e => tCore e.1 = k && ((ch.core k).ctxOf (tNum e.1)).isSome)).filterMap
    (fun e => e.2.wait.stamp?.map (fun n => (n, e.1)))
  (cand.foldl (fun (b : Option (Nat × Nat)) e =>
    match b with
    | none => some e
    | some m => if e.1 < m.1 then some e else some m) none).map (·.2)

/-- VECTOR_CONTEXT_RECLAIM (R196): a task of the core waits for a context and none is free. -/
def vctxReclaim (k : Nat) (ch : Chip) : Chip :=
  if !ch.tasks.any (fun e => tCore e.1 = k && e.2.wait = .vctx) || (ch.core k).freeVctx.isSome then ch
  else
    match ch.vctxVictim k with
    | none => ch
    | some t =>
      let ch := ch.flush t
      let ch := match (ch.task t).bound.bind ch.record with
        | some r => ch.saveCtx t r
        | none => ch
      (ch.freeCtx t).updCore k (fun c => { c with vreclaims := satAdd (2 ^ 32 - 1) c.vreclaims 1 })

/-- VSETVL. -/
def execVsetvl (t : Nat) (w : IWord) (s : State) : Out := insn t w .vsetvl bodyVsetvl s
/-- VECTOR_VV_OP. -/
def execVectorVvOp (t : Nat) (w : IWord) (s : State) : Out := insn t w .vv bodyVv s
/-- VECTOR_VS_OP. -/
def execVectorVsOp (t : Nat) (w : IWord) (s : State) : Out := insn t w .vs bodyVs s
/-- VECTOR_REDUCTION. -/
def execVectorReduction (t : Nat) (w : IWord) (s : State) : Out := insn t w .vred bodyVred s
/-- VPERM. -/
def execVperm (t : Nat) (w : IWord) (s : State) : Out := insn t w .vperm bodyVperm s
/-- VRELEASE. -/
def execVrelease (t : Nat) (w : IWord) (s : State) : Out := insn t w .vrelease bodyVrelease s
/-- VLD. -/
def execVld (t : Nat) (w : IWord) (s : State) : Out := insn t w .vld bodyVld s
/-- VST. -/
def execVst (t : Nat) (w : IWord) (s : State) : Out := insn t w .vst bodyVst s
/-- VLDFF. -/
def execVldff (t : Nat) (w : IWord) (s : State) : Out := insn t w .vldff bodyVldff s
/-- VECTOR_CONTEXT_ACQUIRE. -/
def execVectorContextAcquire (t : Nat) (s : State) : Out := chipStep (fun _ ch => vctxAcquire t ch) s
/-- VECTOR_CONTEXT_RECLAIM. -/
def execVectorContextReclaim (k : Nat) (s : State) : Out := chipStep (fun _ ch => vctxReclaim k ch) s

end Sys2Proof.Machine
end

