-- ==== Sys2Proof/Machine/MemGo.lean ====
section
/-! DEFINITION. Performing accesses of cores after the guard check: their order (R24, R270, R275, R315), loads, stores and
atomics on memory and on control blocks (R65 to R69, R72, R133, R268), mirrored lines (R409), and expired DRAM requests (R521). -/

namespace Sys2Proof.Machine

/-- The pieces of a vector memory operation as it would reach memory now. -/
def Chip.vecPieces (v : Vig) (ch : Chip) (t : Nat) (o : LongOp) : List Piece :=
  (ch.xlateAs v t o.comp o.tenant o.fpriv o.tw o.va (o.size * o.n) (if o.kind = .vst then 2 else 1)).2.1

/-- The pieces of a long operation. -/
def Chip.opPieces (v : Vig) (ch : Chip) (t : Nat) (o : LongOp) : List Piece :=
  if cls3 o && o.pieces.isEmpty then ch.vecPieces v t o else o.pieces
where cls3 (o : LongOp) : Bool := o.kind = .vld || o.kind = .vst || o.kind = .vldff

/-- An access of a core that is not performed yet (R274): its task, its pieces, whether it is a store, and the order in which it
passed the guard, with the ORD under which it did (R315); 0 where it has not passed it. -/
structure Waiting where
  task : Nat
  pieces : List Piece
  store : Bool
  pass : Nat
  ord : Nat
deriving DecidableEq, Repr

/-- The accesses of core `k` not performed yet whose number satisfies `p`. -/
def Chip.waiting (v : Vig) (ch : Chip) (k : Nat) (p : Nat → Bool) : List Waiting :=
  ((ch.core k).sb.filter (fun e => p e.id)).map (fun e => ⟨e.task, e.pieces, true, e.pass, e.ord⟩) ++
    (ch.tasks.filter (fun e => tCore e.1 = k)).flatMap (fun e =>
      (e.2.ops.filter (fun o => p o.id && o.resp.isNone && o.kind ≠ .maint && o.kind ≠ .div)).map (fun o =>
        ⟨e.1, ch.opPieces v e.1 o, o.kind.stores, o.pass, o.ord⟩))

/-- An access of task `t` issued as number `id`, which passed the guard as number `pass` under `ord`, must wait (R270, R275, R315,
R321, R467): device accesses of a task go in program order; those through slots of ORD 0b01 or 0b10 in the order in which they passed the
core's guard; one through ORD 0b10 after every older store of the task; and remote accesses of a task in issue order. A channel
held for retraining keeps an access waiting (R467). -/
def Chip.mustWait (v : Vig) (ch : Chip) (t id pass ord : Nat) (ps : List Piece) : Bool :=
  let old := ch.waiting v (tCore t) (fun n => decide (n < id))
  let before := if ord = 0 then [] else ch.waiting v (tCore t) (fun n => decide (n ≠ id))
  (ps.any (ch.isDev t) && old.any (fun e => decide (e.task = t) && e.pieces.any (ch.isDev t))) ||
    before.any (fun e => decide (1 ≤ e.ord) && decide (e.pass ≠ 0) && decide (e.pass < pass)) ||
    (decide (2 ≤ ord) && old.any (fun e => decide (e.task = t) && e.store)) ||
    (isRemote t ps && old.any (fun e => decide (e.task = t) && isRemote t e.pieces)) || ch.heldFor v t ps

/-- A long operation must wait. -/
def Chip.opWaits (v : Vig) (ch : Chip) (t : Nat) (o : LongOp) : Bool := ch.mustWait v t o.id o.pass o.ord o.pieces

/-- An access that passes the guard now, of number `id`, must wait. -/
def Chip.nowWaits (v : Vig) (ch : Chip) (t id : Nat) (ps : List Piece) : Bool :=
  ch.mustWait v t id ((ch.core (tCore t)).passes + 1) (ch.ordMax t ps) ps

/-- Who performs an access: whether at Machine privilege, the tenant whose holding is checked (R349), the capability's colour,
the tenant and compartment current at its issue, its virtual address, and the task with the access's number (R278). -/
structure Who where
  mach : Bool
  own : Option Nat
  colour : Nat
  tenant : Nat
  comp : Nat
  va : Nat
  by_ : Nat × Nat
deriving DecidableEq, Repr

/-- The performer of a long operation. -/
def LongOp.who (o : LongOp) (t : Nat) : Who :=
  ⟨decide (o.fpriv = 3), if o.fpriv = 0 then some o.tenant else none, o.colour, o.tenant, o.comp, o.va, (t, o.id)⟩

/-- The performer of an access of task `t` as it stands. -/
def Chip.who (ch : Chip) (t k a : Nat) : Who :=
  let x := ch.task t
  ⟨decide (x.priv = 3), x.owner, k, x.tenant, x.comp, a, (t, (ch.core (tCore t)).seq)⟩

/-- What performing a store answers: it is done; a line check fails with a cause, and nothing is done; or the mirror queue has
no room, and it waits (R409). -/
inductive Stored where
  | done (s : Vig × Chip)
  | bad (code : Nat)
  | full

/-- The lines of a store that has been performed go to the peer where they are mirrored (R409); without room the store waits. -/
def mirrorStored (w : Who) (ps : List Piece) (s : Vig × Chip) : Stored :=
  if !s.1.mirrors then .done s
  else
    match s.2.mirrorLines w.tenant w.comp w.va ps with
    | some c => .done (s.1, c)
    | none => .full

/-- Perform a store whose checks up to the guard's have passed (R62, R64, R69, R268, R350, R409). -/
def storeGo (w : Who) (ps : List Piece) (capw : Bool) (val : Cap) (d : List Byte) (s : Vig × Chip) : Stored :=
  if s.2.inCsr ps then
    .done (ps.foldl (fun (a : List Byte × (Vig × Chip)) p =>
      (a.1.drop p.len, csrWrite w.mach p.pa (a.1.take p.len) (capw && val.tag) a.2)) (d, s)).2
  else
    let code := s.2.checkLines w.own w.colour true ps
    if code ≠ 0 then .bad code
    else
      let r := (s.2.dramTouch s.1 w.by_.1 w.tenant true ps).memStore w.own w.colour w.tenant w.by_ ps capw val d
      mirrorStored w ps (s.1, r.2)

/-- Perform the store of a return-stack entry (R95, R96): two capabilities and 32 bytes. -/
def pushGo (w : Who) (p : Piece) (c0 c1 : Cap) (d : List Byte) (s : Vig × Chip) : Stored :=
  if s.2.inCsr [p] then
    let put := fun (o : Nat) (c : Cap) (s : Vig × Chip) => csrWrite w.mach (p.pa + o) (leBytes 16 c.bits.toNat) c.tag s
    .done (csrWrite w.mach (p.pa + 32) d false (put 16 c1 (put 0 c0 s)))
  else
    let code := s.2.checkLines w.own w.colour true [p]
    if code ≠ 0 then .bad code
    else
      let put := fun (o : Nat) (capw : Bool) (c : Cap) (d : List Byte) (ch : Chip) =>
        (ch.memStore w.own w.colour w.tenant w.by_ [{ p with pa := p.pa + o, len := if capw then 16 else d.length }] capw c d).2
      let ch := s.2.dramTouch s.1 w.by_.1 w.tenant true [p]
      mirrorStored w [p] (s.1, put 32 false Cap.null d (put 16 true c1 [] (put 0 true c0 [] ch)))

/-- CPAINT a line (R70, R79, R130): its data and tags become zero, its colour the capability's, and its poison ends. A control block
has no line; one of a failed channel cannot be rewritten. -/
def paintGo (w : Who) (ps : List Piece) (s : Vig × Chip) : Stored :=
  let pa := alignDown ((ps.head?.map (·.pa)).getD 0) 64
  let ch : Chip := { s.2 with ram := s.2.ram.unpoison pa }
  if s.2.inCsr ps then .done s
  else if ch.lineBad pa then .bad 0x30
  else
    let ch : Chip := { ch with ram := ch.ram.claim pa w.colour }
    .done (s.1, ch.dramTouch s.1 w.by_.1 w.tenant true ps)

/-- What a load reads: its bytes and the tags of its granules, and the state after it (a control register may change); or the
cause of a failing line check. -/
inductive Loaded where
  | done (d : List Byte) (tags : Nat) (s : Vig × Chip)
  | bad (code : Nat)

/-- The tags of the granules of a control block that a load reads (R268). -/
def csrTags (s : Vig × Chip) (pa n : Nat) : Nat :=
  (List.range (n / 16)).foldl (fun m i => m + b2n (csrTag s (pa + 16 * i)) * 2 ^ i) 0

/-- Perform a load whose checks up to the guard's have passed (R65, R67 to R69, R268, R349). -/
def loadGo (w : Who) (ps : List Piece) (s : Vig × Chip) : Loaded :=
  if s.2.inCsr ps then
    let tags := match ps with
      | [p] => csrTags s p.pa p.len
      | _ => 0
    let r := busGet (ps.map (fun p => (p.pa, p.len))) s
    .done r.1 tags r.2
  else
    let code := s.2.checkLines w.own w.colour false ps
    if code ≠ 0 then .bad code
    else .done (s.2.loadBytes ps) (s.2.loadTags ps) (s.1, s.2.dramTouch s.1 w.by_.1 w.tenant false ps)

/-- The value an atomic writes, if it writes (R133): `fn` 0 adds, 1 swaps, 2 compares with `cmp` and swaps. -/
def atomicNew (fn n old cmp val : Nat) : Option Nat :=
  let m := 2 ^ (8 * n)
  if fn = 0 then some ((old + val) % m) else if fn = 1 then some (val % m)
  else if old = cmp % m then some (val % m) else none

/-- Perform an atomic (R133): its old value is what a load reads. A line of colour 0 is claimed as for a store. -/
def atomicGo (w : Who) (fn n cmp : Nat) (val : Cap) (ps : List Piece) (s : Vig × Chip) : Loaded ⊕ Unit :=
  let code := if s.2.inCsr ps then 0 else s.2.checkLines w.own w.colour true ps
  if code ≠ 0 then .inl (.bad code)
  else
    match loadGo w ps s with
    | .bad c => .inl (.bad c)
    | .done d _ s =>
      match atomicNew fn n (leNat d) cmp val.addr with
      | none =>
        let ram := if s.2.inCsr ps then s.2.ram else (ps.flatMap linesOf).foldl (fun m a => m.prepare w.colour a) s.2.ram
        .inl (.done d 0 (s.1, { s.2 with ram := ram }))
      | some x =>
        match storeGo w ps false Cap.null (leBytes n x) s with
        | .done s => .inl (.done d 0 s)
        | .bad c => .inl (.bad c)
        | .full => .inr ()

/-- The value that a scalar load leaves in its register (R46, R65, R72, R131): `clm` says that it came from cluster local
memory, where no epoch is checked. -/
def Chip.loadVal (ch : Chip) (h ten priv n : Nat) (sx capw loadCap clm : Bool) (d : List Byte) (tag : Bool) : Cap :=
  if capw then
    let c : Cap := ⟨tag && loadCap, BitVec.ofNat 128 (leNat d)⟩
    if priv = 0 ∧ !clm then ch.epochCheck h ten c else c
  else extendLoad n sx (leNat d)

/-- Every piece lies in cluster local memory (R72). -/
def Chip.inClm (ch : Chip) (ps : List Piece) : Bool :=
  ps.all (fun p => match ch.ram.region p.pa with
    | .clm _ => true
    | _ => false)

/-- A DRAM request of a channel has expired (R521): sixteen within one second make the channel due, in either mode. -/
def Chip.dramExpired (v : Vig) (ch : Chip) (pa : Nat) : Chip :=
  let h := paHalf pa
  ch.updBg h (fun b =>
    let x := b.chan (chanOf pa)
    let l := (x.expiries.filter (fun e => decide (v.clk < e + 1000000000))) ++ [v.clk]
    let x := if l.length < 16 then { x with expiries := l }
      else { x with expiries := [], due := some (x.due.getD v.clk), forced := true }
    { b with chans := mSet b.chans (chanOf pa) x })

/-- Some piece is DRAM: its address. -/
def Chip.dramPiece (ch : Chip) (ps : List Piece) : Option Nat :=
  (ps.find? (fun p => ch.ram.region p.pa = .dram)).map (·.pa)

end Sys2Proof.Machine
end

