-- ==== Sys2Proof/Machine/Block.lean ====
section
/-! DEFINITION. The elements of block repeats and of CPAINT (R70, R130, R142 to R147). -/

namespace Sys2Proof.Machine

/-- The rest of an element after one of its accesses. -/
abbrev Cont := Vig × Chip → Vig × Chip

/-- An element's access matches a watchpoint (R545): the engine stops at its boundary, and the task halts at its next. -/
def Chip.repWatch (ch : Chip) (t : Nat) : Chip :=
  (ch.updTask t (fun x => { x.stopRep with haltReq := true })).raiseAttn 4

/-- An element waits for an access or dirty bit (R298). -/
def Chip.repAwait (ch : Chip) (t : Nat) (w : AdWait) : Chip :=
  ch.updTask t (fun x => { x with rep := x.rep.map (fun r => { r with adWait := some w }) })

/-- The performer of an element's access. -/
def Rep.who (r : Rep) (x : Task) (t k a : Nat) : Who :=
  ⟨decide (r.org.fpriv = 3), if r.org.fpriv = 0 then some x.tenant else none, k, x.tenant, x.comp, a, (t, r.id)⟩

/-- One access of an element: its capability, address and size, the permissions and alignment it needs, whether it stores, and the
value and bytes that it stores. -/
structure RepAcc where
  kind : OpKind
  c : Cap
  n : Nat
  perms : List Nat
  align : Nat
  st : Bool
  val : Cap

/-- The request of an element's access that lies in the other half (R265). -/
def Chip.repOp (v : Vig) (ch : Chip) (t : Nat) (r : Rep) (q : RepAcc) (ps : List Piece) : LongOp :=
  { ch.passed t ps (ch.newOp v t q.kind 4) with
    va := q.c.addr, size := q.n, capw := q.n = 16, colour := q.c.colour, addr := r.org.addr, fpriv := r.org.fpriv, tw := r.org.tw
    b := q.val, data := leBytes q.n q.val.bits.toNat }

/-- What an access of the other half came to: its request is under way, or it fails, or `go` follows with its answer. -/
def repFar (t : Nat) (q : RepAcc) (f : Far) (s : Vig × Chip) (go : List Byte → Nat → Cont) : Vig × Chip :=
  match f with
  | .sent ch => (s.1, ch)
  | .out => s
  | .got ch code d tags => if code ≠ 0 then (s.1, ch.failRep t code 0 0 q.c.addr) else go d tags (s.1, ch)

/-- One access of an element: its checks up to the guard (R61, R146, R218) and its order (R270, R275, R315); then it is made here by
`near`, unless `ue` says that its DRAM request expires (R521), or in the other half, whose answer `far` takes. -/
def repAccess (t : Nat) (ue : Bool) (q : RepAcc) (s : Vig × Chip) (near : Rep → List Piece → Cont) (far : List Piece → List Byte → Nat → Cont) :
    Vig × Chip :=
  let x := s.2.task t
  let a := q.c.addr
  match x.rep, x.reqOf 2 with
  | none, _ => s
  | some _, some o => repFar t q (s.2.farGo s.1 t 2 o q.n) s (far o.pieces)
  | some r, none =>
    match checkCap q.c a q.n q.perms q.align with
    | some code => (s.1, s.2.failRep t code 0 0 a)
    | none =>
      if s.2.watchHit s.1 t a q.n (!q.st) q.st then (s.1, s.2.repWatch t)
      else
        let p := s.2.xlateAs s.1 t x.comp x.tenant r.org.fpriv r.org.tw a q.n (if q.st then 2 else 1)
        match p.2.2 with
        | some b =>
          let f := { b.flt with fdata := a }
          if (f.code = 0x21 ∨ f.code = 0x22) ∧ b.leaf ≠ 0 then (s.1, p.1.repAwait t ⟨none, b.leaf, q.st, s.1.clk, x.tenant, f⟩)
          else (s.1, p.1.failRep t f.code f.stage f.level a)
        | none =>
          match p.1.guardAs t r.org.fpriv q.c (!q.st) q.st (p.2.1.map (·.pa)) with
          | (ch, 0) =>
            if ch.nowWaits s.1 t r.id p.2.1 || ch.olderTouch t r.id p.2.1 then s
            else if isRemote t p.2.1 then repFar t q (ch.farGo s.1 t 2 (ch.repOp s.1 t r q p.2.1) q.n) s (far p.2.1)
            else
              match (if ue then ch.dramPiece p.2.1 else none) with
              | some pa => (s.1, (ch.dramExpired s.1 pa).failRep t 0x30 0 0 a)
              | none => near r p.2.1 (s.1, ch)
          | (ch, code) => (s.1, ch.failRep t code 0 0 a)

/-- The engine keeps what an access of the present element has read. -/
def Chip.repKeep (ch : Chip) (t : Nat) (d : List Byte) (tags : Nat) : Chip :=
  ch.updTask t (fun x => { x with rep := x.rep.map (fun r => { r with got := r.got ++ [(d, tags)] }) })

/-- The `i`-th access of an element loads through a capability (R142): its value, as an integer or a capability. -/
def repLoad (t i : Nat) (ue : Bool) (c : Cap) (n : Nat) (s : Vig × Chip) (go : Cap → Cont) : Vig × Chip :=
  let capw : Bool := n = 16
  match (s.2.task t).rep.bind (fun r => r.got[i]?) with
  | some (d, tags) => go ⟨tb tags 0, BitVec.ofNat 128 (leNat d)⟩ s
  | none =>
    let use := fun (ps : List Piece) (d : List Byte) (tags : Nat) (s : Vig × Chip) =>
      let x := s.2.task t
      let p := (x.rep.map (·.org.fpriv)).getD 0
      let val := s.2.loadVal (tHalf t) x.tenant p n false capw (c.has pLoadCap) (s.2.inClm ps) d (tb tags 0)
      go val (s.1, s.2.repKeep t (leBytes n val.bits.toNat) (b2n val.tag))
    repAccess t ue ⟨.load, c, n, [pLoad], if capw then 16 else 1, false, Cap.null⟩ s
      (fun r ps s =>
        match loadGo (r.who (s.2.task t) t c.colour c.addr) ps s with
        | .bad code => (s.1, s.2.failRep t code 0 0 c.addr)
        | .done d tags s => use ps d tags s)
      use

/-- An element stores the low `n` bytes of a value through a capability (R142), or a capability (R64). -/
def repStore (t : Nat) (ue : Bool) (c : Cap) (n : Nat) (val : Cap) (s : Vig × Chip) (go : Cont) : Vig × Chip :=
  let capw : Bool := n = 16
  let perms := [pStore] ++ (if capw && val.tag then [pStoreCap] ++ (if val.has pGlobal then [] else [pStoreLocal]) else [])
  repAccess t ue ⟨.store, c, n, perms, if capw then 16 else 1, true, val⟩ s
    (fun r ps s =>
      match storeGo (r.who (s.2.task t) t c.colour c.addr) ps capw val (leBytes n val.bits.toNat) s with
      | .full => s
      | .bad code => (s.1, s.2.failRep t code 0 0 c.addr)
      | .done s => go s)
    (fun _ _ _ => go)

/-- An element is done (R142, R144): the cursors it used advance by its size, COUNT falls, and at 0 the operation completes. -/
def repNext (t n : Nat) (src dst : Bool) : Cont := fun s =>
  (s.1, s.2.updTask t (fun x =>
    let k := rcCount x.rc.toNat - 1
    { x with rsrc := if src then cadv x.rsrc n else x.rsrc, rdst := if dst then cadv x.rdst n else x.rdst
             rc := BitVec.ofNat 64 (bfSet x.rc.toNat 0 32 k)
             rep := if k = 0 then none else x.rep.map (fun r => { r with got := [] }) }))

/-- The element meets COND (R144): it is not consumed, and the operation completes. -/
def repMet (t : Nat) : Cont := fun s => (s.1, s.2.updTask t (fun x => { x with rep := none }))

/-- CMP and SCAN (R142): stop at the first equal (COND 1) or unequal (COND 2) element, else go on. -/
def repCompare (t n cond a b : Nat) (dst : Bool) : Cont :=
  if (a = b ∧ cond = 1) ∨ (a ≠ b ∧ cond = 2) then repMet t else repNext t n true dst

/-- The register-store entry that RC.REG names (R143). -/
def Chip.repEntry (ch : Chip) (t : Nat) : Nat := ch.base t + rcReg (ch.task t).rc.toNat

/-- A CPAINT element (R70, R130). -/
def repPaint (t : Nat) (ue : Bool) (c : Cap) (s : Vig × Chip) : Vig × Chip :=
  repAccess t ue ⟨.paint, c, 64, [pStore, pSystem], 1, true, Cap.null⟩ s
    (fun r ps s =>
      match paintGo (r.who (s.2.task t) t c.colour c.addr) ps s with
      | .done s => repNext t 64 false true s
      | .bad code => (s.1, s.2.failRep t code 0 0 c.addr)
      | .full => s)
    (fun _ _ _ => repNext t 64 false true)

/-- One element of the operation in RC (R142). -/
def repElement (t : Nat) (ue : Bool) (s : Vig × Chip) : Vig × Chip :=
  let x := s.2.task t
  let rc := x.rc.toNat
  let n := 2 ^ rcEsz rc
  match rcOp rc with
  | 0 => repLoad t 0 ue x.rsrc n s (fun val s => repStore t ue x.rdst n val s (repNext t n true true))
  | 1 => repStore t ue x.rdst n (s.2.rdEntry (s.2.repEntry t)) s (repNext t n false true)
  | 2 => repLoad t 0 ue x.rsrc n s (fun a s => repLoad t 1 ue x.rdst n s (fun b => repCompare t n (rcCond rc) a.addr b.addr true))
  | 3 => repLoad t 0 ue x.rsrc n s (fun a s =>
      repCompare t n (rcCond rc) a.addr ((s.2.rdEntry (s.2.repEntry t)).addr % 2 ^ (8 * n)) false s)
  | 4 => repLoad t 0 ue x.rsrc n s (fun a s =>
      let e := s.2.repEntry t
      let acc := crcStep (decide (rcCrc rc = 1)) x.crcpoly.toNat (s.2.rdEntry e).addr a.addr n
      repNext t n true false (s.1, s.2.wrEntry e (Cap.ofNat acc)))
  | _ => repPaint t ue x.rdst s

/-- The engine starts no further element of a task that is to be unbound, killed or halted (R146, R251). -/
def Chip.repRests (v : Vig) (ch : Chip) (t : Nat) (r : Rep) : Bool :=
  let x := ch.task t
  r.got.isEmpty && (x.reqOf 2).isNone && (ch.leaving t || (x.haltReq && v.rights x))

/-- BLOCK_ELEMENT (R144): the engine of a task performs one element, or goes on with one that waits for the other half. `ue` says
that a DRAM request of it expires (R521). -/
def blockElement (t : Nat) (ue : Bool) (s : Vig × Chip) : Vig × Chip :=
  let x := s.2.task t
  match x.rep with
  | none => s
  | some r =>
    if r.adWait.isSome ∨ (s.2.core (tCore t)).inReset ∨ rcCount x.rc.toNat = 0 ∨ s.2.repRests s.1 t r then s else repElement t ue s

/-- BLOCK_ELEMENT. -/
def execBlockElement (t : Nat) (ue : Bool) (s : State) : Out := bothStep (fun v ch => blockElement t ue (v, ch)) s

end Sys2Proof.Machine
end

