-- ==== Sys2Proof/Machine/Branch.lean ====
section
/-! DEFINITION. Branches, the return stack and the hardware loop (R87, R95, R96, R135 to R139, R186 to R189). -/

namespace Sys2Proof.Machine

/-- What an instruction answers with the state its accesses leave. -/
abbrev Ans := Vig × Res

/-- RSC's check of a push of an entry at `a` with `perms` (R61, R95): the cause. An entry that would not be 64-byte aligned fails with
CAP_ALIGN (log 120). -/
def pushCheck (rsc : Cap) (a : Nat) (perms : List Nat) : Option Nat :=
  (checkCap rsc a 64 perms 64).map (fun k => if k = 0x14 then 0x04 else k)

/-- RSC's check of a pop (R61, R95): RSTACK_UNF where the entry ends above RSC's top. -/
def popCheck (rsc : Cap) : Option Nat :=
  (checkCap rsc rsc.addr 64 [pLoad] 64).map (fun k => if k = 0x14 ∧ rsc.top < rsc.addr + 64 then 0x05 else k)

/-- The request of an entry of the return stack, or of a gate descriptor, that lies in the other half (R95, R232, R265). -/
def Chip.entryOp (v : Vig) (ch : Chip) (t : Nat) (kind : OpKind) (c : Cap) (a : Nat) (ps : List Piece) : LongOp :=
  { ch.passed t ps (ch.newOp v t kind 1) with va := a, size := 64, colour := c.colour }

/-- Where the push of an entry is made: RSC's cursor less 64. -/
def Task.pushAt (x : Task) : Nat := (x.rsc.addr + 2 ^ 64 - 64) % 2 ^ 64

/-- The permissions that the push of two capabilities needs (R64, R95). -/
def pushPerms (c0 c1 : Cap) : List Nat :=
  let tagged := [c0, c1].filter (·.tag)
  [pStore] ++ (if tagged.isEmpty then [] else [pStoreCap]) ++ (if tagged.any (fun c => !c.has pGlobal) then [pStoreLocal] else [])

/-- Push a 64-byte entry (R95, R96): two capabilities and four words; RSC's cursor moves down by 64. It is a store: it waits for the
task's older stores and, where its line is mirrored, for room in the queue (R409); one to the other half is a long operation of
class 1 (R174). The return stack's check of RSC has passed. -/
def stackPush (v : Vig) (ch : Chip) (t : Nat) (c0 c1 : Cap) (ws : List Nat) : Ans ⊕ (Vig × Chip) :=
  let x := ch.task t
  let a := x.pushAt
  let d := ws.flatMap (leBytes 8)
  let down := fun (c : Chip) => c.updTask t (fun x => { x with rsc := cpos x.rsc a })
  match ch.scalarAcc v t x.rsc a 64 (pushPerms c0 c1) 64 2 false true with
  | .bad r => .inl (v, r)
  | .go c ps =>
    let k := c.core (tCore t)
    if k.sb.any (fun e => decide (e.task = t) || overlap e.pieces ps) ∨ c.nowWaits v t k.seq ps ∨ c.olderTouch t k.seq ps then
      .inl (v, .stall c)
    else if isRemote t ps then
      if c.opsFull t then .inl (v, .stall c)
      else .inr (v, down (c.remoteIssue v t { c.entryOp v t .push x.rsc a ps with b := c0, cap := c1, data := d } 64))
    else
      match ps with
      | [] => .inl (v, .stall c)
      | p :: _ =>
        match pushGo (c.who t x.rsc.colour a) p c0 c1 d (v, c) with
        | .done s => .inr (s.1, down s.2)
        | .bad code => .inl (v, .flt c ⟨code, 0, 0, a⟩)
        | .full => .inl (v, .stall c)

/-- Read 64 bytes of a return-stack entry or a gate descriptor at `a` through `c` (R95, R232): bytes and tags. The capability check
has passed, or is made here. What the other half does not answer, or Wick cannot carry, is reported at once, imprecisely
(R218, log 121). -/
def entryRead (v : Vig) (ch : Chip) (t : Nat) (c : Cap) (a align : Nat) : Ans ⊕ (List Byte × Nat × (Vig × Chip)) :=
  let x := ch.task t
  let far := fun (f : Far) =>
    match f with
    | .sent c => .inl (v, .stall c)
    | .out => .inl (v, .stall ch)
    | .got c code d tags =>
      if code = 0 then .inr (d, tags, (v, c))
      else if code = 0x31 ∨ code = 0x32 then
        .inl (v, .report c ⟨(c.core (tCore t)).seq, 1, code, 0, 0, x.priv, x.pcc.addr, a, x.tw⟩ false false)
      else .inl (v, .flt c ⟨code, 0, 0, a⟩)
  match x.reqOf 1 with
  | some o => far (ch.farGo v t 1 o 64)
  | none =>
    match ch.scalarAcc v t c a 64 [pLoad] align 1 true false with
    | .bad r => .inl (v, r)
    | .go g ps =>
      let k := g.core (tCore t)
      if k.sb.any (fun e => overlap e.pieces ps) ∨ g.nowWaits v t k.seq ps ∨ g.olderTouch t k.seq ps then .inl (v, .stall g)
      else if isRemote t ps then far (g.farGo v t 1 (g.entryOp v t .pop c a ps) 64)
      else
        match loadGo (g.who t c.colour a) ps (v, g) with
        | .bad code => .inl (v, .flt g ⟨code, 0, 0, a⟩)
        | .done d tags s => .inr (d, tags, s)

/-- A return-stack entry as popped (R96). -/
structure StackEntry where
  pcc : Cap
  dsc : Cap
  marker : Nat
  lc : Nat
  ls : Nat
  le : Nat
deriving DecidableEq, Repr

/-- An entry from its bytes and tags (R65, R96). -/
def stackEntry (rsc : Cap) (d : List Byte) (tags : Nat) : StackEntry :=
  let cap := fun (i : Nat) => (⟨tb tags i && rsc.has pLoadCap, BitVec.ofNat 128 (fieldB d (16 * i) 16)⟩ : Cap)
  ⟨cap 0, cap 1, fieldB d 32 8, fieldB d 40 8, fieldB d 48 8, fieldB d 56 8⟩

/-- Read the entry at RSC's cursor (R95): no epoch check; the cursor is not yet moved. -/
def stackTop (v : Vig) (ch : Chip) (t : Nat) : Ans ⊕ (StackEntry × (Vig × Chip)) :=
  let x := ch.task t
  match popCheck x.rsc with
  | some code => .inl (v, .flt ch ⟨code, 0, 0, x.rsc.addr⟩)
  | none =>
    match entryRead v ch t x.rsc x.rsc.addr 64 with
    | .inl r => .inl r
    | .inr (d, tags, s) => .inr (stackEntry x.rsc d tags, s)

/-- RSC after a pop (R95). -/
def Chip.popRsc (ch : Chip) (t : Nat) : Chip := ch.updTask t (fun x => { x with rsc := cpos x.rsc ((x.rsc.addr + 64) % 2 ^ 64) })

/-- The marker word of a return-stack entry (R96). -/
def marker (kind win priv comp token : Nat) : Nat :=
  kind + win * 2 ^ 8 + priv * 2 ^ 13 + comp * 2 ^ 16 + token * 2 ^ 32

/-- The check of a branch target (R136): the new PCC, or the cause. -/
def targetCheck (c : Cap) : Option Nat := checkCap c c.addr 4 [pExec] 4

/-- PCC with its cursor at a relative target, with the cause of a failing check (R135, R136). A target at which PCC is not
representable (R52) fails with CAP_BOUNDS where it lies out of bounds, and with CAP_TAG, of the untagged PCC, where it does not
(log 118). -/
def relTarget (pcc : Cap) (a : Nat) : Cap × Option Nat :=
  let c := movePcc pcc a
  (c, match checkCap pcc a 4 [pExec] 4 with
    | some k => some k
    | none => if c.tag then none else some 0x10)

/-- Take a branch whose target has been checked: the prediction's cost (R186 to R188). -/
def takeBranch (ch : Chip) (t w : Nat) (pcc : Cap) : Res :=
  let r := ch.resolve t (ch.task t).pcc.addr (staticTaken w) true pcc.addr
  .jump r.2 pcc r.1

/-- B (R135). -/
def bodyB (_v : Vig) (ch : Chip) (t w : Nat) : Res :=
  let x := ch.task t
  let a := addOff x.pcc.addr (4 * wSimm22 w)
  match relTarget x.pcc a with
  | (_, some code) => .flt ch ⟨code, 0, 0, a⟩
  | (pcc, none) => takeBranch ch t w pcc

/-- CALL and CALLR in the order of R161: WIN, the return stack's check of RSC, the target, then the push (R87, R95, R96, R135). A CALL
entry's TOKEN is 0 (log 115). -/
def callTo (v : Vig) (ch : Chip) (t w : Nat) (target : Cap × Option Nat) : Ans :=
  let x := ch.task t
  if x.tw ∨ x.win + 1 ≥ ch.windows (tCore t) then (v, .flt ch ⟨0x03, 0, 0, 0⟩)
  else
    let ret := movePcc x.pcc ((x.pcc.addr + 4) % 2 ^ 64)
    match pushCheck x.rsc x.pushAt (pushPerms ret Cap.null), target with
    | some code, _ => (v, .flt ch ⟨code, 0, 0, x.pushAt⟩)
    | none, (tc, some code) => (v, .flt ch ⟨code, 0, 0, tc.addr⟩)
    | none, (tc, none) =>
      match stackPush v ch t ret Cap.null [marker 1 x.win x.priv x.comp 0, 0, 0, 0] with
      | .inl r => r
      | .inr s => (s.1, takeBranch (s.2.updTask t (fun x => x.putStatus 8 5 (x.win + 1))) t w tc)

/-- CALL (R135). -/
def bodyCall : Body := fun v ch t w =>
  let x := ch.task t
  callTo v ch t w (relTarget x.pcc (addOff x.pcc.addr (4 * wSimm22 w)))

/-- JR (R135). -/
def bodyJr (_v : Vig) (ch : Chip) (t w : Nat) : Res :=
  let c := ch.rdReg t (wB w)
  match targetCheck c with
  | some code => .flt ch ⟨code, 0, 0, c.addr⟩
  | none => takeBranch ch t w c

/-- CALLR (R135). -/
def bodyCallr : Body := fun v ch t w =>
  let c := ch.rdReg t (wB w)
  callTo v ch t w (c, targetCheck c)

/-- RET (R87, R95, R96, R135). -/
def bodyRet : Body := fun v ch t w =>
  let x := ch.task t
  if x.tw ∨ x.win = 0 then (v, .flt ch ⟨0x03, 0, 0, 0⟩)
  else
    match stackTop v ch t with
    | .inl r => r
    | .inr (e, (v, c)) =>
      if bf e.marker 0 8 ≠ 1 ∨ bf e.marker 8 5 ≠ x.win - 1 then (v, .flt c ⟨0x06, 0, 0, x.rsc.addr⟩)
      else
        match targetCheck e.pcc with
        | some code => (v, .flt c ⟨code, 0, 0, e.pcc.addr⟩)
        | none => (v, takeBranch ((c.popRsc t).updTask t (fun x => x.putStatus 8 5 (x.win - 1))) t w e.pcc)

/-- LOOP (R137, R138, R189): with a count of 0 the body is skipped, at a cost of 4 cycles (R188). An MTS to LC, LS or LE whose result
is not visible yet (R170) is overtaken and dropped (log 119). -/
def bodyLoop (_v : Vig) (ch : Chip) (t w : Nat) : Res :=
  let x := ch.task t
  let pc := x.pcc.addr
  let lc := ch.rdW t (wA w)
  let off := wImm16 w
  let le := (pc + 4 * off) % 2 ^ 64
  let ch := ch.updTask t (fun x =>
    { x with lc := lc, ls := BitVec.ofNat 64 (pc + 4), le := BitVec.ofNat 64 le
             late := x.late.filter (fun l => match l.dst with
               | .loopReg _ => false
               | _ => true) })
  let ch := if off ≤ 64 ∧ lc.toNat ≥ 2 then
      ch.updCore (tCore t) (fun k => { k with loopBuf := some ⟨t, pc + 4, le, true, []⟩ }) else ch
  if lc = 0 then .jump ch (movePcc x.pcc ((le + 4) % 2 ^ 64)) 4 else .ok ch

/-- B. -/
def execB (t : Nat) (w : IWord) (s : State) : Out := insn t w .b bodyB s
/-- CALL. -/
def execCall (t : Nat) (w : IWord) (s : State) : Out := insnBoth t w .call bodyCall s
/-- JR. -/
def execJr (t : Nat) (w : IWord) (s : State) : Out := insn t w .jr bodyJr s
/-- CALLR. -/
def execCallr (t : Nat) (w : IWord) (s : State) : Out := insnBoth t w .callr bodyCallr s
/-- RET. -/
def execRet (t : Nat) (w : IWord) (s : State) : Out := insnBoth t w .ret bodyRet s
/-- LOOP. -/
def execLoop (t : Nat) (w : IWord) (s : State) : Out := insn t w .loop bodyLoop s

end Sys2Proof.Machine
end

