-- ==== Sys2Proof/Machine/DmaGo.lean ====
section
/-! DEFINITION. What a DMA descriptor does (R302 to R307): it is read, its pieces move, its end is written. Bytes of the other half
cross Wick as remote accesses (R265, R304). -/

namespace Sys2Proof.Machine

/-- What one DMA access answers: whether it still waits for the other half, the bytes read and their tags, whether a violation was
met, the cause of a failure or 0, and the state. -/
structure DmaRes where
  wait : Bool
  d : List Byte
  tags : Nat
  guard : Bool
  code : Nat
  s : Vig × Chip

/-- An access of engine `e` that its guard admits, in its own half: a write of `d`, or a read of `n` bytes. `late` says that its DRAM
request expires (R521): a read returns zero, a write is discarded. -/
def dmaNear (e : Nat) (c : Cap) (pa n : Nat) (d : Option (List Byte)) (late : Bool) (s : Vig × Chip) : DmaRes :=
  let zero := List.replicate n (0 : Byte)
  let w : Who := ⟨false, none, c.colour, 0, 0, 0, (65536 + e, 0)⟩
  if late ∧ s.2.ram.region pa = .dram then ⟨false, zero, 0, false, 0, (s.1, s.2.dramExpired s.1 pa)⟩
  else
    match d with
    | none =>
      (match loadGo w [⟨pa, n, false, 0⟩] s with
        | .bad code => ⟨false, zero, 0, false, code, s⟩
        | .done d tags s => ⟨false, d, tags, false, 0, s⟩)
    | some d =>
      (match storeGo w [⟨pa, n, false, 0⟩] false Cap.null d s with
        | .bad code => ⟨false, zero, 0, false, code, s⟩
        | .done s => ⟨false, zero, 0, false, 0, s⟩
        | .full => ⟨false, zero, 0, false, 0, s⟩)

/-- The request of engine `e` of half `h` to the other half. -/
def Chip.dmaAsk (v : Vig) (ch : Chip) (h e : Nat) (c : Cap) (pa n : Nat) (d : Option (List Byte)) : Chip :=
  (ch.memAsk v h 0xFFFFFF { task := 65536 + dmaKey h e, op := 0, kind := if d.isSome then .store else .load
                            pieces := [⟨pa, n, false, 0⟩], size := n, capw := false, colour := c.colour, fn := 0, val := Cap.null
                            val2 := Cap.null, cmp := 0, data := d.getD [], own := none, tenant := 0, comp := 0, mach := false
                            va := 0 }).dmaNote (dmaKey h e) (fun x => { x with far := some none })

/-- An access of engine `e` of half `h` (R304, R305, R316): a write of `d`, or a read of `n` bytes, through a capability; or the answer
to the one it has out. A channel held for retraining keeps it waiting (R467). -/
def dmaAcc (h e : Nat) (c : Cap) (pa n : Nat) (d : Option (List Byte)) (late : Bool) (s : Vig × Chip) : DmaRes :=
  let zero := List.replicate n (0 : Byte)
  let m := 0x104 + e
  match (mGet? s.2.dma (dmaKey h e)).bind (·.far) with
  | some none => ⟨true, zero, 0, false, 0, s⟩
  | some (some (code, b, tags)) =>
    ⟨false, sliceB b 0 n, tags, false, code, (s.1, s.2.dmaNote (dmaKey h e) (fun x => { x with far := none }))⟩
  | none =>
    match s.2.guardCap h m c true d.isNone d.isSome pa with
    | .perm => ⟨false, zero, 0, false, 0x12, s⟩
    | .violation r slot col => ⟨false, zero, 0, true, 0, (s.1, s.2.violate h m d.isSome r slot col 0 0 (pa % 2 ^ 41))⟩
    | .pass =>
      if paHalf pa = h ∧ s.2.chanHeld s.1 pa then ⟨true, zero, 0, false, 0, s⟩
      else if paHalf pa = h then dmaNear (dmaKey h e) c pa n d late s
      else if s.2.wickUp h then ⟨true, zero, 0, false, 0, (s.1, s.2.dmaAsk s.1 h e c pa n d)⟩
      else ⟨false, zero, 0, false, 0x32, s⟩

/-- A descriptor as it has been read (R303, R304): what the engine makes of its bytes and of the tags of SRC and DST. -/
def dmaDesc (d : List Byte) (tags : Nat) (x : Dma) : Dma :=
  let src : Cap := ⟨tb tags 0, BitVec.ofNat 128 (fieldB d 0 16)⟩
  let dst : Cap := ⟨tb tags 1, BitVec.ofNat 128 (fieldB d 16 16)⟩
  let len := fieldB d 32 8
  let op := fieldB d 40 1
  let fail :=
    if dmaBad d src.tag then some 0x01
    else
      match (if op = 1 then checkCap src src.addr len [pLoad, pDma] 1 else none) with
      | some k => some k
      | none => checkCap dst dst.addr len [pStore, pDma] 1
  { x with src := src, dst := dst, len := len, op := op, flags := fieldB d 41 1, pattern := fieldB d 48 8, fail := fail, phase := 1 }

/-- DMA_DESCRIPTOR_START (R302 to R304): the engine takes the next descriptor of its ring and checks it. -/
def dmaStart (h e : Nat) (s : Vig × Chip) : Vig × Chip :=
  let ch := s.2
  let k := dmaKey h e
  let c := ch.capReg HALF_DMA_RING h [e]
  let head := ch.fld HALF_DMA_HEAD HALF_DMA_HEAD_INDEX h [e]
  let cur := mGet? ch.dma k
  let go := match cur with
    | some d => d.phase = 0
    | none => head ≠ ch.fld HALF_DMA_TAIL HALF_DMA_TAIL_INDEX h [e] ∧ !ch.dmaHalted h e
  if h ≥ 2 ∨ e ≥ 4 ∨ (tGet ch.half h).inReset ∨ !go then s
  else
    let stop := fun (c : Chip) (code : Nat) =>
      ({ c with dma := mDel c.dma k }.setFld HALF_DMA_HEAD HALF_DMA_HEAD_RCAUSE h [e] code).dmaHalt h e
    match ringSize c [pLoad, pStore, pDma] 64 2 12 with
    | .inr code => (s.1, stop ch code)
    | .inl _ =>
      let new : Dma := ⟨head, Cap.null, Cap.null, 0, 0, 0, 0, 0, false, none, none, none, 0⟩
      let ch : Chip := if cur.isSome then ch else { ch with dma := mSet ch.dma k new }
      let r := dmaAcc h e c (dmaPa (c.base + 64 * head)) 64 none false (s.1, ch)
      if r.wait then r.s
      else if r.code ≠ 0 then (r.s.1, stop r.s.2 r.code)
      else (r.s.1, r.s.2.dmaNote k (dmaDesc r.d r.tags))

/-- The size of a DMA engine's next piece (R305): it crosses no line of its source or destination, and an overlapping copy does
not run ahead of itself. -/
def Dma.piece (d : Dma) : Nat :=
  let a := d.src.addr + d.moved
  let b := d.dst.addr + d.moved
  let n := min (d.len - d.moved) (64 - b % 64)
  if d.op = 1 then
    let n := min n (64 - a % 64)
    if a < b ∧ b < a + n then b - a else n
  else n

/-- The bytes of a piece that are to be written: those of FILL, or what the engine reads (R303, R305). -/
def dmaFetch (h e : Nat) (d : Dma) (late : Bool) (s : Vig × Chip) : DmaRes :=
  match d.buf with
  | some b => ⟨false, b, 0, false, 0, s⟩
  | none =>
    if d.op = 1 then dmaAcc h e d.src (dmaPa (d.src.addr + d.moved)) d.piece none late s
    else ⟨false, (List.range d.piece).map (fun i => BitVec.ofNat 8 (d.pattern >>> (8 * ((d.moved + i) % 8)))), 0, false, 0, s⟩

/-- The engine still has bytes of its descriptor to move; an abort lets it end its present piece (R306). -/
def Dma.moving (d : Dma) : Bool :=
  decide (d.phase = 1) && decide (d.moved < d.len) && (d.fail.isNone || d.buf.isSome || d.far.isSome)

/-- DMA_PIECE (R304, R305): an engine moves one piece, or goes on with the one it waits in. `rdLate` and `wrLate` say that the DRAM
request of its read or of its write expires (R521). -/
def dmaPiece (h e : Nat) (rdLate wrLate : Bool) (s : Vig × Chip) : Vig × Chip :=
  let k := dmaKey h e
  match mGet? s.2.dma k with
  | none => s
  | some d =>
    if h ≥ 2 ∨ e ≥ 4 ∨ !d.moving ∨ (tGet s.2.half h).inReset then s
    else
      let r := dmaFetch h e d rdLate s
      if r.wait then r.s
      else if r.code ≠ 0 then (r.s.1, r.s.2.dmaNote k (fun d => { d with fail := some r.code }))
      else
        let s := (r.s.1, r.s.2.dmaNote k (fun d => { d with buf := some r.d, guard := d.guard || r.guard }))
        let w := dmaAcc h e d.dst (dmaPa (d.dst.addr + d.moved)) d.piece (some r.d) wrLate s
        if w.wait then w.s
        else
          (w.s.1, w.s.2.dmaNote k (fun d =>
            if w.code ≠ 0 then { d with fail := some w.code, buf := none }
            else { d with moved := d.moved + d.piece, buf := none, guard := d.guard || w.guard }))

/-- Bytes 56 to 63 of a descriptor at its end (R303). -/
def Dma.ending (d : Dma) : List Byte :=
  [(if d.fail.isSome then 2 else 1), BitVec.ofNat 8 (d.fail.getD 0), BitVec.ofNat 8 (b2n d.guard), 0] ++ leBytes 4 d.moved

/-- An engine has written its descriptor's end (R306). -/
def Chip.dmaEnd (ch : Chip) (h e : Nat) (d : Dma) : Chip :=
  let size := match ringSize (ch.capReg HALF_DMA_RING h [e]) [pLoad, pStore, pDma] 64 2 12 with
    | .inl n => n
    | .inr _ => 4096
  let ch := ch.setFld HALF_DMA_HEAD HALF_DMA_HEAD_INDEX h [e] ((d.index + 1) % size)
  let ch := { ch with dma := mDel ch.dma (dmaKey h e) }
  let ch := if tb d.flags 0 then
      ch.setFld HALF_DMA_STAT HALF_DMA_STAT_DONE h [] (ch.fld HALF_DMA_STAT HALF_DMA_STAT_DONE h ||| 2 ^ e) else ch
  if d.fail.isSome then ch.dmaHalt h e else ch

/-- DMA_DESCRIPTOR_DONE (R303, R306): the descriptor has moved all its bytes, or failed, or was aborted; every write of it has been
performed, and its end is written. -/
def dmaDone (h e : Nat) (s : Vig × Chip) : Vig × Chip :=
  match mGet? s.2.dma (dmaKey h e) with
  | none => s
  | some d =>
    if d.phase = 0 ∨ d.moving ∨ (tGet s.2.half h).inReset then s
    else
      let c := s.2.capReg HALF_DMA_RING h [e]
      let s := (s.1, s.2.dmaNote (dmaKey h e) (fun d => { d with phase := 2 }))
      let r := dmaAcc h e c (dmaPa (c.base + 64 * d.index + 56)) 8 (some d.ending) false s
      if r.wait then r.s else (r.s.1, r.s.2.dmaEnd h e d)

/-- DMA_DESCRIPTOR_START. -/
def execDmaDescriptorStart (h e : Nat) (s : State) : Out := bothStep (fun v ch => dmaStart h e (v, ch)) s
/-- DMA_PIECE. -/
def execDmaPiece (h e : Nat) (rdLate wrLate : Bool) (s : State) : Out := bothStep (fun v ch => dmaPiece h e rdLate wrLate (v, ch)) s
/-- DMA_DESCRIPTOR_DONE. -/
def execDmaDescriptorDone (h e : Nat) (s : State) : Out := bothStep (fun v ch => dmaDone h e (v, ch)) s

end Sys2Proof.Machine
end

