-- ==== Sys2Proof/Machine/Gate.lean ====
section
/-! DEFINITION. Gates: GCALL and GRET (R97, R98, R199, R225, R226, R230 to R236, R289). -/

namespace Sys2Proof.Machine

/-- R97: the wait, the report and the resumption before a gate instruction takes effect; then every fixed-latency result
has been written. While an access of the gate instruction itself is under way in the other half, the wait lies behind it. -/
def gateWait (v : Vig) (ch : Chip) (t : Nat) (go : Chip → Ans) : Ans :=
  if ((ch.task t).reqOf 1).isSome then go ch
  else
    match syncGo ch t allClasses false with
    | .ok c => go (c.flush t)
    | r => (v, r)

/-- A gate descriptor's bytes are well formed (R230). -/
def descOk (d : List Byte) : Bool :=
  let b := fun (i : Nat) => fieldB d i 1
  let argc := b 20
  fieldB d 16 2 % 4 = 0 && argc ≤ 8 && bf (b 21) 0 2 ≤ 1 && bf (b 21) 3 5 = 0 && b 22 = 1 && fieldB d 23 9 = 0 &&
    fieldB d 48 16 = 0 && (!tb (b 21) 2 || fieldB d 18 2 = 0) &&
    (List.range 8).all (fun i => i < argc || fieldB d (32 + 2 * i) 2 = 0)

/-- An argument meets its requirement (R230, R232). -/
def argOk (q : Nat) (a : Cap) : Bool :=
  q = 0 || (a.tag && (a.otype = 0 || tb q 15) && a.perm &&& (q % 2 ^ 14) = q % 2 ^ 14)

/-- The register changes that GCALL and GRET share (R98, R199, R233): `groups` are zero-marked beside the globals and the
trap window. -/
def Chip.gateClear (ch : Chip) (t : Nat) (groups : List Nat) : Chip :=
  let ch := ch.zeroGroups t ([0, 1, 2, 3] ++ groups)
  let ch := ch.updTask t (fun x =>
    { ((x.putStatus 1 7 0).putStatus 22 1 0) with
      mh := 0, ml := 0, crcpoly := 0, lc := 0, ls := 0, le := 0, rc := 0, rsrc := Cap.null, rdst := Cap.null, vl := 0 })
  match (ch.core (tCore t)).ctxOf (tNum t) with
  | some c => ch.updCore (tCore t) (fun k => k.setCtx c { k.ctx c with zero := true, dirty := true })
  | none => ch

/-- The groups of the frames from `j` on (R99). -/
def frameGroups (w j : Nat) : List Nat := ((List.range w).filter (fun f => j ≤ f)).flatMap (fun f => [4 + 2 * f, 5 + 2 * f])

/-- The stage-1 descriptor of a callee in the cluster's descriptor cache (R289). -/
def Chip.fillDesc (v : Vig) (ch : Chip) (t comp ten : Nat) : Chip :=
  if coreSvc (tCore t) then ch else (ch.descriptor v (some ten) (tClu t) comp ten true).2

/-- The commit of GCALL after its entry is pushed (R232). -/
def Chip.gcallCommit (v : Vig) (ch : Chip) (t : Nat) (e dsc : Cap) (priv comp ten argc : Nat) : Res :=
  let k := (ch.task t).win
  let w := ch.windows (tCore t)
  let ch := (List.range 8).foldl (fun c i => if i < argc then c else c.wrReg t (32 + i) Cap.null) ch
  let ch := ch.gateClear t ([5 + 2 * (k + 1)] ++ frameGroups w (k + 2))
  let ch := ch.wrReg t 15 dsc
  let ch := ch.updTask t (fun x => { ((x.putStatus 8 5 (k + 1)).putStatus 13 2 priv) with comp := comp, tenant := ten })
  .jump (ch.fillDesc v t comp ten) e 4

/-- The checks of R232 from the arguments on, the push and the commit. -/
def gcallPush (v : Vig) (ch : Chip) (t : Nat) (e : Cap) (d : List Byte) (dsc : Cap) (priv comp ten : Nat) : Ans :=
  let x := ch.task t
  let argc := fieldB d 20 1
  match (List.range argc).find? (fun i => !argOk (fieldB d (32 + 2 * i) 2) (ch.rdReg t (32 + i))) with
  | some i => (v, .flt ch ⟨0x19, 0, 0, i⟩)
  | none =>
    let ret := sealReturn x.priv (movePcc x.pcc ((x.pcc.addr + 4) % 2 ^ 64))
    let token := x.tenant % 2 ^ 12 + (comp % 2 ^ 16) * 2 ^ 12 + priv * 2 ^ 28
    match pushCheck x.rsc x.pushAt (pushPerms ret (ch.rdReg t 15)) with
    | some code => (v, .flt ch ⟨code, 0, 0, x.pushAt⟩)
    | none =>
      match stackPush v ch t ret (ch.rdReg t 15) [marker 2 x.win x.priv x.comp token, x.lc.toNat, x.ls.toNat, x.le.toNat] with
      | .inl r => r
      | .inr s => (s.1, s.2.gcallCommit s.1 t e dsc priv comp ten argc)

/-- The checks of R232 on the descriptor that has been read. -/
def gcallDesc (v : Vig) (ch : Chip) (t : Nat) (g : Cap) (d : List Byte) (dsc : Cap) : Ans :=
  let x := ch.task t
  let u := g.put 80 12 0
  let bad : Ans := (v, .flt ch ⟨0x18, 0, 0, g.addr⟩)
  let e := cadv u (fieldB d 16 2)
  let priv := bf (fieldB d 21 1) 0 2
  let comp := fieldB d 18 2
  if !descOk d then bad
  else if !(e.tag && e.has pExec && e.base ≤ e.addr && e.addr + 4 ≤ e.top) then bad
  else if !dsc.tag || dsc.otype ≠ 0 then bad
  else if priv = 1 && !g.has pSystem then bad
  else if tb (fieldB d 21 1) 2 then gcallPush v ch t e d dsc priv x.comp x.tenant
  else
    match ch.record comp with
    | none => bad
    | some r =>
      if compHalf comp ≠ tHalf t || r.flag fExtinguished || r.gate ≠ g || r.priv ≠ priv then bad
      else gcallPush v ch t e d dsc priv comp (r.tenant % 2 ^ 12)

/-- GCALL (R232). -/
def bodyGcall : Body := fun v ch t w =>
  gateWait v ch t (fun ch =>
    let x := ch.task t
    let g := ch.rdReg t (wB w)
    if x.tw ∨ x.win + 1 ≥ ch.windows (tCore t) then (v, .flt ch ⟨0x03, 0, 0, 0⟩)
    else if !g.tag then (v, .flt ch ⟨0x10, 0, 0, g.addr⟩)
    else if g.otype ≠ 0xFFF then (v, .flt ch ⟨0x11, 0, 0, g.addr⟩)
    else if g.addr % 16 ≠ 0 then (v, .flt ch ⟨0x18, 0, 0, g.addr⟩)
    else
      match entryRead v ch t (g.put 80 12 0) g.addr 1 with
      | .inl r => r
      | .inr (d, tags, s) => gcallDesc s.1 s.2 t g d ⟨tb tags 0, BitVec.ofNat 128 (fieldB d 0 16)⟩)

/-- GRET (R235). -/
def bodyGret : Body := fun v ch t _ =>
  gateWait v ch t (fun ch =>
    let x := ch.task t
    if x.tw ∨ x.win = 0 then (v, .flt ch ⟨0x03, 0, 0, 0⟩)
    else
      match stackTop v ch t with
      | .inl r => r
      | .inr (e, (v, c)) =>
        let tok := bf e.marker 32 32
        let p := bf e.marker 13 2
        if bf e.marker 0 8 ≠ 2 ∨ bf e.marker 8 5 ≠ x.win - 1 then (v, .flt c ⟨0x06, 0, 0, x.rsc.addr⟩)
        else if bf tok 12 16 ≠ x.comp ∨ bf tok 28 2 ≠ x.priv then (v, .flt c ⟨0x1A, 0, 0, x.rsc.addr⟩)
        else if !validReturn p e.pcc then (v, .flt c ⟨0x1B, 0, 0, e.pcc.addr⟩)
        else
          let k := x.win
          let c := (c.popRsc t).gateClear t ([5 + 2 * k] ++ frameGroups (c.windows (tCore t)) (k + 1))
          let c := c.wrReg t 15 e.dsc
          let c := c.updTask t (fun x =>
            { ((x.putStatus 8 5 (k - 1)).putStatus 13 2 p) with
              comp := bf e.marker 16 16, tenant := bf tok 0 12
              lc := BitVec.ofNat 64 e.lc, ls := BitVec.ofNat 64 e.ls, le := BitVec.ofNat 64 e.le })
          (v, .jump c (returnPcc p e.pcc) 4))

/-- GCALL. -/
def execGcall (t : Nat) (w : IWord) (s : State) : Out := insnBoth t w .gcall bodyGcall s
/-- GRET. -/
def execGret (t : Nat) (w : IWord) (s : State) : Out := insnBoth t w .gret bodyGret s

end Sys2Proof.Machine
end

