-- ==== Sys2Proof/Machine/Session.lean ====
section
/-! DEFINITION. The end of a Taper session (R536). -/

namespace Sys2Proof.Machine

/-- The base of a half's core windows in its DBG block (R545). -/
def dbgBase (h : Nat) : Nat := h * 2 ^ 40 + 0xC00E001000

/-- The offset of an address in the core window that holds it, if it lies in one. -/
def dbgOffset (a : Nat) : Option Nat :=
  let go := fun (h : Nat) => dbgBase h ≤ a ∧ a < dbgBase h + 264 * 0x100
  if go 0 then some ((a - dbgBase 0) % 0x100) else if go 1 then some ((a - dbgBase 1) % 0x100) else none

/-- A breakpoint register with its EN cleared where it is set to halt (R536, R546): an instruction breakpoint of ACTION 0, and
every watchpoint. -/
def haltOff (a : Nat) (w : Word) : Word :=
  match dbgOffset a with
  | none => w
  | some o =>
    if (o < 0x40 ∧ !tb w.toNat 1) ∨ (0x40 ≤ o ∧ o < 0x80 ∧ o % 16 = 8) then BitVec.ofNat 64 (bfSet w.toNat 0 1 0) else w

/-- Every breakpoint and watchpoint that is set to halt is disabled. -/
def Chip.haltsOff (ch : Chip) : Chip :=
  { ch with csr := ch.csr.filterMap (fun e =>
      if (dbgOffset e.1).isNone then some e else if haltOff e.1 e.2 = 0 then none else some (e.1, haltOff e.1 e.2)) }

/-- Every halted task returns to Lamplighter, but an extinguished one of a service core (R238), and requested halts are withdrawn. -/
def Chip.resumeAll (ch : Chip) : Chip :=
  { ch with tasks := ch.tasks.map (fun e => (e.1, { e.2 with halted := e.2.dead, haltReq := false, stepping := false })) }

/-- The session ends (R536). -/
def endSession (s : Vig × Chip) : Vig × Chip :=
  match s.1.session with
  | none => s
  | some _ => ({ s.1 with session := none }, (s.2.resumeAll.haltsOff).raiseAttn 16)

end Sys2Proof.Machine
end

