-- ==== Sys2Proof/Machine/Life.lean ====
section
/-! DEFINITION. RESET and CSR access (R432, R435), the life cycle and its commands (R453, R512 to R515), and the I3C target
(R458 to R460). -/

namespace Sys2Proof.Machine

/-- CSR_READ and CSR_WRITE (R432): the access lies in a control block of the half. -/
def csrTarget (ch : Chip) (h a n : Nat) : Bool :=
  decide (a < 2 ^ 40) && decide (a % n = 0) && (ch.ram.region (h * 2 ^ 40 + a)).isCsr

/-- The guard check of Chandler's access (R314, R319, R432): true when the slot admits it; a denial is recorded. -/
def Chip.csrGuard (ch : Chip) (h pa : Nat) (wr : Bool) : Bool × Chip :=
  match (ch.ram.region pa).block with
  | some b => if ch.slotAllows h 0x100 b wr then (true, ch) else (false, ch.violate h 0x100 wr 0 (some b) 0 0 1 pa)
  | none => (false, ch)

/-- CSR_READ. -/
def opCsrRead : OpFn := fun h c s =>
  let a := c.par 16 8
  let pa := h * 2 ^ 40 + a
  if !csrTarget s.2 h a 8 then endCmd h c stParam [] s
  else
    let g := s.2.csrGuard h pa false
    if !g.1 then endCmd h c stParam [] (s.1, g.2)
    else
      let r := csrRead pa 8 (s.1, g.2)
      endCmd h c stOk r.1 r.2

/-- CSR_WRITE. -/
def opCsrWrite : OpFn := fun h c s =>
  let a := c.par 16 8
  let pa := h * 2 ^ 40 + a
  let n := if tb (c.par 32 1) 0 then 4 else 8
  if !csrTarget s.2 h a n then endCmd h c stParam [] s
  else
    let g := s.2.csrGuard h pa true
    if !g.1 then endCmd h c stParam [] (s.1, g.2)
    else endCmd h c stOk [] (csrWrite false pa (leBytes n (c.par 24 8)) false (s.1, g.2))

/-- A step of a command's execution is done; it goes on from `n`. -/
def goOn (h : Nat) (c : Cmd) (n : Nat) (s : Vig × Chip) : Vig × Chip := (s.1, s.2.updCmd h c.id (fun c => { c with aux := n }))

/-- RESET of a core (R435): drained as for self-test, then reset. -/
def resetCoreOp : OpFn := fun h c s =>
  let k := pathCore c.target
  let x := s.2.core k
  let idle := s.2.tasks.all (fun e => tCore e.1 ≠ k || (e.2.bound.isNone && e.2.ops.isEmpty))
  if c.aux = 0 then
    if x.inReset ∨ x.due.isSome then goOn h c 2 s
    else goOn h c 1 (s.1, s.2.updCore k (fun c => { c with drained := true }))
  else if c.aux = 1 then
    if x.inReset ∨ x.due.isSome then goOn h c 2 s
    else if idle then goOn h c 2 (s.1, s.2.updCore k (fun c => { c with due := some (0, s.1.clk) }))
    else s
  else if x.inReset ∨ x.due.isSome then s
  else endCmd h c stOk [] s

/-- Where each compartment of a cluster goes (R435), with the place it takes kept. -/
def Chip.homes (ch : Chip) (c pick : Nat) : List (Nat × Option Nat) :=
  ((ch.compsOf c).foldl (fun (a : Chip × List (Nat × Option Nat)) r =>
    let d := a.1.homeFor r c pick
    let ch := match d with
      | some d => (match a.1.placeIn d r.qlog2 with
        | some p => a.1.takePlace d r.id r.qlog2 p []
        | none => a.1)
      | none => a.1
    (ch, a.2 ++ [(r.id, d)])) (ch, [])).2

/-- A compartment that no other cluster takes stays for the reset (R435, FORCE): its queued events are discarded and counted,
and it waits for a place. -/
def Chip.strand (ch : Chip) (id : Nat) : Chip :=
  match ch.record id with
  | none => ch
  | some r =>
    let c := compHalf id * 16 + r.cluster
    let n := if r.qlog2 = 0 then 0 else (ch.queued r).length
    let ch := ch.cnt SCH_UNDELIV SCH_UNDELIV_COUNT (compHalf id) [r.cluster] n
    (ch.updClu c (fun k =>
      { k with slots := mDelIf k.slots (fun i => i = r.qslot && r.qlog2 ≠ 0), pend := k.pend.filter (· ≠ id) })).setFlag id fMoving true

/-- RESET of a cluster (R435): its compartments move first; `pick` is where the search for their places begins. -/
def resetCluOp (pick : Nat) : OpFn := fun h c s =>
  let u := pathClu c.target
  let x := s.2.clu u
  let me := 2 * c.id + h
  if c.aux = 0 then
    if x.inReset ∨ x.due.isSome then goOn h c 2 s
    else
      let l := s.2.homes u pick
      if l.any (fun e => e.2.isNone) ∧ !c.force then endCmd h c stNoRes [] s
      else goOn h c 1 (s.1, l.foldl (fun ch e => match e.2 with
        | some d => ch.startMove e.1 d (1 + me)
        | none => ch.strand e.1) s.2)
  else if c.aux = 1 then
    if x.inReset ∨ x.due.isSome then goOn h c 2 s
    else if s.2.moves.any (fun m => m.2.2 = 1 + me) then s
    else
      let bad := s.2.moveEnds.any (fun e => e.1 = me && e.2 = 0)
      let ch : Chip := { s.2 with moveEnds := s.2.moveEnds.filter (fun e => e.1 ≠ me) }
      if bad ∧ !c.force then endCmd h c stNoRes [] (s.1, ch)
      else
        let ch := (ch.compsOf u).foldl (fun ch r => if r.flag fMoving then ch else ch.strand r.id) ch
        goOn h c 2 (s.1, ch.updClu u (fun k => { k with due := some (0, s.1.clk) }))
  else if x.inReset ∨ x.due.isSome then s
  else endCmd h c stOk [] s

/-- RESET of the receiving half (R435): after 10 ms at most the commands still running end ABORTED, RESET ends, what waits is posted
(log 72), and the half resets. -/
def resetOwnOp : OpFn := fun h c s =>
  let others := ((tGet s.2.adrus h).cmds.filter (fun a => a.id ≠ c.id)).map (·.id)
  if c.aux = 0 then goOn h c (s.1.clk + 1) s
  else if !others.isEmpty ∧ s.1.clk + 1 < c.aux + 10000000 then s
  else
    let ch := others.foldl (fun ch i => ch.complete h i stAborted [] []) s.2
    let s := endCmd h c stOk [] (s.1, ch)
    let s := completionsPosted h (tGet s.2.adrus h).compl.length s
    (s.1, s.2.updHalf h (fun x => { x with due := some 3 }))

/-- RESET of the other half (R435), through the Vigil island: the command ends when that half is ready and Wick is up. -/
def resetFarOp : OpFn := fun h c s =>
  let o := 1 - h
  if c.aux = 0 then goOn h c 1 (s.1, s.2.updHalf o (fun x => if x.inReset then x else { x with due := some 3 }))
  else if (tGet s.2.half o).due.isSome ∨ !s.2.bothReady h then s
  else endCmd h c stOk [] s

/-- RESET. -/
def opReset (pick : Nat) : OpFn := fun h c s =>
  if pathLen c.target = 4 then resetCoreOp h c s
  else if pathLen c.target = 3 then resetCluOp pick h c s
  else if pathHalf c.target = h then resetOwnOp h c s
  else resetFarOp h c s

/-- LC_STATUS. -/
def opLcStatus : OpFn := fun h c s =>
  endCmd h c stOk ([BitVec.ofNat 8 s.1.lc, 0, 0, 0] ++ leBytes 4 s.1.entries) s

/-- The transitions that LC_ADVANCE accepts (R453): the next state of the sequence, and RETIRED (4) from any other state. -/
def lcMay (from_ to_ : Nat) : Bool := decide (from_ < 4) && (decide (to_ = from_ + 1) || decide (to_ = 4))

/-- A seal is in progress: its root is not in the flash (R513 step 2). -/
def Vig.sealBusy (v : Vig) : Bool := v.sealing.isSome || v.root.isSome

/-- Both halves are held in reset. -/
def Chip.lcHeld (ch : Chip) : Bool :=
  ch.half.h0.inReset && ch.half.h0.held && ch.half.h1.inReset && ch.half.h1.held

/-- Step 3 of a transition (R513): a debug session ends, and the halves are reset and held. -/
def lcHold (s : Vig × Chip) : Vig × Chip := halfReset 1 2 true (halfReset 0 2 true (endSession s))

/-- Step 4 of a transition (R513, R514), its commit point: the fuses of the new state are burnt. -/
def Vig.lcBurn (v : Vig) (to_ : Nat) : Vig := { v with lc := to_, entries := v.entries + 1 }

/-- Steps 5 to 7 of a transition (R513): the keys are replaced, the pair is unbound; the halves may then leave reset. -/
def lcFinish (to_ : Nat) (s : Vig × Chip) : Vig × Chip :=
  let v := ({ s.1.lcKeys to_ with restart := true, lcNext := none } : Vig).newKey
  let v := v.updPair (fun p => { p with role := 0, pos := 0, step := 0, helloSent := false, doneRecv := false, aliveHeld := false
                                        takeDue := none, failAt := none, gotYield := false })
  let free := fun (x : Half) => { x with held := false }
  (v, (s.2.updHalf 0 free).updHalf 1 free)

/-- The next stage of a transition to `to_` (R513): it waits for a seal in progress; then step 3, step 4, and steps 5 to 7. -/
def lcTransition (to_ : Nat) (s : Vig × Chip) : Vig × Chip :=
  if s.1.sealBusy then s
  else if !s.2.lcHeld || s.1.session.isSome then lcHold s
  else if s.1.lc ≠ to_ then (s.1.lcBurn to_, s.2)
  else lcFinish to_ s

/-- LC_ADVANCE (R453, R513): step 1 posts the completion. -/
def opLcAdvance : OpFn := fun h c s =>
  let t := c.par 16 1
  if !lcMay s.1.lc t ∨ c.par 20 4 ≠ 0x4C430000 + t then endCmd h c stParam [] s
  else
    let n := (tGet s.2.adrus h).compl.length
    let s := endCmd h c stOk [] s
    let s := completionPost h n true s.1 s.2
    ({ s.1 with lcNext := some t }, s.2)

/-- The LC_ADVANCE row: the command with the first stage of its transition, and in later rows one stage each, so that power may be lost
between them (R514, log 72). -/
def lcAdvance (h id : Nat) (s : Vig × Chip) : Vig × Chip :=
  let s := if s.1.lcNext.isSome then s else runOp 0x701 h id opLcAdvance s
  match s.1.lcNext with
  | some t => lcTransition t s
  | none => s

/-- The identity statement (R453): what the signature covers. -/
def identityBody (v : Vig) (nonce : List Byte) : List Byte :=
  edPublic (keyBytes 0) ++ nonce ++ [BitVec.ofNat 8 v.lc] ++ leBytes 4 v.entries ++ edPublic (keyBytes v.entries)

/-- IDENTITY_READ. -/
def opIdentityRead : OpFn := fun h c s =>
  if !c.bufOk 256 then endCmd h c stParam [] s
  else
    let b := identityBody s.1 (sliceB c.entry 16 32)
    endBuf h c [] (sliceB (b ++ edSign (keyBytes 0) b) 0 256) s

/-- A scope of debug keys and tokens (R453, R533): a tenant, or 0xFFFF for the device. -/
def scopeOk (n : Nat) : Bool := decide (n < 4096) || decide (n = 0xFFFF)

/-- DBGKEY_SET. -/
def opDbgkeySet : OpFn := fun h c s =>
  let n := c.par 16 2
  if !scopeOk n then endCmd h c stParam [] s
  else if n = 0xFFFF ∧ s.1.lc ≠ 1 then endCmd h c stPermit [] s
  else endCmd h c stOk [] ({ s.1 with dbgKeys := mSet s.1.dbgKeys n (sliceB c.entry 24 32) }, s.2)

/-- DBG_REVOKE: no token of the scope verifies any more, and a session opened with one ends (R536). -/
def opDbgRevoke : OpFn := fun h c s =>
  let n := c.par 16 2
  if !scopeOk n then endCmd h c stParam [] s
  else
    let s := if (s.1.session.map (·.scope)) = some n then endSession s else s
    endCmd h c stOk [] ({ s.1 with dbgKeys := mDel s.1.dbgKeys n }, s.2)

/-- I3C_COMMAND (R458): a private write of 64 bytes; it is not acknowledged while a command is outstanding, or before the
target has an address. Half 0's Chandler executes it, or half 1's while half 0 is in reset. -/
def i3cCommand (b : List Byte) (v : Vig) (ch : Chip) : Vig × Chip :=
  let h := if ch.half.h0.inReset then 1 else 0
  if b.length ≠ 64 ∨ v.i3c.addr = 0 ∨ v.i3c.busy ∨ (tGet ch.half h).inReset then (v, ch)
  else
    let n := (tGet ch.adrus h).next
    let c : Cmd := { id := n, src := .i3c, org := 0, entry := b, at_ := v.clk, sqHead := 0, part := none, started := false, fwd := false
                     acked := false, timedOut := false, aux := 0 }
    let ch := ch.updAdrus h (fun x => { x with next := n + 1, cmds := x.cmds ++ [c] })
    let v : Vig := { v with i3c := { v.i3c with busy := true } }
    let st := c.admission v ch
    if st = 0 then (v, ch) else (v, ch.complete h n st [] [])

/-- I3C_HEALTH_READ (R460). -/
def i3cHealthRead (ch : Chip) (v : Vig) : Vig :=
  if v.i3c.addr = 0 then v else { v with i3c := { v.i3c with sent := healthRecord v ch } }

/-- I3C_CCC (R458): `x` is the address, the event bits or the length that the code carries. -/
def i3cCcc (c : Ccc) (x : Nat) (v : Vig) : Vig :=
  let i := v.i3c
  let set := fun (i : I3c) => ({ v with i3c := i } : Vig)
  let give := fun (b : List Byte) => if i.addr = 0 then v else set { i with sent := b }
  match c with
  | .entdaa => if i.addr = 0 then set { i with addr := x % 128 } else v
  | .setdasa => if i.addr = 0 then set { i with addr := x % 128 } else v
  | .rstdaa => set { i with addr := 0 }
  | .setnewda => if i.addr = 0 then v else set { i with addr := x % 128 }
  | .getpid => give (leBytes 6 (Config.unstated 1))
  | .getbcr => give (leBytes 1 (Config.unstated 2))
  | .getdcr => give (leBytes 1 (Config.unstated 3))
  | .getstatus => give (leBytes 2 (Config.unstated 4))
  | .enec => if tb x 0 then set { i with ibi := true } else v
  | .disec => if tb x 0 then set { i with ibi := false } else v
  | .getmwl => give (beBytes 2 i.mwl)
  | .getmrl => give (beBytes 2 i.mrl)
  | .setmwl => set { i with mwl := x % 65536 }
  | .setmrl => set { i with mrl := x % 65536 }

/-- RESET. -/
def execReset (h id pick : Nat) (s : State) : Out := opRow 0x6 h id (opReset pick) s
/-- CSR_READ. -/
def execCsrRead (h id : Nat) (s : State) : Out := opRow 0x7 h id opCsrRead s
/-- CSR_WRITE. -/
def execCsrWrite (h id : Nat) (s : State) : Out := opRow 0x8 h id opCsrWrite s
/-- LC_STATUS. -/
def execLcStatus (h id : Nat) (s : State) : Out := opRow 0x700 h id opLcStatus s
/-- LC_ADVANCE. -/
def execLcAdvance (h id : Nat) (s : State) : Out := bothStep (fun v ch => lcAdvance h id (v, ch)) s
/-- IDENTITY_READ. -/
def execIdentityRead (h id : Nat) (s : State) : Out := opRow 0x702 h id opIdentityRead s
/-- DBGKEY_SET. -/
def execDbgkeySet (h id : Nat) (s : State) : Out := opRow 0x703 h id opDbgkeySet s
/-- DBG_REVOKE. -/
def execDbgRevoke (h id : Nat) (s : State) : Out := opRow 0x704 h id opDbgRevoke s
/-- I3C_COMMAND. -/
def execI3cCommand (b : List Byte) (s : State) : Out := bothStep (i3cCommand b) s
/-- I3C_HEALTH_READ. -/
def execI3cHealthRead (s : State) : Out := vigStep i3cHealthRead s
/-- I3C_CCC. -/
def execI3cCcc (c : Ccc) (x : Nat) (s : State) : Out := vigStep (fun _ v => i3cCcc c x v) s

end Sys2Proof.Machine
end

