-- ==== Sys2Proof/Machine/Multi.lean ====
section
/-! DEFINITION. STM and LDM (R103 to R105, R134). -/

namespace Sys2Proof.Machine

/-- What one slot answers: it is transferred; it faults; it meets a watchpoint; it stalls; or, with an event pending, it is where
the instruction stops. -/
inductive Slot where
  | done (s : Vig × Chip)
  | flt (ch : Chip) (f : Flt)
  | halt (ch : Chip)
  | stall (ch : Chip)
  | stop (ch : Chip)

/-- What the environment does to a slot: an event is pending; the slot hits L1; its DRAM request expires (R105, R521). -/
structure SlotEnv where
  stopping : Bool
  hits : Bool
  ue : Bool

/-- The request of a slot that lies in the other half (R105, R265); a slot is no long operation. -/
def Chip.slotOp (v : Vig) (ch : Chip) (t : Nat) (kind : OpKind) (c : Cap) (a : Nat) (val : Cap) (ps : List Piece) : LongOp :=
  { ch.passed t ps (ch.newOp v t kind 1) with
    va := a, size := 16, capw := true, colour := c.colour, b := val, data := leBytes 16 val.bits.toNat }

/-- A slot that the other half does not answer, or that Wick cannot carry, is recorded as a failure of a remote access, reported
imprecisely, and the instruction goes on with the next (R27, R28, R218; log 121). -/
def Chip.slotLost (ch : Chip) (t a code : Nat) : Chip :=
  let x := ch.task t
  let f : Fail := ⟨(ch.core (tCore t)).seq, 1, code, 0, 0, x.priv, x.pcc.addr, a, x.tw⟩
  (ch.updTask t (fun x => { x with fails := x.fails ++ [f] })).updCore (tCore t) (fun k => { k with seq := k.seq + 1 })

/-- What a slot of the other half came to: `go` follows with its answer. -/
def slotFar (t a : Nat) (f : Far) (s : Vig × Chip) (go : List Byte → Nat → Vig × Chip → Slot) : Slot :=
  match f with
  | .sent ch => .stall ch
  | .out => .stall s.2
  | .got ch code d tags =>
    if code = 0 then go d tags (s.1, ch)
    else if code = 0x31 ∨ code = 0x32 then .done (s.1, ch.slotLost t a code)
    else .flt ch ⟨code, 0, 0, a⟩

/-- The checks of a slot (R61, R103) and its order, after the task's older stores; then it is made here by `near`, or in the other half,
whose answer `far` takes. -/
def slotAcc (t a : Nat) (kind : OpKind) (c val : Cap) (perms : List Nat) (e : SlotEnv) (s : Vig × Chip)
    (near : List Piece → Vig × Chip → Slot) (far : List Piece → List Byte → Nat → Vig × Chip → Slot) : Slot :=
  let st := kind = .store
  match (s.2.task t).reqOf 1 with
  | some o => slotFar t a (s.2.farGo s.1 t 1 o 16) s (far o.pieces)
  | none =>
    match s.2.scalarAcc s.1 t c a 16 perms 16 (if st then 2 else 1) (!st) st with
    | .bad (.flt ch f) => .flt ch f
    | .bad (.halt ch _) => .halt ch
    | .bad _ => .stall s.2
    | .go ch ps =>
      let k := ch.core (tCore t)
      if e.stopping && !(ch.ownLocal t ps || (e.hits && !ch.inCsr ps && !isRemote t ps)) then .stop ch
      else if k.sb.any (fun b => decide (b.task = t) || overlap b.pieces ps) ∨ ch.nowWaits s.1 t k.seq ps ∨ ch.olderTouch t k.seq ps then
        .stall ch
      else if isRemote t ps then slotFar t a (ch.farGo s.1 t 1 (ch.slotOp s.1 t kind c a val ps) 16) (s.1, ch) (far ps)
      else
        match (if e.ue then ch.dramPiece ps else none) with
        | some pa => .flt (ch.dramExpired s.1 pa) ⟨0x30, 0, 0, a⟩
        | none => near ps (s.1, ch)

/-- STM stores one register (R64, R103). -/
def stmSlot (t a : Nat) (c : Cap) (f : Nat) (e : SlotEnv) (s : Vig × Chip) : Slot :=
  let val := match s.2.multiEntry t f with
    | some r => s.2.rdEntry r
    | none => Cap.null
  let perms := [pStore] ++ (if val.tag then [pStoreCap] ++ (if val.has pGlobal then [] else [pStoreLocal]) else [])
  slotAcc t a .store c val perms e s
    (fun ps s =>
      match storeGo (s.2.who t c.colour a) ps true val (leBytes 16 val.bits.toNat) s with
      | .full => .stall s.2
      | .bad code => .flt s.2 ⟨code, 0, 0, a⟩
      | .done s => .done s)
    (fun _ _ _ s => .done s)

/-- LDM loads one register (R65, R72, R103). -/
def ldmSlot (t a : Nat) (c : Cap) (f : Nat) (e : SlotEnv) (s : Vig × Chip) : Slot :=
  let put := fun (ps : List Piece) (d : List Byte) (tags : Nat) (s : Vig × Chip) =>
    let x := s.2.task t
    let val := s.2.loadVal (tHalf t) x.tenant x.priv 16 false true (c.has pLoadCap) (s.2.inClm ps) d (tb tags 0)
    Slot.done (s.1, match s.2.multiEntry t f with
      | some r => s.2.wrEntry r val
      | none => s.2)
  slotAcc t a .load c Cap.null [pLoad] e s
    (fun ps s =>
      match loadGo (s.2.who t c.colour a) ps s with
      | .bad code => .flt s.2 ⟨code, 0, 0, a⟩
      | .done d tags s => put ps d tags s)
    put

/-- An event or exception is pending for a task that has transferred `n` registers (R105): from `stop` on, or because it is to be
unbound, killed or halted. -/
def Chip.multiStops (v : Vig) (ch : Chip) (t n : Nat) (stop : Option Nat) : Bool :=
  let x := ch.task t
  ((stop.map (fun k => decide (k ≤ n))).getD false) || ch.leaving t || (x.haltReq && v.rights x)

/-- A mask and a base as an STM or LDM read them, and what its environment does: `stop` registers after which an event is pending,
and what the slots meet. -/
structure MultiEnv where
  mask : Nat
  base : Cap
  stop : Option Nat
  luck : SlotLuck

/-- The slots of STM and LDM in ascending order (R103, R105): register fields with their addresses; `n` have been transferred. A slot
that stalls keeps what was read at issue. -/
def multiGo (t : Nat) (m : MultiEnv) (slot : Nat → Nat → SlotEnv → Vig × Chip → Slot) : List (Nat × Nat) → Nat → Vig × Chip → Vig × Res
  | [], _, s => (s.1, .ok (s.2.updTask t (fun x => x.putStatus 22 1 0)))
  | (f, a) :: r, n, s =>
    let ev := s.2.multiStops s.1 t n m.stop
    let mark := fun (ch : Chip) => ch.updTask t (fun x => x.markStop f)
    if ev ∧ 16 ≤ n then (s.1, .part (mark s.2))
    else
      match slot f a ⟨ev, m.luck.hits, m.luck.ue = some n⟩ s with
      | .done u => multiGo t m slot r (n + 1) u
      | .flt ch x => (s.1, .flt (mark ch) x)
      | .halt ch => (s.1, if n = 0 then .halt ch 5 else .part ((mark ch).haltTask t 5))
      | .stall ch => (s.1, .stall (ch.updTask t (fun x => { x with multi := some ⟨n, f, m.mask, m.base⟩ })))
      | .stop ch => (s.1, .part (mark ch))

/-- The registers that an STM or LDM with a mask transfers from field `lo` on, with the address of each slot (R103, R105). The check
of a base that is not 16-byte aligned is that of its slots: with no register selected there is none (log 116). -/
def multiSlots (mask : Nat) (base : Cap) (w lo : Nat) : List (Nat × Nat) :=
  let fs := maskFields mask
  let a := addOff base.addr (wSimm10 w * 16)
  ((fs.zip (List.range fs.length)).map (fun e => (e.1, (a + 16 * e.2) % 2 ^ 64))).filter (fun e => decide (lo ≤ e.1))

/-- STM or LDM: started, resumed where MPV says so, or going on after a stall (R103, R105). -/
def multiBody (slot : Cap → Nat → Nat → SlotEnv → Vig × Chip → Slot) (stop : Option Nat) (luck : SlotLuck) : Body :=
  fun v ch t w =>
    let x := ch.task t
    let go := fun (mask : Nat) (base : Cap) (lo n : Nat) =>
      multiGo t ⟨mask, base, stop, luck⟩ (slot base) (multiSlots mask base w lo) n (v, ch)
    match x.multi with
    | some m => go m.mask m.base m.next m.n
    | none => go (ch.rdInt t (wA w)) (ch.rdReg t (wB w)) (if x.mpv then x.mpos else 0) 0

/-- STM (R103). -/
def bodyStm (t : Nat) (stop : Option Nat) (luck : SlotLuck) : Body :=
  multiBody (fun c f a e s => stmSlot t a c f e s) stop luck

/-- LDM (R103). -/
def bodyLdm (t : Nat) (stop : Option Nat) (luck : SlotLuck) : Body :=
  multiBody (fun c f a e s => ldmSlot t a c f e s) stop luck

/-- STM. -/
def execStm (t : Nat) (w : IWord) (stop : Option Nat) (luck : SlotLuck) (s : State) : Out := insnBoth t w .stm (bodyStm t stop luck) s
/-- LDM. -/
def execLdm (t : Nat) (w : IWord) (stop : Option Nat) (luck : SlotLuck) (s : State) : Out := insnBoth t w .ldm (bodyLdm t stop luck) s

end Sys2Proof.Machine
end

