-- ==== Sys2Proof/Machine/Perform.lean ====
section
/-! DEFINITION. Long operations are performed and end (R174 to R177, R209 to R213, R298), stores drain (R183, R185), remote accesses
arrive (R67, R272), and DRAM requests expire (R521). -/

namespace Sys2Proof.Machine

/-- Write a long operation's destination entry (R88, R175), unless its result is discarded. -/
def Chip.opWrite (ch : Chip) (o : LongOp) (c : Cap) : Chip := if o.drop then ch else ch.wrEntry o.dst c

/-- A load ends with its data (R175). -/
def Chip.loadEnd (ch : Chip) (t : Nat) (o : LongOp) (d : List Byte) (tag : Bool) : Chip :=
  (ch.opWrite o (ch.loadVal (tHalf t) o.tenant o.fpriv o.size o.sext o.capw o.loadCap (ch.inClm o.pieces) d tag)).endOp t o.id

/-- An atomic ends with the old value (R133). -/
def Chip.atomicEnd (ch : Chip) (t : Nat) (o : LongOp) (d : List Byte) : Chip :=
  (ch.opWrite o (extendLoad o.size o.sext (leNat d))).endOp t o.id

/-- A scalar operation of a task must wait for an older access (R270, R275, R315). -/
def Chip.scalarWaits (v : Vig) (ch : Chip) (t : Nat) (o : LongOp) : Bool := ch.opWaits v t o || ch.olderTouch t o.id o.pieces

/-- A load of the own half, or one that forwarding has answered, completes (R174, R175). -/
def loadPerform (t : Nat) (o : LongOp) (s : Vig × Chip) : Vig × Chip :=
  if s.2.scalarWaits s.1 t o then s
  else
    match loadGo (o.who t) o.pieces s with
    | .bad code => (s.1, s.2.failOp t o code 0 0 o.va)
    | .done d tags r => (r.1, r.2.loadEnd t o d (tb tags 0))

/-- An atomic of the own half completes (R133). -/
def atomicPerform (t : Nat) (o : LongOp) (s : Vig × Chip) : Vig × Chip :=
  if s.2.scalarWaits s.1 t o then s
  else
    match atomicGo (o.who t) o.fn o.size o.a.addr o.b o.pieces s with
    | .inr _ => s
    | .inl (.bad code) => (s.1, s.2.failOp t o code 0 0 o.va)
    | .inl (.done d _ r) => (r.1, r.2.atomicEnd t o d)

/-- DFLUSH on a line (R153): `.I` concerns the L1 data cache alone, whose content is memory's (R272); `.C` writes a dirty line of L2
back and keeps it, `.CI` gives it up as well. -/
def Chip.dflush (v : Vig) (ch : Chip) (t fn pa : Nat) : Chip :=
  if coreSvc (tCore t) ∨ fn = 1 ∨ ch.ram.region pa ≠ .dram then ch else ch.l2Back v (tClu t) pa (fn = 2)

/-- A maintenance instruction on a line completes (R153): IFLUSH invalidates it for fetch; the others act on the data caches of
the task's core and cluster. -/
def maintPerform (t : Nat) (o : LongOp) (s : Vig × Chip) : Vig × Chip :=
  let pa := (o.pieces.head?.map (·.pa)).getD 0
  if o.fn = 0 then (s.1, (s.2.iflushLine (tHalf t) pa o.va).endOp t o.id)
  else if o.fn ≤ 3 then (s.1, (s.2.dflush s.1 t o.fn pa).endOp t o.id)
  else s

/-- The check of one element of a vector operation (R209): its pieces, or the failure, with the entry that wants A or D. -/
def Chip.elemCheck (v : Vig) (ch : Chip) (t : Nat) (o : LongOp) (a : Nat) : Chip × (List Piece ⊕ (Flt × Nat)) :=
  let st := o.kind = .vst
  match checkCap o.cap a o.size [if st then pStore else pLoad] 1 with
  | some code => (ch, .inr (⟨code, 0, 0, a⟩, 0))
  | none =>
    let r := ch.xlateAs v t o.comp o.tenant o.fpriv o.tw a o.size (if st then 2 else 1)
    match r.2.2 with
    | some b => (r.1, .inr ({ b.flt with fdata := a }, b.leaf))
    | none =>
      match r.1.guardAs t o.fpriv o.cap (!st) st (r.2.1.map (·.pa)) with
      | (c, 0) =>
        let near := r.2.1.filter (fun p => paHalf p.pa = tHalf t && !(c.ram.region p.pa).isCsr)
        let code := c.checkLines (o.who t).own o.colour st near
        if code ≠ 0 then (c, .inr (⟨code, 0, 0, a⟩, 0)) else (c, .inl r.2.1)
      | (c, code) => (c, .inr (⟨code, 0, 0, a⟩, 0))

/-- The elements of a vector operation from address `a` on, `n` of them: the pieces of those that pass before the first that
does not, how many those are, and the first failure (R212). -/
def Chip.elemsCheck (v : Vig) (t : Nat) (o : LongOp) : Nat → Nat → Chip → Chip × List Piece × Nat × Option (Flt × Nat)
  | 0, _, ch => (ch, [], 0, none)
  | n + 1, a, ch =>
    match ch.elemCheck v t o a with
    | (c, .inr f) => (c, [], 0, some f)
    | (c, .inl ps) =>
      let r := Chip.elemsCheck v t o n (a + o.size) c
      (r.1, ps ++ r.2.1, r.2.2.1 + 1, r.2.2.2)

/-- The bytes of a vector load's pieces, lowest first, up to the first that cannot be read, and the cause of that: those of the
other half are taken from `far`, which ends with cause `code`; the others are read. -/
def vecRead (t : Nat) (w : Who) (code : Nat) : List Piece → List Byte → Vig × Chip → List Byte × Nat × (Vig × Chip)
  | [], _, s => ([], 0, s)
  | p :: r, far, s =>
    if paHalf p.pa ≠ tHalf t then
      if far.length < p.len then (far, code, s)
      else
        let x := vecRead t w code r (far.drop p.len) s
        (far.take p.len ++ x.1, x.2)
    else
      match loadGo w [p] s with
      | .bad k => ([], k, s)
      | .done d _ s =>
        let x := vecRead t w code r far s
        (d ++ x.1, x.2)

/-- The bytes of `d` that go to the pieces of the other half. -/
def farData (t : Nat) : List Piece → List Byte → List Byte
  | [], _ => []
  | p :: r, d => (if paHalf p.pa ≠ tHalf t then d.take p.len else []) ++ farData t r (d.drop p.len)

/-- The bytes before the first piece of the other half that `n` bytes do not cover. -/
def passedBytes (t : Nat) : List Piece → Nat → Nat
  | [], _ => 0
  | p :: r, n =>
    if paHalf p.pa ≠ tHalf t then if n < p.len then n else p.len + passedBytes t r (n - p.len)
    else p.len + passedBytes t r n

/-- A vector load ends with its first `k` elements (R201, R212): VL is lowered when fewer than all were read. -/
def Chip.vloadEnd (ch : Chip) (t : Nat) (o : LongOp) (k : Nat) (d : List Byte) : Chip :=
  let put := fun (ch : Chip) =>
    let m := 2 ^ (8 * o.size * k) - 1
    let v := leNat (d.take (o.size * k))
    let ch := (List.range o.fn).foldl (fun c j =>
      c.land t ⟨0, .vreg (o.dst + j) (bf m (128 * j) 128), ⟨false, BitVec.ofNat 128 (bf v (128 * j) 128)⟩⟩) ch
    if k < o.n then ch.updTask t (fun x => { x with vl := BitVec.ofNat 64 k }) else ch
  (if o.drop then ch else put ch).endOp t o.id

/-- A vector load meets failure `f` at element `i`, before which it has read the bytes `d` (R212, R213): VLDFF keeps them. -/
def Chip.vloadFail (ch : Chip) (t : Nat) (o : LongOp) (i : Nat) (f : Flt) (d : List Byte) : Chip :=
  if o.kind = .vldff ∧ 0 < i then ch.vloadEnd t o i d
  else ch.failOp t o f.code f.stage f.level (o.va + o.size * i)

/-- A vector load whose first `k` elements passed, with the answer of the other half for its pieces there, ends (R209 to R213): `bad`
is the failure of element `k`, where it has one. -/
def vloadDone (t : Nat) (o : LongOp) (k : Nat) (ps : List Piece) (far : List Byte) (code : Nat) (bad : Option Flt) (s : Vig × Chip) :
    Vig × Chip :=
  let r := vecRead t (o.who t) code ps far s
  let s := r.2.2
  let got := r.1.length / o.size
  if got < k then (s.1, s.2.vloadFail t o got ⟨r.2.1, 0, 0, 0⟩ r.1)
  else
    match bad with
    | some f => (s.1, s.2.vloadFail t o k f r.1)
    | none => (s.1, s.2.vloadEnd t o k r.1)

/-- Store the pieces of a vector operation that lie in the own half, whose other pieces the other half has stored (R209, R210). The
lines of the vector were checked together before its first byte was written, and are not checked again (log 114). None while a
mirror queue is full. -/
def vecNear (t : Nat) (w : Who) : List Piece → List Byte → Vig × Chip → Option (Vig × Chip)
  | [], _, s => some s
  | p :: r, d, s =>
    let b := d.take p.len
    let next := vecNear t { w with va := w.va + p.len } r (d.drop p.len)
    if paHalf p.pa ≠ tHalf t then next s
    else if (s.2.ram.region p.pa).isCsr then next (csrWrite w.mach p.pa b false s)
    else
      let ch := s.2.dramTouch s.1 t w.tenant true [p]
      match mirrorStored w [p] (s.1, { ch with ram := ch.ram.storeBytes w.colour [p] b }) with
      | .done s => next s
      | _ => none

/-- A vector store whose elements have passed, and whose pieces of the other half are stored, ends (R209, R210). -/
def vstoreDone (t : Nat) (o : LongOp) (ps : List Piece) (s : Vig × Chip) : Vig × Chip :=
  if isRemote t ps then
    match vecNear t (o.who t) ps o.data s with
    | some r => (r.1, r.2.endOp t o.id)
    | none => s
  else
    match storeGo (o.who t) ps false Cap.null o.data s with
    | .done r => (r.1, r.2.endOp t o.id)
    | .bad code => (s.1, s.2.failOp t o code 0 0 o.va)
    | .full => s

/-- Ask the other half for the pieces of a vector operation's first `k` elements that lie there (R28, R174, R366): a store with a
failure `bad` of its own asks for the check alone, and sends no bytes. -/
def Chip.vecAsk (v : Vig) (ch : Chip) (t : Nat) (o : LongOp) (k : Nat) (ps : List Piece) (bad : Option Flt) : Chip :=
  let far := ps.filter (fun p => paHalf p.pa ≠ tHalf t)
  let n := far.foldl (fun n p => n + p.len) 0
  let o := { ch.passed t ps o with a := Cap.ofNat k, remote := true, bad := bad }
  let ch := if coreSvc (tCore t) then ch else ch.meter (tHalf t) v.parity o.tenant 14 n
  let ch := (ch.updTask t (fun x => { x with ops := x.ops.map (fun p => if p.id = o.id then o else p) })).updCore (tCore t)
    (fun c => { c with passes := c.passes + 1 })
  ch.memAsk v (tHalf t) (srcOf t)
    (({ o with pieces := far, data := if o.kind = .vst ∧ bad.isNone then farData t ps o.data else [] } : LongOp).req t)

/-- A vector operation whose first `k` elements passed here goes on (R28, R209 to R213): it asks the other half for its pieces there,
or ends; `bad` is the failure of element `k`, where it has one. -/
def vecGo (t : Nat) (o : LongOp) (k : Nat) (ps : List Piece) (bad : Option Flt) (s : Vig × Chip) : Vig × Chip :=
  if isRemote t ps ∧ s.2.wickUp (tHalf t) then (s.1, s.2.vecAsk s.1 t o k ps bad)
  else if o.kind = .vst then
    let down : Option Flt := if isRemote t ps then some ⟨0x32, 0, 0, o.va + o.size * (passedBytes t ps 0 / o.size)⟩ else bad
    match down with
    | some f => (s.1, s.2.failOp t o f.code f.stage f.level f.fdata)
    | none => vstoreDone t o ps s
  else vloadDone t o k ps [] 0x32 bad s

/-- A vector memory operation must wait (R211, R315): the operations of one task are performed in issue order, and not before the
task's older buffered stores that they overlap have drained. -/
def Chip.vecWaits (v : Vig) (ch : Chip) (t : Nat) (o : LongOp) : Bool :=
  let guess := ch.opPieces v t o
  (ch.task t).ops.any (fun p => Chip.opPieces.cls3 p && p.id < o.id) ||
    (ch.core (tCore t)).sb.any (fun e => decide (e.task = t) && decide (e.id < o.id) && Machine.overlap e.pieces guess) ||
    ch.nowWaits v t o.id guess

/-- A vector memory operation is performed (R209 to R213, R298). -/
def vecPerform (t : Nat) (o : LongOp) (s : Vig × Chip) : Vig × Chip :=
  if s.2.vecWaits s.1 t o then s
  else
    match Chip.elemsCheck s.1 t o o.n o.va s.2 with
    | (c, ps, i, some (f, leaf)) =>
      if (f.code = 0x21 ∨ f.code = 0x22) ∧ leaf ≠ 0 then
        (s.1, c.updTask t (fun x => { x with ops := x.ops.map (fun p =>
          if p.id = o.id then { p with adWait := some ⟨none, leaf, o.kind = .vst, s.1.clk, o.tenant, f⟩ } else p) }))
      else vecGo t o i ps (some f) (s.1, c)
    | (c, ps, _, none) => vecGo t o o.n ps none (s.1, c)

/-- A vector operation fails with `f` at element `i`, if those before it pass now (R212, R213). -/
def vecFailAt (t : Nat) (o : LongOp) (i : Nat) (f : Flt) (s : Vig × Chip) : Vig × Chip :=
  match Chip.elemsCheck s.1 t o i o.va s.2 with
  | (c, ps, j, some (g, _)) => vecGo t o j ps (some g) (s.1, c)
  | (c, ps, _, none) => vecGo t o i ps (some { f with fdata := o.va + o.size * i }) (s.1, c)

/-- The answer of the other half to a vector operation (R27, R28, R209 to R213). -/
def vecAnswered (t : Nat) (o : LongOp) (code : Nat) (d : List Byte) (s : Vig × Chip) : Vig × Chip :=
  if o.kind ≠ .vst then vloadDone t o o.a.addr o.pieces d code o.bad s
  else if code ≠ 0 then (s.1, s.2.failOp t o code 0 0 (o.va + o.size * (passedBytes t o.pieces d.length / o.size)))
  else
    match o.bad with
    | some f => (s.1, s.2.failOp t o f.code f.stage f.level f.fdata)
    | none => vstoreDone t o o.pieces s

/-- The answer of the other half to a long operation, or the data that forwarding gave it (R27, R28, R175, R184). -/
def answered (t : Nat) (o : LongOp) (code : Nat) (d : List Byte) (tags : Nat) (s : Vig × Chip) : Vig × Chip :=
  match o.kind with
  | .load => (s.1, if code = 0 then s.2.loadEnd t o d (tb tags 0) else s.2.failOp t o code 0 0 o.va)
  | .atomic => (s.1, if code = 0 then s.2.atomicEnd t o d else s.2.failOp t o code 0 0 o.va)
  | .vld | .vst | .vldff => vecAnswered t o code d s
  | _ => (s.1, if code = 0 then s.2.endOp t o.id else s.2.failOp t o code 0 0 o.va)

/-- LONG_OP_COMPLETE (R175): a long operation of a task is performed, or its answer has come, and it completes or fails. The
answer to a request of the task's present instruction or block repeat is theirs to take. -/
def longOp (t id : Nat) (s : Vig × Chip) : Vig × Chip :=
  match s.2.findOp t id with
  | none => s
  | some o =>
    if o.inst ≠ 0 then if o.drop ∧ o.resp.isSome then (s.1, s.2.endOp t id) else s
    else
      match o.resp with
      | some (code, d, tags) => answered t o code d tags s
      | none =>
        if o.remote ∨ o.adWait.isSome then s
        else
          match o.kind with
          | .load => loadPerform t o s
          | .atomic => atomicPerform t o s
          | .maint => maintPerform t o s
          | .vld | .vst | .vldff => vecPerform t o s
          | _ => s

/-- AD_WAIT_EXPIRY (R298): an operation that has waited XLT_CTRL.ADWAIT_US microseconds fails with the fault it met; VLDFF keeps the
elements before it (R212). -/
def adWaitExpiry (t id : Nat) (s : Vig × Chip) : Vig × Chip :=
  match (s.2.task t).adWaitOf id with
  | none => s
  | some w =>
    let f := w.flt
    if s.1.clk < w.since + max 1 (s.2.fld XLT_CTRL XLT_CTRL_ADWAIT_US (tHalf t)) * 1000 then s
    else if id = 0 then (s.1, s.2.failRep t f.code f.stage f.level f.fdata)
    else
      match s.2.findOp t id with
      | none => s
      | some o =>
        if o.kind = .vldff ∧ o.va < f.fdata then
          let o := { o with adWait := none }
          let ch := s.2.updTask t (fun x => { x with ops := x.ops.map (fun p => if p.id = id then o else p) })
          vecFailAt t o ((f.fdata - o.va) / o.size) f (s.1, ch)
        else (s.1, s.2.failOp t o f.code f.stage f.level f.fdata)

/-- A store's deferred colour check fails (R185): the store is discarded, and its task has a failure of class 0. -/
def Chip.storeFail (ch : Chip) (e : SBEntry) (code : Nat) : Chip :=
  if e.drop then ch else ch.updTask e.task (fun x => x.addFail ⟨e.id, 0, code, 0, 0, e.fpriv, e.addr, e.va, e.tw⟩)

/-- The oldest entry of a core's store buffer leaves it. -/
def Chip.sbPop (ch : Chip) (k : Nat) : Chip := ch.updCore k (fun x => { x with sb := x.sb.drop 1 })

/-- The performer of a buffered store. -/
def SBEntry.who (e : SBEntry) : Who :=
  ⟨decide (e.fpriv = 3), if e.fpriv = 0 then some e.tenant else none, e.colour, e.tenant, e.comp, e.va, (e.task, e.id)⟩

/-- STORE_DRAIN (R183, R185, R275, R409): the oldest entry of a core's store buffer drains. -/
def storeDrain (k : Nat) (s : Vig × Chip) : Vig × Chip :=
  match (s.2.core k).sb with
  | [] => s
  | e :: _ =>
    if s.2.mustWait s.1 e.task e.id e.pass e.ord e.pieces || s.2.olderTouch e.task e.id e.pieces then s
    else
      match storeGo e.who e.pieces e.capw e.val (leBytes e.size e.val.bits.toNat) s with
      | .full => s
      | .bad code => (s.1, (s.2.sbPop k).storeFail e code)
      | .done r => (r.1, r.2.sbPop k)

/-- The `n`-th memory request that half `h` has received and not performed, none of the same source before it (R24). -/
def Chip.arrived (ch : Chip) (h n : Nat) : Option (WMsg × MemReq) :=
  let box := (tGet ch.wick h).inbox.filter (fun m => m.vc = 1)
  match box[n]? with
  | none => none
  | some m =>
    if (box.take n).any (fun p => p.src = m.src) then none
    else
      match m.body with
      | .memReq r => some (m, r)
      | _ => none

/-- Half `h` answers a memory request (R27). -/
def Chip.respond (ch : Chip) (h : Nat) (m : WMsg) (r : MemReq) (code : Nat) (d : List Byte) (tags : Nat) : Chip :=
  (ch.updWick h (fun p => { p with inbox := p.inbox.erase m })).wickSend h
    (mkMsg 2 (if code = 0 then 0 else 1) 0xFFFFFF m.tag (.memRsp ⟨r.task, r.op, code, d, tags⟩))

/-- The performer of a remote access. -/
def MemReq.who (r : MemReq) : Who := ⟨r.mach, r.own, r.colour, r.tenant, r.comp, r.va, (r.task, r.op)⟩

/-- The bytes of a remote vector load whose lines pass, up to the first that fails, and the cause of that failure. -/
def farRead (w : Who) : List Piece → Vig × Chip → List Byte × Nat × (Vig × Chip)
  | [], s => ([], 0, s)
  | p :: r, s =>
    match loadGo w [p] s with
    | .bad code => ([], code, s)
    | .done d _ s =>
      let x := farRead w r s
      (d ++ x.1, x.2)

/-- How many bytes lie before the first piece whose lines fail a store's check. -/
def Chip.farPassed (ch : Chip) (w : Who) : List Piece → Nat
  | [] => 0
  | p :: r =>
    if !(ch.ram.region p.pa).isCsr && ch.checkLines w.own w.colour true [p] ≠ 0 then 0 else p.len + ch.farPassed w r

/-- A remote request must wait for a channel held for retraining (R467), or for an older access of its task that is not performed
(R24, R270, R275, R315). -/
def Chip.reqWaits (v : Vig) (ch : Chip) (r : MemReq) : Bool :=
  r.pieces.any (fun p => (linesOf p).any (ch.chanHeld v)) ||
  match ch.findOp r.task r.op with
  | some o => ch.opWaits v r.task { o with pieces := r.pieces }
  | none => false

/-- What a store, a push, a painted line or a vector store of the other half is here; one of a vector that fails elsewhere is only checked. -/
def MemReq.store (r : MemReq) (s : Vig × Chip) : Stored :=
  match r.kind, r.pieces with
  | .push, p :: _ => pushGo r.who p r.val r.val2 r.data s
  | .paint, ps => paintGo r.who ps s
  | _, ps =>
    if r.kind = .vst ∧ r.data.isEmpty then
      let code := if s.2.inCsr ps then 0 else s.2.checkLines r.own r.colour true ps
      if code ≠ 0 then .bad code else .done s
    else storeGo r.who ps r.capw r.val r.data s

/-- Half `h` performs a request of the other half's PCIe endpoint (R67, R79, R566): a write that meets an unreadable line is
discarded. -/
def inboundHere (h : Nat) (m : WMsg) (r : MemReq) (s : Vig × Chip) : Vig × Chip :=
  let ps := r.pieces.flatMap lineParts
  if s.2.partsBad ps then (s.1, s.2.respond h m r 0x30 [] 0)
  else if r.kind = .store then
    let s := busPut ps r.data s
    (s.1, s.2.respond h m r 0 [] 0)
  else
    let x := busGet ps s
    (x.2.1, x.2.2.respond h m r 0 x.1 0)

/-- REMOTE_ACCESS_ARRIVAL (R24, R66, R67, R272): half `h` performs a memory request and answers it. -/
def remoteArrival (h n : Nat) (s : Vig × Chip) : Vig × Chip :=
  match s.2.arrived h n with
  | none => s
  | some (m, r) =>
    if h ≥ 2 ∨ (tGet s.2.half h).inReset ∨ s.2.reqWaits s.1 r then s
    else if r.task ≥ 65600 then inboundHere h m r s
    else
      let w := r.who
      let say := fun (s : Vig × Chip) (code : Nat) (d : List Byte) (tags : Nat) => (s.1, s.2.respond h m r code d tags)
      match r.kind with
      | .load | .pop =>
        (match loadGo w r.pieces s with
          | .bad code => say s code [] 0
          | .done d tags s => say s 0 d tags)
      | .atomic =>
        (match atomicGo w r.fn r.size r.cmp r.val r.pieces s with
          | .inr _ => s
          | .inl (.bad code) => say s code [] 0
          | .inl (.done d _ s) => say s 0 d 0)
      | .store | .vst | .push | .paint =>
        (match r.store s with
          | .full => s
          | .bad code => say s code (List.replicate (s.2.farPassed w r.pieces) 0) 0
          | .done s => say s 0 [] 0)
      | _ =>
        let x := farRead w r.pieces s
        say x.2.2 x.2.1 x.1 0

/-- The time a DRAM request may take (R521), in nanoseconds. -/
def Chip.ddrNs (ch : Chip) (h : Nat) : Nat := max 25 (ch.fld HALF_WDOG HALF_WDOG_DDR_US h) * 1000

/-- The DRAM request of the oldest buffered store of a core expires (R521). -/
def storeExpired (t id : Nat) (s : Vig × Chip) : Vig × Chip :=
  match (s.2.core (tCore t)).sb with
  | [] => s
  | e :: _ =>
    match s.2.dramPiece e.pieces with
    | none => s
    | some pa =>
      if e.task ≠ t ∨ e.id ≠ id ∨ s.2.mustWait s.1 t id e.pass e.ord e.pieces then s
      else (s.1, ((s.2.dramExpired s.1 pa).sbPop (tCore t)).storeFail e 0x30)

/-- The DRAM request of a vector operation for its element `i` expires (R212, R213, R521). -/
def vecExpired (t i : Nat) (o : LongOp) (s : Vig × Chip) : Vig × Chip :=
  if s.2.vecWaits s.1 t o ∨ o.n ≤ i then s
  else
    match Chip.elemsCheck s.1 t o (i + 1) o.va s.2 with
    | (_, ps, _, none) =>
      let mine := (ps.filter (fun p => paHalf p.pa = tHalf t)).drop ((ps.filter (fun p => paHalf p.pa = tHalf t)).length - 1)
      (match s.2.dramPiece mine with
        | some pa =>
          if s.1.clk < o.started + s.2.ddrNs (tHalf t) then s
          else vecFailAt t o i ⟨0x30, 0, 0, 0⟩ (s.1, s.2.dramExpired s.1 pa)
        | none => s)
    | _ => s

/-- A DRAM request of a remote access expires in the half that performs it (R521): a core's access fails; another master's read
returns zero, and its write is discarded. `i` is its piece; those before it have been read. -/
def farExpired (t id i : Nat) (s : Vig × Chip) : Vig × Chip :=
  let at_ := fun (h : Nat) => (tGet s.2.wick h).inbox.findSome? (fun m => match m.body with
    | .memReq r => if r.task = t ∧ r.op = id then some (h, m, r) else none
    | _ => none)
  match (at_ 0).or (at_ 1) with
  | none => s
  | some (h, m, r) =>
    match r.pieces[i]? with
    | none => s
    | some p =>
      if s.2.ram.region p.pa ≠ .dram ∨ (tGet s.2.half h).inReset ∨ s.2.reqWaits s.1 r then s
      else if t ≥ 65536 then
        (s.1, (s.2.dramExpired s.1 p.pa).respond h m r 0 (if r.kind = .load then List.replicate r.size 0 else []) 0)
      else
        let x : List Byte × Nat × (Vig × Chip) := match r.kind with
          | .vld | .vldff => farRead r.who (r.pieces.take i) s
          | .vst => (List.replicate (((r.pieces.take i).map (·.len)).foldl (· + ·) 0) 0, 0, s)
          | _ => ([], 0, s)
        (x.2.2.1, (x.2.2.2.dramExpired s.1 p.pa).respond h m r 0x30 x.1 0)

/-- A DRAM request of an operation or a buffered store expires (R521): in its own half, or in the other, which answers for it. -/
def opExpired (t id i : Nat) (s : Vig × Chip) : Vig × Chip :=
  match s.2.findOp t id with
  | none => if t ≥ 65536 then farExpired t id i s else storeExpired t id s
  | some o =>
    if o.resp.isSome ∨ o.adWait.isSome ∨ s.1.clk < o.started + s.2.ddrNs (tHalf t) then s
    else if o.remote then farExpired t id i s
    else if Chip.opPieces.cls3 o then vecExpired t i o s
    else
      match s.2.dramPiece o.pieces with
      | none => s
      | some pa =>
        if o.kind = .maint ∨ s.2.scalarWaits s.1 t o then s else (s.1, (s.2.dramExpired s.1 pa).failOp t o 0x30 0 0 o.va)

/-- A DRAM request of a task's fetch expires (R218, R521): the word it concerns faults precisely. -/
def fetchExpired (t : Nat) (v : Vig) (ch : Chip) : Chip :=
  let x := ch.task t
  let a := x.nextFetch
  if !x.fetchNow ∨ x.ffault.isSome ∨ !(x.bound.isSome ∨ (coreSvc (tCore t) ∧ x.pcc ≠ Cap.null)) ∨ (fetchCheck (movePcc x.pcc a)).isSome then ch
  else
    match ch.fetchAcc v t (movePcc x.pcc a) a with
    | (c, .inl p) =>
      if c.ram.region p.pa = .dram ∧ paHalf p.pa = tHalf t then
        (c.dramExpired v p.pa).updTask t (fun x => { x with ffault := some ⟨0x30, 0, 0, a⟩ })
      else ch
    | _ => ch

/-- A flow engine's bucket read expires (R521): its frame is dropped and counted. -/
def bucketExpired (h n : Nat) (v : Vig) (ch : Chip) : Chip :=
  let l := (tGet ch.flow h).lookup
  match l[n]? with
  | none => ch
  | some f =>
    match ch.log2b h with
    | none => ch
    | some k =>
      let b := ch.buckets h k f.kprof (ch.klen h f.kprof) f.key
      ((ch.updFlow h (fun x => { x with lookup := x.lookup.eraseIdx n })).actFail h f.first).dramExpired v (ch.entAddr h (4 * b.1))

/-- DRAM_REQUEST_TIMEOUT (R521). A walker's expired read fails the walks that read the line before the next tick (log 83). -/
def dramTimeout (r : DramReq) (s : Vig × Chip) : Vig × Chip :=
  match r with
  | .op t id i => opExpired t id i s
  | .fetch t => (s.1, fetchExpired t s.1 s.2)
  | .bucket h n => if h < 2 then (s.1, bucketExpired h n s.1 s.2) else s
  | .walk pa => if s.2.ram.region pa = .dram then (s.1, { s.2.dramExpired s.1 pa with walkX := some (pa / 64) }) else s
  | .other pa => if s.2.ram.region pa = .dram then (s.1, s.2.dramExpired s.1 pa) else s

/-- LONG_OP_COMPLETE. -/
def execLongOpComplete (t id : Nat) (s : State) : Out := bothStep (fun v ch => longOp t id (v, ch)) s
/-- STORE_DRAIN. -/
def execStoreDrain (k : Nat) (s : State) : Out := bothStep (fun v ch => storeDrain k (v, ch)) s
/-- AD_WAIT_EXPIRY. -/
def execAdWaitExpiry (t id : Nat) (s : State) : Out := bothStep (fun v ch => adWaitExpiry t id (v, ch)) s
/-- REMOTE_ACCESS_ARRIVAL. -/
def execRemoteAccessArrival (h n : Nat) (s : State) : Out := bothStep (fun v ch => remoteArrival h n (v, ch)) s
/-- DRAM_REQUEST_TIMEOUT. -/
def execDramRequestTimeout (r : DramReq) (s : State) : Out := bothStep (fun v ch => dramTimeout r (v, ch)) s

end Sys2Proof.Machine
end

