-- ==== Sys2Proof/Machine/Pins.lean ====
section
/-! DEFINITION. The PCIe endpoint (R417, R566 to R568), the ports' receivers (R563), boundary scan (R547) and the output balls
(R551). -/

namespace Sys2Proof.Machine

/-- The CMD registers of a half take their reset values, CMD_STAT apart (R567). -/
def Chip.cutCmd (ch : Chip) (h : Nat) : Chip :=
  let x := ch.reg CMD_STAT h []
  (ch.cutRegs (h * 2 ^ 40 + 0xC008000000) 0x1000000).setReg CMD_STAT h [] x

/-- The rings' heads as CMD_RINGH resets them (R445, R567). -/
def Adrus.ringsBack (a : Adrus) : Adrus :=
  { a with rings := a.rings.map (fun e => (e.1, { e.2 with host := 0, full := e.2.full && e.2.host = 0 })) }

/-- PCIE_LINK_RESET (R567): PERSTn_N of half `h` is low, or its link went down. The half keeps running. -/
def pcieLinkReset (h : Nat) (ch : Chip) : Chip :=
  if h ≥ 2 then ch
  else
    let ch := if ch.fld PCIE_STAT PCIE_STAT_LINKUP h = 1 then ch.flag PCIE_ERR PCIE_ERR_LINKDOWN h else ch
    let ch := ((ch.setReg PCIE_STAT h [] 0).dropPairs h).cutCmd h
    ch.updAdrus h (fun a => { a.ringsBack with msix := [], pba := 0, cplTo := 0, inbOut := [] })

/-- PCIE_LINK_UP (R567, R568): the data link layer comes up at a speed code of 1 to 5 with 1, 2 or 4 lanes. -/
def pcieLinkUp (h speed width : Nat) (v : Vig) (ch : Chip) : Chip :=
  if h ≥ 2 ∨ v.resetN ∨ ch.fld PCIE_STAT PCIE_STAT_LINKUP h = 1 ∨ speed = 0 ∨ 5 < speed ∨
      !(width = 1 || width = 2 || width = 4) then ch
  else ch.setReg PCIE_STAT h [] (1 + speed * 2 + width * 16)

/-- The guard of the PCIe inbound master of half `h` over the parts of an access, lowest first (R313, R314, R317): the
violation of the first that fails is recorded. -/
def Chip.inboundGuard (ch : Chip) (h : Nat) (wr : Bool) : List (Nat × Nat) → Option Chip
  | [] => none
  | p :: r =>
    match ch.guardLine h 0x102 wr p.1 with
    | .violation reason slot col => some (ch.violate h 0x102 wr reason slot col 0 0 p.1)
    | _ => ch.inboundGuard h wr r

/-- Some part of an access of half `h` cannot be reached: its half is in reset, or it lies across a Wick that is down. -/
def Chip.unreachable (ch : Chip) (h : Nat) (ps : List (Nat × Nat)) : Bool :=
  ps.any (fun p => (paHalf p.1 ≠ h && !ch.wickUp h) || ((ch.ram.region p.1).isCsr && !ch.csrUp p.1))

/-- The bytes that an inbound read returned. -/
def Chip.inboundDone (ch : Chip) (h : Nat) (d : List Byte) : Chip := ch.updAdrus h (fun a => { a with inb := d })

/-- A request of half `h`'s endpoint to the other half is out. -/
def Chip.inboundOut (ch : Chip) (h : Nat) : Bool := (tGet ch.wick h).reqs.any (fun q => q.vc = 1 && q.task = 65600 + h)

/-- The endpoint of half `h` asks the other half for an access (R20, R265): a write of `d`, or a read of `n` bytes. -/
def Chip.inboundAsk (v : Vig) (ch : Chip) (h pa n : Nat) (d : Option (List Byte)) : Chip :=
  let op := (tGet ch.wick h).nextTag
  let ch := if d.isSome then ch else ch.updAdrus h (fun a => { a with inbOut := mSet a.inbOut op n })
  ch.memAsk v h 0xFFFFFF { task := 65600 + h, op := op, kind := if d.isSome then .store else .load, pieces := [⟨pa, n, false, 0⟩]
                           size := n, capw := false, colour := 0, fn := 0, val := Cap.null, val2 := Cap.null, cmp := 0
                           data := d.getD [], own := none, tenant := 0, comp := 0, mach := false, va := 0 }

/-- An inbound access of half `h` that its guard has admitted: a write of `d`, or a read of `n` bytes. An unreadable line
reads as a free value, and a write that meets one is discarded (R79); what cannot be reached reads as zero. `late` says that a DRAM
request of the access expires (R521). -/
def inboundGo (h pa n : Nat) (d : Option (List Byte)) (late : Bool) (ps : List (Nat × Nat)) (s : Vig × Chip) : Vig × Chip :=
  let ch := s.2
  let zero := fun (c : Chip) => (s.1, if d.isSome then c else c.inboundDone h (List.replicate n 0))
  if ch.unreachable h ps then zero ch
  else if paHalf pa ≠ h then (s.1, ch.inboundAsk s.1 h pa n d)
  else if late ∧ ch.ram.region pa = .dram then zero (ch.dramExpired s.1 pa)
  else
    match d with
    | some b => if ch.partsBad ps then s else busPut ps b s
    | none =>
      if ch.partsBad ps then
        (s.1, ({ ch with free := ch.free + 1 }).inboundDone h (leBytes n (Config.freeNat ch.free)))
      else
        let r := busGet ps s
        (r.2.1, r.2.2.inboundDone h r.1)

/-- Where an access through a BAR goes (R417): BAR0 maps the half's CMD block, BAR2 the device physical addresses. -/
def barPa (a : BarAddr) (h n : Nat) : Option Nat :=
  if a.bar0 then if a.off + n ≤ 0x1000000 then some (h * 2 ^ 40 + 0xC008000000 + a.off) else none
  else if a.off + n ≤ 2 ^ 41 then some a.off else none

/-- The bytes that a request writes; none for a read. -/
def inbData (r : Inbound) : Option (List Byte) :=
  match r with
  | .read _ => none
  | .write b _ => some b

/-- How many bytes a request reads or writes. -/
def inbSize (r : Inbound) : Nat :=
  match r with
  | .read n => n
  | .write b _ => b.length

/-- The request is marked poisoned. -/
def inbPoisoned (r : Inbound) : Bool :=
  match r with
  | .read _ => false
  | .write _ p => p

/-- PCIE_INBOUND_ACCESS (R417, R312 to R317, R566): a host write (at most 512 bytes) or read (at most 4,096) through BAR0 or BAR2; no
request crosses a 4 KiB boundary, and the endpoint performs its accesses one by one (log 75). In D3hot it is an unsupported request.
Whether a poisoned write, which the endpoint notes (R568), is made is free (log 127). -/
def inboundAccess (h : Nat) (a : BarAddr) (r : Inbound) (late : Bool) (s : Vig × Chip) : Vig × Chip :=
  let ch := s.2
  let d := inbData r
  let len := inbSize r
  match barPa a h len with
  | none => s
  | some pa =>
    if !ch.hostLink h ∨ len = 0 ∨ pa % 4096 + len > 4096 ∨ len > (if d.isSome then 512 else 4096) then s
    else if ch.fld PCIE_STAT PCIE_STAT_D3 h = 1 then (s.1, ch.flag PCIE_ERR PCIE_ERR_UR_RECEIVED h)
    else if ch.inboundOut h then s
    else if inbPoisoned r ∧ Config.freeNat ch.free % 2 = 0 then
      (s.1, ({ ch with free := ch.free + 1 }).flag PCIE_ERR PCIE_ERR_POISONED h)
    else
      let ch := if inbPoisoned r then ({ ch with free := ch.free + 1 }).flag PCIE_ERR PCIE_ERR_POISONED h else ch
      let ps := lineParts ⟨pa, len, false, 0⟩
      match ch.inboundGuard h d.isSome ps with
      | some c => (s.1, if d.isSome then c else c.inboundDone h (List.replicate len 0))
      | none => inboundGo h pa len d late ps (s.1, ch)

/-- PCIE_CONFIG_WRITE (R522, R566): the power state (0 D0, 3 D3hot), or the completion-timeout value of Device Control 2: the
default, or a value of range A or B. Another value changes nothing. -/
def pcieConfigWrite (h : Nat) (power : Bool) (x : Nat) (ch : Chip) : Chip :=
  if h ≥ 2 ∨ ch.fld PCIE_STAT PCIE_STAT_LINKUP h = 0 then ch
  else if power then if x = 0 ∨ x = 3 then ch.setFld PCIE_STAT PCIE_STAT_D3 h [] (x / 3) else ch
  else if x = 0 ∨ x = 1 ∨ x = 2 ∨ x = 5 ∨ x = 6 then ch.updAdrus h (fun a => { a with cplTo := x })
  else ch

/-- PORT_LINK_CHANGE (R563): the receiver of a configured port gains or loses alignment. -/
def portLinkChange (h p : Nat) (up : Bool) (ch : Chip) : Chip :=
  if ch.portUp h p then ch.setFld ETH_PSTAT ETH_PSTAT_UP h [p] (b2n up) else ch

/-- What an output ball does: it is driven low or high, or it is not driven. -/
inductive Ball where
  | low | high | highZ
deriving DecidableEq, Repr

/-- A ball that the part drives. -/
def Ball.drive (b : Bool) : Ball := if b then .high else .low

/-- TAKEOVER (R397, R551). -/
def Vig.takeoverPin (v : Vig) : Ball := if v.resetN then .highZ else .drive v.takeoverBall
/-- PEER_ALIVE_OUT (R404, R551). -/
def Vig.alivePin (v : Vig) : Ball := if v.resetN then .highZ else .drive v.pair.aliveOut
/-- THERMTRIP_N, an open drain (R524, R551). -/
def Vig.tripPin (v : Vig) : Ball := if !v.resetN && v.trip then .low else .highZ
/-- TATTN (R537, R551). -/
def Chip.tattnPin (v : Vig) (ch : Chip) : Ball := .drive (!v.resetN && ch.attn ≠ 0)
/-- DDR5 DRST_N of half `h` (R551). -/
def Chip.drstPin (v : Vig) (ch : Chip) (h : Nat) : Ball := .drive (!v.resetN && ch.fld DDR_STAT DDR_STAT_INIT_DONE h = 1)

/-- IDCODE (R547). -/
def idcode : Nat := 1 + Config.unstated 5 % 2 ^ 11 * 2 + 0x5120 * 2 ^ 12 + Config.stepping % 16 * 2 ^ 28

/-- A scan through the bypass register (R547): what is shifted in comes out one bit later, after a 0. -/
def Jtag.bypass (j : Jtag) (ir x : Nat) : Jtag := { j with ir := ir, out := 2 * x, driven := false, floating := false }

/-- BYPASS. -/
def jtagBypass (x : Nat) (v : Vig) : Vig := { v with jtag := v.jtag.bypass 0 x }
/-- IDCODE. -/
def jtagIdcode (v : Vig) : Vig := { v with jtag := { v.jtag with ir := 1, out := idcode, driven := false, floating := false } }
/-- SAMPLE/PRELOAD: the balls' values are shifted out, and the boundary register is loaded. -/
def jtagSample (balls x : Nat) (v : Vig) : Vig :=
  { v with jtag := { ir := 2, out := balls, bsr := x, driven := false, floating := false } }
/-- EXTEST: the balls are driven from the boundary register, only while RESET_N is low. -/
def jtagExtest (balls x : Nat) (v : Vig) : Vig :=
  if v.resetN then { v with jtag := { ir := 3, out := balls, bsr := x, driven := true, floating := false } }
  else { v with jtag := v.jtag.bypass 3 x }
/-- CLAMP: the outputs hold the boundary register's values while the bypass register is scanned, only while RESET_N is low. -/
def jtagClamp (x : Nat) (v : Vig) : Vig :=
  { v with jtag := { v.jtag.bypass 4 x with driven := v.resetN } }
/-- HIGHZ: the outputs float, only while RESET_N is low. -/
def jtagHighz (x : Nat) (v : Vig) : Vig :=
  { v with jtag := { v.jtag.bypass 5 x with floating := v.resetN } }

/-- PCIE_LINK_RESET. -/
def execPcieLinkReset (h : Nat) (s : State) : Out := chipStep (fun _ ch => pcieLinkReset h ch) s
/-- PCIE_LINK_UP. -/
def execPcieLinkUp (h speed width : Nat) (s : State) : Out := chipStep (pcieLinkUp h speed width) s
/-- PCIE_INBOUND_ACCESS. -/
def execPcieInboundAccess (h : Nat) (at_ : BarAddr) (r : Inbound) (late : Bool) (s : State) : Out :=
  bothStep (fun v ch => inboundAccess h at_ r late (v, ch)) s
/-- PCIE_CONFIG_WRITE. -/
def execPcieConfigWrite (h : Nat) (power : Bool) (x : Nat) (s : State) : Out :=
  chipStep (fun _ ch => pcieConfigWrite h power x ch) s
/-- PORT_LINK_CHANGE. -/
def execPortLinkChange (h p : Nat) (up : Bool) (s : State) : Out := chipStep (fun _ ch => portLinkChange h p up ch) s
/-- BYPASS. -/
def execBypass (x : Nat) (s : State) : Out := vigStep (fun _ v => jtagBypass x v) s
/-- IDCODE. -/
def execIdcode (s : State) : Out := vigStep (fun _ v => jtagIdcode v) s
/-- SAMPLE_PRELOAD. -/
def execSamplePreload (balls x : Nat) (s : State) : Out := vigStep (fun _ v => jtagSample balls x v) s
/-- EXTEST. -/
def execExtest (balls x : Nat) (s : State) : Out := vigStep (fun _ v => jtagExtest balls x v) s
/-- CLAMP. -/
def execClamp (x : Nat) (s : State) : Out := vigStep (fun _ v => jtagClamp x v) s
/-- HIGHZ. -/
def execHighz (x : Nat) (s : State) : Out := vigStep (fun _ v => jtagHighz x v) s

end Sys2Proof.Machine
end

