-- ==== Sys2Proof/Machine/SelfTest.lean ====
section
/-! DEFINITION. The slice self-test (R484 to R490, R542). -/

namespace Sys2Proof.Machine

/-- The core that a slice of a half tests (R484). -/
def sliceCore (h n : Nat) : Option Nat := if n < 256 then some (h * 256 + n) else none

/-- The unit path that contains a slice's unit (R423, R484). -/
def slicePath (pos h n : Nat) : Nat :=
  if n < 256 then 4 * 2 ^ 16 + pos + h * 2 + n / 16 * 4 + n % 16 * 64
  else if n < 2304 then 3 * 2 ^ 16 + pos + h * 2 + (n - 256) / 128 * 4
  else 2 * 2 ^ 16 + pos + h * 2

/-- The number of the slice that a half runs next (R484): one deferred or failed before, else the next in order. -/
def Bg.upcoming (b : Bg) : Nat := b.again.getD b.nextSlice

/-- The unit of a slice cannot be tested now (R490, R542): its island is in reset, or the core has a halted task or a reset
of its own. -/
def Chip.sliceBlocked (ch : Chip) (h n : Nat) : Bool :=
  match sliceCore h n with
  | some k =>
    let c := ch.core k
    (ch.clu (coreClu k)).inReset || c.inReset || c.due.isSome || c.drained || ch.tasks.any (fun e => tCore e.1 = k && e.2.halted)
  | none => decide (n < 2304) && (ch.clu (h * 16 + (n - 256) / 128)).inReset

/-- A core slice ends undone: the core returns to service (R486). -/
def Chip.sliceCoreBack (ch : Chip) (h n : Nat) : Chip :=
  match sliceCore h n with
  | some k => ch.updCore k (fun c => { c with drained := false, testing := false })
  | none => ch

/-- The core of a core slice is drained: no compartment is bound, and no long operation and no store is outstanding. -/
def Chip.sliceDrained (ch : Chip) (h n : Nat) : Bool :=
  match sliceCore h n with
  | some k => (ch.core k).sb.isEmpty && ch.tasks.all (fun e => tCore e.1 ≠ k || (e.2.bound.isNone && e.2.ops.isEmpty))
  | none => true

/-- The memory that a transparent band slice tests (R484, R487), from its first address to below its last: 16 KiB in a row of a local
memory, or 256 buffers. -/
def transparentBand (h n : Nat) : Option (Nat × Nat) :=
  if 256 ≤ n ∧ n < 2304 ∧ 64 ≤ (n - 256) % 128 then
    let lo := h * 2 ^ 40 + 0x8040000000 + (n - 256) / 128 * 0x1000000 + ((n - 256) % 128 - 64) * 0x4000
    some (lo, lo + 0x4000)
  else if 2368 ≤ n ∧ n < 2432 then some (bufAt h (256 * (n - 2368)), bufAt h (256 * (n - 2368) + 256))
  else none

/-- A destructive band slice writes back and invalidates its band first (R487): of an L2, the tag cache or the flow cache. -/
def Chip.bandFlush (v : Vig) (ch : Chip) (h n : Nat) : Chip :=
  if 256 ≤ n ∧ n < 2304 ∧ (n - 256) % 128 < 64 then
    let c := h * 16 + (n - 256) / 128
    let ls := ((ch.clu c).l2.filter (fun e => e.1 / 32 = (n - 256) % 128)).flatMap (·.2)
    ls.foldl (fun ch l => ch.l2Back v c (l.line * 64) false) ch
  else if 2304 ≤ n ∧ n < 2368 then
    let mine := fun (key : Nat) => key / 4096 = h && key % 4096 / 64 = n - 2304
    let dirty := ((ch.tagc.filter (fun e => mine e.1)).flatMap (·.2)).filter (·.dirty)
    let ch := dirty.foldl (fun ch _ => ch.dramCount v h none true) ch
    { ch with tagc := mDelIf ch.tagc mine }
  else if 2432 ≤ n ∧ n < 2496 then
    ((tGet ch.flow h).cache.filter (fun e => e.1 / 256 = n - 2432)).foldl (fun ch e =>
      (e.2.foldl (fun ch l => ch.cacheBack v h l) ch).cacheUpd h e.1 (fun _ => [])) ch
  else ch

/-- Which band of half `h` is watched for writes (R487). -/
def Chip.watchBand (ch : Chip) (h : Nat) (r : Option (Nat × Nat)) : Chip :=
  { ch with ram := { ch.ram with watch := ch.ram.watch.filter (fun w => paHalf w.1 ≠ h) ++ r.toList } }

/-- A write has abandoned the test of a transparent band (R487). -/
def Chip.bandWritten (ch : Chip) (h n : Nat) : Bool :=
  match transparentBand h n with
  | some r => !ch.ram.watch.contains r
  | none => false

/-- The test of a slice begins (R486): at once for a band. -/
def Chip.sliceBegin (ch : Chip) (v : Vig) (h n : Nat) : Chip :=
  let ch := match sliceCore h n with
    | some k => ch.updCore k (fun c => { c with testing := true })
    | none => ch
  ((ch.bandFlush v h n).watchBand h (transparentBand h n)).updBg h (fun b => { b with slice := some ⟨n, v.clk, true⟩ })

/-- SLICE_START (R484 to R486): the period has passed, and the next slice starts or is deferred (`cond` says that R485's
condition holds); or the drain of a core slice is complete, and its test starts. -/
def sliceStart (h : Nat) (cond : Bool) (v : Vig) (ch : Chip) : Chip :=
  let b := tGet ch.bg h
  match b.slice with
  | some s => if !s.testing && ch.sliceDrained h s.num then ch.sliceBegin v h s.num else ch
  | none =>
    let n := b.upcoming
    let ms := max 1 (ch.fld BG_ST BG_ST_PERIOD_MS h)
    let first := n = 0 ∧ (List.range 16).any (fun c => (ch.clu (h * 16 + c)).calib)
    if !ch.halfUp h ∨ ch.fld BG_ST BG_ST_ENABLE h = 0 ∨ v.clk < b.sliceAt + ms * 1000000 ∨
        ch.fld DDR_STAT DDR_STAT_INIT_DONE h = 0 ∨ first then ch
    else
      let ch := ch.updBg h (fun b => { b with sliceAt := v.clk })
      if !cond || ch.sliceBlocked h n then
        (ch.cnt BG_STSTAT BG_STSTAT_DEFERRED h).updBg h (fun b => { b with again := some n, sumDef := b.sumDef + 1 })
      else
        let ch := ch.updBg h (fun b => { b with slice := some ⟨n, v.clk, false⟩ })
        match sliceCore h n with
        | some k => ch.updCore k (fun c => { c with drained := true })
        | none => ch.sliceBegin v h n

/-- SLICE_DRAIN_TIMEOUT (R486): the drain is not complete in 50 microseconds. -/
def sliceTimeout (h : Nat) (v : Vig) (ch : Chip) : Chip :=
  match (tGet ch.bg h).slice with
  | none => ch
  | some s =>
    if h ≥ 2 ∨ s.testing ∨ v.clk < s.since + 50000 ∨ ch.sliceDrained h s.num then ch
    else (ch.sliceCoreBack h s.num).sliceDefer h

/-- The next slice in number order (R484). -/
def nextNum (n : Nat) : Nat := (n + 1) % 2560

/-- A slice failed for the second time (R489): its unit is marked failed. -/
def Chip.sliceMark (ch : Chip) (v : Vig) (h n : Nat) : Chip :=
  let ch := if ch.fld BG_STFAIL BG_STFAIL_VALID h = 1 then ch
    else (ch.setFld BG_STFAIL BG_STFAIL_SLICE h [] n).setFld BG_STFAIL BG_STFAIL_VALID h [] 1
  let ch := ch.updBg h (fun b => { b with bad := n :: b.bad, lastFail := none, again := none, nextSlice := nextNum n })
  ch.hostEvent h 0xD (leBytes 8 (slicePath v.pair.pos h n) ++ leBytes 2 n)

/-- SLICE_TEST_END (R486, R488, R489): the test has ended with the MISR as stored and the completion bit (`pass`), or not. A
core is then reset. A band that something has written since is deferred (R487; log 129). -/
def sliceEndTest (h : Nat) (pass : Bool) (v : Vig) (ch : Chip) : Chip :=
  let b := tGet ch.bg h
  match b.slice with
  | none => ch
  | some s =>
    let n := s.num
    if h ≥ 2 ∨ !s.testing ∨ (n < 256 ∧ v.clk < s.since + 40000) then ch
    else if ch.bandWritten h n then (ch.sliceDefer h).watchBand h none
    else
      let ch := ch.watchBand h none
      let second := !pass && decide (b.lastFail = some n)
      let ch := ch.updBg h (fun b => { b with slice := none })
      let ch := match sliceCore h n with
        | some k => ch.updCore k (fun c => { c with due := some (if second then 2 else 0, v.clk) })
        | none => ch
      if pass then
        (ch.cnt BG_STSTAT BG_STSTAT_PASSED h).updBg h (fun b =>
          { b with sumPass := b.sumPass + 1, lastFail := none, again := none, nextSlice := nextNum n })
      else
        let ch := (ch.cnt BG_STSTAT BG_STSTAT_FAILED h).updBg h (fun b => { b with sumFail := b.sumFail + 1 })
        if second then ch.sliceMark v h n else ch.updBg h (fun b => { b with lastFail := some n, again := some n })

/-- SLICE_ABANDON (R485, R487, R488): the test under way is abandoned; a core is reset before it returns. -/
def sliceAbandon (h : Nat) (v : Vig) (ch : Chip) : Chip :=
  match (tGet ch.bg h).slice with
  | none => ch
  | some s =>
    if h ≥ 2 ∨ !s.testing then ch
    else
      let ch := match sliceCore h s.num with
        | some k => ch.updCore k (fun c => { c with due := some (0, v.clk) })
        | none => ch
      (ch.sliceDefer h).watchBand h none

/-- SLICE_START. -/
def execSliceStart (h : Nat) (cond : Bool) (s : State) : Out := chipStep (sliceStart h cond) s
/-- SLICE_DRAIN_TIMEOUT. -/
def execSliceDrainTimeout (h : Nat) (s : State) : Out := chipStep (sliceTimeout h) s
/-- SLICE_TEST_END. -/
def execSliceTestEnd (h : Nat) (pass : Bool) (s : State) : Out := chipStep (sliceEndTest h pass) s
/-- SLICE_ABANDON. -/
def execSliceAbandon (h : Nat) (s : State) : Out := chipStep (sliceAbandon h) s

end Sys2Proof.Machine
end

