-- ==== Sys2Proof/Machine/Sys.lean ====
section
/-! DEFINITION. The system instructions (R91, R106, R154 to R156, R227, R544). -/

namespace Sys2Proof.Machine

/-- NOP (R155). -/
def bodyNop (_v : Vig) (ch : Chip) (_t _w : Nat) : Res := .ok ch

/-- MFS (R106). -/
def bodyMfs (v : Vig) (ch : Chip) (t w : Nat) : Res := .ok (ch.wrReg t (wA w) (Chip.rdSpecial v ch t (wB w)))

/-- MTS (R106, R143, R145, R170): a write to RC, RSRC or RDST waits for the block repeat; LC, LS and LE have latency 2. A
program that writes RC itself gives it an operation of no instruction (R146, log 22). -/
def bodyMts (_v : Vig) (ch : Chip) (t w : Nat) : Res :=
  let n := wA w
  let c := ch.rdReg t (wB w)
  if 9 ≤ n ∧ n ≤ 11 ∧ (ch.task t).rep.isSome then .stall ch
  else if 12 ≤ n ∧ n ≤ 14 then .ok (ch.later t 2 (.loopReg n) (Cap.ofNat c.addr))
  else .ok (ch.updTask t (fun x => { x.wrSpecial n c with org := if n = 9 then none else x.org }))

/-- XGET (R91). -/
def bodyXget (_v : Vig) (ch : Chip) (t w : Nat) : Res :=
  match ch.crossEntry t (wB w) with
  | none => .flt ch ⟨0x03, 0, 0, 0⟩
  | some e => .ok (ch.wrReg t (wA w) (ch.rdEntry e))

/-- XPUT (R91). -/
def bodyXput (_v : Vig) (ch : Chip) (t w : Nat) : Res :=
  match ch.crossEntry t (wA w) with
  | none => .flt ch ⟨0x03, 0, 0, 0⟩
  | some e => .ok (ch.wrEntry e (ch.rdReg t (wB w)))

/-- ERET (R227, R228). -/
def bodyEret (_v : Vig) (ch : Chip) (t _w : Nat) : Res :=
  let x := ch.task t
  if x.ewin ≥ ch.windows (tCore t) then .flt ch ⟨0x03, 0, 0, 0⟩
  else if !validReturn x.epriv x.epc then .flt ch ⟨0x1B, 0, 0, x.epc.addr⟩
  else .jump (ch.eret t) (returnPcc x.epriv x.epc) 4

/-- TRAP (R155). -/
def bodyTrap (_v : Vig) (ch : Chip) (_t _w : Nat) : Res := .flt ch ⟨0x07, 0, 0, 0⟩

/-- BRK (R155, R544): the BREAKPOINT exception, or a halt. -/
def bodyBrk (v : Vig) (ch : Chip) (t _w : Nat) : Res :=
  if ch.fld DBG_CORE_CTRL DBG_CORE_CTRL_BRKHALT (tHalf t) [coreMaster (tCore t)] = 1 && v.rights (ch.task t) then .halt ch 1
  else .flt ch ⟨0x08, 0, 0, 0⟩

/-- NOP. -/
def execNop (t : Nat) (w : IWord) (s : State) : Out := insn t w .nop bodyNop s
/-- MFS. -/
def execMfs (t : Nat) (w : IWord) (s : State) : Out := insn t w .mfs bodyMfs s
/-- MTS. -/
def execMts (t : Nat) (w : IWord) (s : State) : Out := insn t w .mts bodyMts s
/-- XGET. -/
def execXget (t : Nat) (w : IWord) (s : State) : Out := insn t w .xget bodyXget s
/-- XPUT. -/
def execXput (t : Nat) (w : IWord) (s : State) : Out := insn t w .xput bodyXput s
/-- ERET. -/
def execEret (t : Nat) (w : IWord) (s : State) : Out := insn t w .eret bodyEret s
/-- TRAP. -/
def execTrap (t : Nat) (w : IWord) (s : State) : Out := insn t w .trap bodyTrap s
/-- BRK. -/
def execBrk (t : Nat) (w : IWord) (s : State) : Out := insn t w .brk bodyBrk s

end Sys2Proof.Machine
end

