-- ==== Sys2Proof/Machine/Taper.lean ====
section
/-! DEFINITION. The Taper debug port (R529 to R545): packets, sessions, and the operations of R532. -/

namespace Sys2Proof.Machine

/-- OK (R531). -/
def tpOk : Nat := 0
/-- LOCKED (R531). -/
def tpLocked : Nat := 1
/-- DENIED (R531). -/
def tpDenied : Nat := 2
/-- BAD_PACKET (R531). -/
def tpBadPacket : Nat := 3
/-- BAD_OP (R531). -/
def tpBadOp : Nat := 4
/-- FAULT (R531). -/
def tpFault : Nat := 5
/-- TIMEOUT (R531). -/
def tpTimeout : Nat := 6
/-- NOT_HALTED (R531). -/
def tpNotHalted : Nat := 7

/-- A response packet (R530). -/
def taperPacket (seq st : Nat) (pay : List Byte) : List Byte :=
  let b := [0x5A, BitVec.ofNat 8 st] ++ leBytes 2 pay.length ++ [BitVec.ofNat 8 seq] ++ pay
  b ++ leBytes 2 (crcTod b)

/-- What an operation comes to: an answer, or nothing yet. -/
inductive TRes where
  | ans (st : Nat) (pay : List Byte) (s : Vig × Chip)
  | wait
deriving DecidableEq, Repr

/-- The length of an operation's payload fits it (R530, R532). -/
def taperFits (op : Nat) (p : List Byte) : Bool :=
  match op with
  | 0x01 | 0x02 | 0x03 | 0x05 => p.length = 0
  | 0x04 => p.length = 128
  | 0x10 | 0x11 | 0x12 | 0x13 => p.length = 8
  | 0x14 | 0x21 => p.length = 10
  | 0x15 => p.length = 26
  | 0x16 | 0x20 => p.length = 18
  | 0x30 => p.length = 12
  | 0x31 => decide (12 ≤ p.length) && decide (p.length ≤ 512) && decide (p.length = 12 + fieldB p 8 2)
  | _ => false

/-- The RIGHTS bit that an operation needs (R533). -/
def taperRight (op : Nat) : Option Nat :=
  if 0x10 ≤ op ∧ op ≤ 0x14 then some 0
  else if op = 0x15 ∨ op = 0x16 then some 1
  else if op = 0x30 then some 2
  else if op = 0x31 then some 3
  else if op = 0x20 ∨ op = 0x21 then some 4
  else none

/-- The life-cycle state and the session permit an operation (R534). -/
def taperMay (op : Nat) (v : Vig) : Bool :=
  if op = 0x01 ∨ op = 0x02 ∨ v.lc = 0 then true
  else if op = 0x03 ∨ op = 0x04 then v.lc ≠ 4
  else
    match v.session with
    | none => false
    | some x => (match taperRight op with
      | some r => tb x.rights r
      | none => true)

/-- Run an operation (R530): the port holds one request at a time, and answers it once. -/
def taperRun (op seq : Nat) (p : List Byte) (f : Vig × Chip → TRes) (s : Vig × Chip) : Vig × Chip :=
  let busy : Bool := match s.1.held with
    | some x => decide (x ≠ (op, seq, p))
    | none => false
  let answer := fun (st : Nat) (pay : List Byte) (s : Vig × Chip) =>
    (({ s.1 with held := none, taper := taperPacket seq st pay } : Vig), s.2)
  if s.1.resetN ∨ busy then s
  else if !taperFits op p then answer tpBadPacket [] s
  else if !taperMay op s.1 then answer tpDenied [] s
  else
    match f s with
    | .ans st pay t => answer st pay t
    | .wait => ({ s.1 with held := some (op, seq, p) }, s.2)

/-- A row of the port. -/
def taperRow (op seq : Nat) (p : List Byte) (f : Vig × Chip → TRes) (s : State) : Out :=
  bothStep (fun v ch => taperRun op seq p f (v, ch)) s

/-- A unit path of an operation (R423, R532) of a LEN, if it is one of this device's. -/
def taperPath (v : Vig) (ch : Chip) (p : List Byte) (lo hi : Nat) : Option Nat :=
  let t := fieldB p 0 8
  let n := pathLen t
  if t < 2 ^ 19 ∧ lo ≤ n ∧ n ≤ hi ∧ bf t (pathBits n) (16 - pathBits n) = 0 ∧ bf t 0 1 = v.pair.pos ∧
      (n < 5 ∨ bf t 10 6 < ch.tcount (pathCore t)) then some t else none

/-- The core of a path cannot be reached now: it is in reset, or under slice test (R490, R542). -/
def Chip.coreBusy (ch : Chip) (k : Nat) : Bool :=
  let c := ch.core k
  (tGet ch.half (k / 256)).inReset || (ch.clu (coreClu k)).inReset || c.inReset || c.testing

/-- The tasks that a path names. -/
def Chip.pathTasks (ch : Chip) (t : Nat) : List Nat :=
  if pathLen t = 4 then (List.range (ch.tcount (pathCore t))).map (fun i => pathCore t * 64 + i) else [pathTask t]

/-- Run an operation on a path: BAD_OP for a path that is none, a wait while its core cannot be reached. -/
def onPath (p : List Byte) (lo hi : Nat) (f : Nat → Vig × Chip → TRes) (s : Vig × Chip) : TRes :=
  match taperPath s.1 s.2 p lo hi with
  | none => .ans tpBadOp [] s
  | some t => if s.2.coreBusy (pathCore t) then .wait else f t s

/-- Run an operation on a halted task over which the session has rights (R535, R540). -/
def onHalted (p : List Byte) (f : Nat → Vig × Chip → TRes) (s : Vig × Chip) : TRes :=
  onPath p 5 5 (fun t s =>
    let x := s.2.task (pathTask t)
    if !x.halted then .ans tpNotHalted [] s
    else if !s.1.rights x then .ans tpDenied [] s
    else f (pathTask t) s) s

/-- The STATUS payload (R536). -/
def taperStatus (v : Vig) (ch : Chip) : List Byte :=
  let c := fun (h : Nat) => ch.fld HALF_RSTSTAT HALF_RSTSTAT_CAUSE h
  let ready := b2n (ch.cmdReady 0) * 16 + b2n (ch.cmdReady 1) * 32
  [BitVec.ofNat 8 v.lc, BitVec.ofNat 8 ((v.session.map (·.kind)).getD 0)] ++ leBytes 2 ((v.session.map (·.scope)).getD 0) ++
    [BitVec.ofNat 8 (c 0 + c 1 * 16), BitVec.ofNat 8 ready, BitVec.ofNat 8 v.pair.role, BitVec.ofNat 8 ch.attn] ++ leBytes 8 v.dt

/-- CHALLENGE: 16 fresh random bytes. -/
def taperChallenge (s : Vig × Chip) : TRes :=
  let b := leBytes 16 (Config.freeNat s.2.free)
  .ans tpOk b ({ s.1 with challenge := some b }, { s.2 with free := s.2.free + 1 })

/-- The token is accepted (R533, R534). -/
def tokenOk (v : Vig) (t : List Byte) : Bool :=
  let scope := fieldB t 4 2
  t.take 4 = [0x58, 0x44, 0x54, 0x4B] && (decide (scope < 4096) || decide (scope = 0xFFFF)) && fieldB t 6 1 < 32 &&
    fieldB t 7 1 = 0 && decide (v.dt < fieldB t 8 8) && sliceB t 16 32 = sha256 (edPublic (keyBytes 0)) &&
    v.challenge = some (sliceB t 48 16) && (1 ≤ v.lc && v.lc ≤ 3) && !(v.lc = 3 && scope = 0xFFFF) &&
    (match mGet? v.dbgKeys scope with
     | some k => edVerify k (sliceB t 0 64) (sliceB t 64 64)
     | none => false)

/-- SESSION_OPEN: the challenge is consumed either way; an open session ends for the new one. -/
def sessionOpen (t : List Byte) (s : Vig × Chip) : TRes :=
  let ok := tokenOk s.1 t
  let v : Vig := { s.1 with challenge := none }
  if !ok then .ans tpDenied [] (v, s.2)
  else
    let s := endSession (v, s.2)
    let kind := if s.1.lc = 3 then 2 else 1
    .ans tpOk [BitVec.ofNat 8 kind] ({ s.1 with session := some ⟨kind, fieldB t 4 2, fieldB t 6 1, fieldB t 8 8⟩ }, s.2)

/-- HALT (R538): requested of every task of the path that is not halted. -/
def taperHalt (p : List Byte) : Vig × Chip → TRes :=
  onPath p 4 5 (fun t s =>
    .ans tpOk [] (s.1, (s.2.pathTasks t).foldl (fun c k =>
      c.updTask k (fun x => { x with haltReq := !x.halted || x.haltReq })) s.2))

/-- RESUME (R541). An extinguished task of a service core stays as it is (R238). -/
def taperResume (p : List Byte) : Vig × Chip → TRes :=
  onPath p 4 5 (fun t s =>
    let go := fun (c : Chip) (k : Nat) => c.updTask k (fun x =>
      if x.halted then { x with halted := false, haltReq := false, stepping := false, noBp := true }
      else { x with haltReq := false, stepping := false })
    .ans tpOk [] (s.1, ((s.2.pathTasks t).filter (fun k => !(s.2.task k).dead && (!(s.2.task k).halted || s.1.rights (s.2.task k)))).foldl go s.2))

/-- STEP (R541): the task issues its next instruction and halts again. -/
def taperStep (p : List Byte) : Vig × Chip → TRes :=
  onHalted p (fun t s => .ans tpOk [] (s.1, s.2.updTask t (fun x => if x.dead then x else { x with stepping := true, noBp := true })))

/-- DRAIN (R539). -/
def taperDrain (p : List Byte) : Vig × Chip → TRes :=
  onHalted p (fun t s =>
    let x := s.2.task t
    if s.2.opsDone t then .ans tpOk [BitVec.ofNat 8 (min 8 x.fails.length)] s else .wait)

/-- What REGSEL names (R540): a task offset, a special register or a vector register; none for a value that names nothing. -/
inductive RegSel where
  | off (n : Nat) | special (n : Nat) | vec (n : Nat)
deriving DecidableEq, Repr

/-- The register that REGSEL names for a task. -/
def Chip.regSel (ch : Chip) (t n : Nat) : Option RegSel :=
  if n < ch.perTask (tCore t) then some (.off n)
  else if 0x1000 ≤ n ∧ n ≤ 0x1014 then some (.special (n - 0x1000))
  else if 0x2000 ≤ n ∧ n < 0x2020 ∧ ((ch.core (tCore t)).ctxOf (tNum t)).isSome then some (.vec (n - 0x2000))
  else none

/-- A capability or integer as a payload: 16 bytes and the tag. -/
def capPay (c : Cap) : List Byte := leBytes 16 c.bits.toNat ++ [BitVec.ofNat 8 (b2n c.tag)]

/-- REG_READ: an entry with an uncorrectable error answers FAULT (R466). -/
def regReadOp (p : List Byte) : Vig × Chip → TRes :=
  onHalted p (fun t s =>
    let s : Vig × Chip := (s.1, s.2.flush t)
    match s.2.regSel t (fieldB p 8 2) with
    | none => .ans tpBadOp [] s
    | some (.off n) =>
      let e := s.2.base t + n
      if (mGet? s.2.rsBad e).isSome then .ans tpFault [0x30] s else .ans tpOk (capPay (s.2.rdEntry e)) s
    | some (.special n) => .ans tpOk (capPay (s.2.rdSpecial s.1 t n)) s
    | some (.vec n) => .ans tpOk (capPay ⟨false, s.2.rdV t n⟩) s)

/-- REG_WRITE: tag 0 always; a special register as R106 lets the task write it. -/
def regWriteOp (p : List Byte) : Vig × Chip → TRes :=
  onHalted p (fun t s =>
    let ch := s.2.flush t
    let q : Quad := BitVec.ofNat 128 (fieldB p 10 16)
    match ch.regSel t (fieldB p 8 2) with
    | none => .ans tpBadOp [] s
    | some (.off n) => .ans tpOk [] (s.1, ch.wrEntry (ch.base t + n) ⟨false, q⟩)
    | some (.special n) =>
      if n = 19 ∧ (s.1.session.map (·.kind)) = some 2 then .ans tpDenied [] s
      else if !writePermitted (ch.task t) n then .ans tpFault [0x02] s
      else .ans tpOk [] (s.1, ch.updTask t (fun x => x.wrSpecial n ⟨false, q⟩))
    | some (.vec n) => .ans tpOk [] (s.1, ch.wrV t n q))

/-- REG_SETADDR: cpos on an entry or on PCC (R54, R540). -/
def regSetaddrOp (p : List Byte) : Vig × Chip → TRes :=
  onHalted p (fun t s =>
    let ch := s.2.flush t
    let a := fieldB p 10 8
    match ch.regSel t (fieldB p 8 2) with
    | some (.off n) =>
      let e := ch.base t + n
      if (mGet? ch.rsBad e).isSome then .ans tpFault [0x30] s
      else
        let c := cpos (ch.rdEntry e) a
        .ans tpOk [BitVec.ofNat 8 (b2n c.tag)] (s.1, ch.wrEntry e c)
    | some (.special 0) =>
      let c := cpos (ch.task t).pcc a
      .ans tpOk [BitVec.ofNat 8 (b2n c.tag)]
        (s.1, ch.updTask t (fun x => { x with pcc := c, fq := [], ffault := none, lastOp := none, pairOpen := false }))
    | _ => .ans tpBadOp [] s)

/-- The register at an offset of a core window (R545). -/
def dbgReg (o : Nat) : Option (RegD × Option Nat) :=
  if o % 8 ≠ 0 then none
  else if o < 0x40 then some (DBG_IBP, some (o / 8))
  else if o < 0x80 then if o % 16 = 0 then some (DBG_WPA, some ((o - 0x40) / 16)) else some (DBG_WPC, some ((o - 0x40) / 16))
  else if o = 0x80 then some (DBG_CORE_HALT, none)
  else if o = 0x88 then some (DBG_CORE_CTRL, none)
  else none

/-- A tenant session may write the value to the register (R543): its own tenant's breakpoints and watchpoints. -/
def dbgMay (v : Vig) (ch : Chip) (h m : Nat) (d : RegD) (i x : Nat) : Bool :=
  match v.session with
  | some s =>
    s.kind ≠ 2 || (if d.is DBG_IBP then bf x 48 12 = s.scope && !tb x 60
      else if d.is DBG_WPC then bf x 8 12 = s.scope && !tb x 20
      else if d.is DBG_WPA then
        let c := ch.reg DBG_WPC h [m, i]
        bf c 8 12 = s.scope && !tb c 20
      else false)
  | none => true

/-- DBG_WRITE. -/
def dbgWriteOp (p : List Byte) : Vig × Chip → TRes :=
  onPath p 4 4 (fun t s =>
    let h := pathHalf t
    let m := pathCore t % 256
    let x := fieldB p 10 8
    match dbgReg (fieldB p 8 2) with
    | none => .ans tpBadOp [] s
    | some (d, i) =>
      if !dbgMay s.1 s.2 h m d (i.getD 0) x then .ans tpDenied [] s
      else .ans tpOk [] (regWrite h d (m :: i.toList) x (2 ^ 64 - 1) s))

/-- DBG_READ. -/
def dbgReadOp (p : List Byte) : Vig × Chip → TRes :=
  onPath p 4 4 (fun t s =>
    match dbgReg (fieldB p 8 2) with
    | none => .ans tpBadOp [] s
    | some (d, i) =>
      let r := regRead s (pathHalf t) d ((pathCore t % 256) :: i.toList)
      .ans tpOk (leBytes 8 r) s)

/-- Where a memory operation goes (R534, R535): a device physical address, or, in a tenant session, the translation of a
compartment of the tenant. -/
def taperPieces (wr : Bool) (a n comp : Nat) (s : Vig × Chip) : Chip × (List Piece ⊕ (Nat × List Byte)) :=
  match s.1.session with
  | some x =>
    if x.kind ≠ 2 then (s.2, .inl [⟨a, n, false, 0⟩])
    else
      match s.2.record comp with
      | none => (s.2, .inr (tpDenied, []))
      | some r =>
        if r.tenant ≠ x.scope then (s.2, .inr (tpDenied, []))
        else
          let c := compHalf comp * 16 + r.cluster
          let t := (pageSpans a n).foldl (fun (acc : Chip × List Piece × Option Flt) sp =>
            match acc.2.2 with
            | some _ => acc
            | none =>
              let q := acc.1.xlate s.1 c none comp x.scope sp.1 (if wr then 2 else 1)
              match q.2 with
              | .ok pa _ mir => (q.1, acc.2.1 ++ [⟨pa, sp.2, mir, 0⟩], none)
              | .bad f _ => (q.1, acc.2.1, some f)) (s.2, [], none)
          match t.2.2 with
          | some f => (t.1, .inr (tpFault, [BitVec.ofNat 8 f.code]))
          | none => (t.1, .inl t.2.1)
  | none => (s.2, .inl [⟨a, n, false, 0⟩])

/-- The first refusal of the Taper guards (R312 to R314, R317): the violation is recorded. -/
def Chip.taperGuard (ch : Chip) (wr : Bool) : List (Nat × Nat) → Option Chip
  | [] => none
  | p :: r =>
    match ch.guardLine (paHalf p.1) 0x103 wr p.1 with
    | .violation reason slot col => some (ch.violate (paHalf p.1) 0x103 wr reason slot col 0 0 p.1)
    | _ => ch.taperGuard wr r

/-- What the line checks answer (R322, R535, R79): a status with its payload, or none to go on. -/
def taperLines (v : Vig) (ch : Chip) (n : Nat) (ps : List (Nat × Nat)) : Option (Nat × List Byte) :=
  let mem := ps.filter (fun p => !(ch.ram.region p.1).isCsr)
  let own := (v.session.map (·.kind)) = some 2
  if own ∧ mem.any (fun p => let c := ch.ram.lineCol p.1; c = 0 || c = 1 || c = 3 || c = 4) then some (tpDenied, [])
  else if v.lc = 3 ∧ !own ∧ mem.any (fun p => ch.ram.lineCol p.1 ≥ 5) then some (tpLocked, List.replicate n 0)
  else if mem.any (fun p => ch.lineBad p.1) then some (tpFault, [0x30])
  else none

/-- MEM_READ and MEM_WRITE (R316, R322, R532, R535): `d` is the data to write. -/
def taperMem (wr : Bool) (p d : List Byte) (s : Vig × Chip) : TRes :=
  let a := fieldB p 0 8
  let n := fieldB p 8 2
  if n < 8 ∨ 256 < n ∨ n % 8 ≠ 0 ∨ a % 8 ≠ 0 then .ans tpBadOp [] s
  else
    let t := taperPieces wr a n (fieldB p 10 2) s
    let s : Vig × Chip := (s.1, t.1)
    match t.2 with
    | .inr e => .ans e.1 e.2 s
    | .inl pieces =>
      let ps := pieces.flatMap lineParts
      if ps.any (fun q => (tGet s.2.half (paHalf q.1)).inReset) then .wait
      else
        match s.2.taperGuard wr ps with
        | some ch => .ans tpOk (if wr then [] else List.replicate n 0) (s.1, ch)
        | none =>
          match taperLines s.1 s.2 (if wr then 0 else n) ps with
          | some e =>
            let ch := if e.1 = tpLocked then
              s.2.cnt GRD_LOCKED GRD_LOCKED_COUNT (paHalf ((ps.head?.map (·.1)).getD 0)) [0x103] else s.2
            .ans e.1 e.2 (s.1, ch)
          | none =>
            if wr then .ans tpOk [] (busPut ps d s)
            else
              let r := busGet ps s
              .ans tpOk r.1 r.2

/-- HALT_TAKEN (R168, R192, R193, R234, R238, R538, R541): a requested halt is taken at an instruction boundary at which the session
has rights; not within a gate call, a pair or an access of its present instruction. A task of a service core is bound to no
compartment. -/
def haltTaken (t : Nat) (v : Vig) (ch : Chip) : Chip :=
  let x := ch.task t
  let runs := x.bound.isSome || (coreSvc (tCore t) && x.pcc ≠ Cap.null)
  if !x.haltReq ∨ !runs ∨ x.dead ∨ x.halted ∨ !v.rights x ∨ ch.midPair t then ch
  else ch.haltTask t (if x.stepping then 32 else 1)

/-- SESSION_EXPIRY (R536). -/
def sessionExpiry (v : Vig) (ch : Chip) : Vig × Chip :=
  match v.session with
  | some x => if x.notafter ≤ v.dt then endSession (v, ch) else (v, ch)
  | none => (v, ch)

/-- TAPER_RESPONSE_TIMEOUT (R530): the request that waits is answered TIMEOUT. -/
def taperTimeout (v : Vig) : Vig :=
  match v.held with
  | some x => { v with held := none, taper := taperPacket x.2.1 tpTimeout [] }
  | none => v

/-- The operations of R532. -/
def taperOps : List Nat := [1, 2, 3, 4, 5, 0x10, 0x11, 0x12, 0x13, 0x14, 0x15, 0x16, 0x20, 0x21, 0x30, 0x31]

/-- BAD_PACKET (R530, R532): `b` are the bytes of a request. A bad sync byte, CRC or length is answered BAD_PACKET, and an OP
that is none BAD_OP. -/
def badPacket (b : List Byte) (v : Vig) : Vig :=
  let n := fieldB b 2 2
  let op := fieldB b 1 1
  let p := sliceB b 5 n
  let whole := decide (b.length = n + 7) && decide (n ≤ 512) && b.take 1 = [0xA5] && crcTod (b.take (n + 5)) = fieldB b (n + 5) 2
  let say := fun (st : Nat) => ({ v with taper := taperPacket (fieldB b 4 1) st [] } : Vig)
  if v.resetN ∨ v.held.isSome then v
  else if !whole then say tpBadPacket
  else if !taperOps.contains op then say tpBadOp
  else if !taperFits op p then say tpBadPacket
  else v

/-- TAPER_STATUS. -/
def execTaperStatus (seq : Nat) (p : List Byte) (s : State) : Out :=
  taperRow 0x01 seq p (fun s => .ans tpOk (taperStatus s.1 s.2) s) s
/-- TAPER_ATTN. -/
def execTaperAttn (seq : Nat) (p : List Byte) (s : State) : Out :=
  taperRow 0x02 seq p (fun s => .ans tpOk (leBytes 2 s.2.attn) (s.1, { s.2 with attn := 0 })) s
/-- TAPER_CHALLENGE. -/
def execTaperChallenge (seq : Nat) (p : List Byte) (s : State) : Out := taperRow 0x03 seq p taperChallenge s
/-- SESSION_OPEN. -/
def execSessionOpen (seq : Nat) (p : List Byte) (s : State) : Out := taperRow 0x04 seq p (sessionOpen p) s
/-- SESSION_CLOSE. -/
def execSessionClose (seq : Nat) (p : List Byte) (s : State) : Out := taperRow 0x05 seq p (fun s => .ans tpOk [] (endSession s)) s
/-- SESSION_EXPIRY. -/
def execSessionExpiry (s : State) : Out := bothStep sessionExpiry s
/-- TAPER_HALT. -/
def execTaperHalt (seq : Nat) (p : List Byte) (s : State) : Out := taperRow 0x10 seq p (taperHalt p) s
/-- HALT_TAKEN. -/
def execHaltTaken (t : Nat) (s : State) : Out := chipStep (haltTaken t) s
/-- TAPER_RESUME. -/
def execTaperResume (seq : Nat) (p : List Byte) (s : State) : Out := taperRow 0x11 seq p (taperResume p) s
/-- TAPER_STEP. -/
def execTaperStep (seq : Nat) (p : List Byte) (s : State) : Out := taperRow 0x12 seq p (taperStep p) s
/-- TAPER_DRAIN. -/
def execTaperDrain (seq : Nat) (p : List Byte) (s : State) : Out := taperRow 0x13 seq p (taperDrain p) s
/-- REG_READ. -/
def execRegRead (seq : Nat) (p : List Byte) (s : State) : Out := taperRow 0x14 seq p (regReadOp p) s
/-- REG_WRITE. -/
def execRegWrite (seq : Nat) (p : List Byte) (s : State) : Out := taperRow 0x15 seq p (regWriteOp p) s
/-- REG_SETADDR. -/
def execRegSetaddr (seq : Nat) (p : List Byte) (s : State) : Out := taperRow 0x16 seq p (regSetaddrOp p) s
/-- DBG_WRITE. -/
def execDbgWrite (seq : Nat) (p : List Byte) (s : State) : Out := taperRow 0x20 seq p (dbgWriteOp p) s
/-- DBG_READ. -/
def execDbgRead (seq : Nat) (p : List Byte) (s : State) : Out := taperRow 0x21 seq p (dbgReadOp p) s
/-- TAPER_MEM_READ. -/
def execTaperMemRead (seq : Nat) (p : List Byte) (s : State) : Out := taperRow 0x30 seq p (taperMem false p []) s
/-- TAPER_MEM_WRITE. -/
def execTaperMemWrite (seq : Nat) (p : List Byte) (s : State) : Out := taperRow 0x31 seq p (taperMem true p (p.drop 12)) s
/-- TAPER_RESPONSE_TIMEOUT. -/
def execTaperResponseTimeout (s : State) : Out := vigStep (fun _ v => taperTimeout v) s
/-- BAD_PACKET. -/
def execBadPacket (b : List Byte) (s : State) : Out := vigStep (fun _ v => badPacket b v) s

end Sys2Proof.Machine
end

