-- ==== Sys2Proof/Machine/Dispatch.lean ====
section
/-! DEFINITION. One arm for each command. -/

namespace Sys2Proof.Machine

/-- The effect of a command on everything but the queue. -/
def exec (i : Instr) (s : State) : Host.Outcome State Fault Refusal :=
  match i with
  | .aluOp t w => Sys2Proof.Machine.execAluOp t w s
  | .aluImmediate t w => Sys2Proof.Machine.execAluImmediate t w s
  | .shiftImmediate t w => Sys2Proof.Machine.execShiftImmediate t w s
  | .movi t w => Sys2Proof.Machine.execMovi t w s
  | .movsh t w => Sys2Proof.Machine.execMovsh t w s
  | .mul t w => Sys2Proof.Machine.execMul t w s
  | .div t w => Sys2Proof.Machine.execDiv t w s
  | .divideComplete t id => Sys2Proof.Machine.execDivideComplete t id s
  | .compare t w => Sys2Proof.Machine.execCompare t w s
  | .cmpi t w => Sys2Proof.Machine.execCmpi t w s
  | .predicateLogic t w => Sys2Proof.Machine.execPredicateLogic t w s
  | .unaryBitOp t w => Sys2Proof.Machine.execUnaryBitOp t w s
  | .crcStep t w => Sys2Proof.Machine.execCrcStep t w s
  | .cpos t w => Sys2Proof.Machine.execCpos t w s
  | .cadv t w => Sys2Proof.Machine.execCadv t w s
  | .ccut t w => Sys2Proof.Machine.execCcut t w s
  | .cfit t w => Sys2Proof.Machine.execCfit t w s
  | .cdrop t w => Sys2Proof.Machine.execCdrop t w s
  | .ctint t w => Sys2Proof.Machine.execCtint t w s
  | .cwrap t w => Sys2Proof.Machine.execCwrap t w s
  | .cunwrap t w => Sys2Proof.Machine.execCunwrap t w s
  | .cgate t w => Sys2Proof.Machine.execCgate t w s
  | .ccopy t w => Sys2Proof.Machine.execCcopy t w s
  | .cround t w => Sys2Proof.Machine.execCround t w s
  | .camask t w => Sys2Proof.Machine.execCamask t w s
  | .cpaint t w => Sys2Proof.Machine.execCpaint t w s
  | .cdiff t w => Sys2Proof.Machine.execCdiff t w s
  | .capInspect t w => Sys2Proof.Machine.execCapInspect t w s
  | .cadvi t w => Sys2Proof.Machine.execCadvi t w s
  | .ccuti t w => Sys2Proof.Machine.execCcuti t w s
  | .cpcrel t w => Sys2Proof.Machine.execCpcrel t w s
  | .load t w hit => Sys2Proof.Machine.execLoad t w hit s
  | .lcap t w hit => Sys2Proof.Machine.execLcap t w hit s
  | .store t w hit => Sys2Proof.Machine.execStore t w hit s
  | .scap t w hit => Sys2Proof.Machine.execScap t w hit s
  | .amoadd t w => Sys2Proof.Machine.execAmoadd t w s
  | .amoswp t w => Sys2Proof.Machine.execAmoswp t w s
  | .cas t w => Sys2Proof.Machine.execCas t w s
  | .stm t w stop luck => Sys2Proof.Machine.execStm t w stop luck s
  | .ldm t w stop luck => Sys2Proof.Machine.execLdm t w stop luck s
  | .b t w => Sys2Proof.Machine.execB t w s
  | .call t w => Sys2Proof.Machine.execCall t w s
  | .jr t w => Sys2Proof.Machine.execJr t w s
  | .callr t w => Sys2Proof.Machine.execCallr t w s
  | .ret t w => Sys2Proof.Machine.execRet t w s
  | .loop t w => Sys2Proof.Machine.execLoop t w s
  | .rep t w w2 => Sys2Proof.Machine.execRep t w w2 s
  | .blockElement t ue => Sys2Proof.Machine.execBlockElement t ue s
  | .gcall t w => Sys2Proof.Machine.execGcall t w s
  | .gret t w => Sys2Proof.Machine.execGret t w s
  | .post t w => Sys2Proof.Machine.execPost t w s
  | .waitq t w => Sys2Proof.Machine.execWaitq t w s
  | .waitqN t w => Sys2Proof.Machine.execWaitqN t w s
  | .waitqWake t => Sys2Proof.Machine.execWaitqWake t s
  | .sync t w => Sys2Proof.Machine.execSync t w s
  | .syncM t w => Sys2Proof.Machine.execSyncM t w s
  | .syncP t w => Sys2Proof.Machine.execSyncP t w s
  | .iflush t w => Sys2Proof.Machine.execIflush t w s
  | .dflushI t w => Sys2Proof.Machine.execDflushI t w s
  | .dflushC t w => Sys2Proof.Machine.execDflushC t w s
  | .dflushCi t w => Sys2Proof.Machine.execDflushCi t w s
  | .tlbiVa t w => Sys2Proof.Machine.execTlbiVa t w s
  | .tlbiTag t w => Sys2Proof.Machine.execTlbiTag t w s
  | .tlbiAll t w => Sys2Proof.Machine.execTlbiAll t w s
  | .wci t w => Sys2Proof.Machine.execWci t w s
  | .wciIpa t w => Sys2Proof.Machine.execWciIpa t w s
  | .invalidationComplete t id => Sys2Proof.Machine.execInvalidationComplete t id s
  | .nop t w => Sys2Proof.Machine.execNop t w s
  | .mfs t w => Sys2Proof.Machine.execMfs t w s
  | .mts t w => Sys2Proof.Machine.execMts t w s
  | .xget t w => Sys2Proof.Machine.execXget t w s
  | .xput t w => Sys2Proof.Machine.execXput t w s
  | .eret t w => Sys2Proof.Machine.execEret t w s
  | .fence t w => Sys2Proof.Machine.execFence t w s
  | .fenceSt t w => Sys2Proof.Machine.execFenceSt t w s
  | .fenceLd t w => Sys2Proof.Machine.execFenceLd t w s
  | .trap t w => Sys2Proof.Machine.execTrap t w s
  | .brk t w => Sys2Proof.Machine.execBrk t w s
  | .vsetvl t w => Sys2Proof.Machine.execVsetvl t w s
  | .vectorVvOp t w => Sys2Proof.Machine.execVectorVvOp t w s
  | .vectorVsOp t w => Sys2Proof.Machine.execVectorVsOp t w s
  | .vectorReduction t w => Sys2Proof.Machine.execVectorReduction t w s
  | .vperm t w => Sys2Proof.Machine.execVperm t w s
  | .vrelease t w => Sys2Proof.Machine.execVrelease t w s
  | .vld t w => Sys2Proof.Machine.execVld t w s
  | .vst t w => Sys2Proof.Machine.execVst t w s
  | .vldff t w => Sys2Proof.Machine.execVldff t w s
  | .vectorContextAcquire t => Sys2Proof.Machine.execVectorContextAcquire t s
  | .vectorContextReclaim k => Sys2Proof.Machine.execVectorContextReclaim k s
  | .fetchFill t stale => Sys2Proof.Machine.execFetchFill t stale s
  | .longOpComplete t id => Sys2Proof.Machine.execLongOpComplete t id s
  | .storeDrain k => Sys2Proof.Machine.execStoreDrain k s
  | .switchPoint k stalled => Sys2Proof.Machine.execSwitchPoint k stalled s
  | .sliceEnd k stalled => Sys2Proof.Machine.execSliceEnd k stalled s
  | .budgetKill t => Sys2Proof.Machine.execBudgetKill t s
  | .bind c => Sys2Proof.Machine.execBind c s
  | .unbind t => Sys2Proof.Machine.execUnbind t s
  | .eventArrival src n => Sys2Proof.Machine.execEventArrival src n s
  | .balanceEpochEnd h => Sys2Proof.Machine.execBalanceEpochEnd h s
  | .compartmentMove id => Sys2Proof.Machine.execCompartmentMove id s
  | .wickFlitReceive h noise => Sys2Proof.Machine.execWickFlitReceive h noise s
  | .wickReplayTimeout h => Sys2Proof.Machine.execWickReplayTimeout h s
  | .wickRetrain h => Sys2Proof.Machine.execWickRetrain h s
  | .wickTrainingComplete ok => Sys2Proof.Machine.execWickTrainingComplete ok s
  | .wickRequestTimeout h => Sys2Proof.Machine.execWickRequestTimeout h s
  | .wickDown => Sys2Proof.Machine.execWickDown s
  | .wickRetrainWrite h => Sys2Proof.Machine.execWickRetrainWrite h s
  | .wickEnableWrite h en => Sys2Proof.Machine.execWickEnableWrite h en s
  | .remoteAccessArrival h n => Sys2Proof.Machine.execRemoteAccessArrival h n s
  | .forwardedCommandArrival h => Sys2Proof.Machine.execForwardedCommandArrival h s
  | .forwardedCompletionArrival h => Sys2Proof.Machine.execForwardedCompletionArrival h s
  | .dmaTailWrite h e v => Sys2Proof.Machine.execDmaTailWrite h e v s
  | .dmaDescriptorStart h e => Sys2Proof.Machine.execDmaDescriptorStart h e s
  | .dmaPiece h e rdLate wrLate => Sys2Proof.Machine.execDmaPiece h e rdLate wrLate s
  | .dmaDescriptorDone h e => Sys2Proof.Machine.execDmaDescriptorDone h e s
  | .dmaResume h e => Sys2Proof.Machine.execDmaResume h e s
  | .dmaAbort h e => Sys2Proof.Machine.execDmaAbort h e s
  | .adRequest t id => Sys2Proof.Machine.execAdRequest t id s
  | .xltAdreqRead h => Sys2Proof.Machine.execXltAdreqRead h s
  | .xltAdackWrite h id => Sys2Proof.Machine.execXltAdackWrite h id s
  | .adWaitExpiry t id => Sys2Proof.Machine.execAdWaitExpiry t id s
  | .translationWalkDone c k t kind n => Sys2Proof.Machine.execTranslationWalkDone c k t kind n s
  | .grdVinfoClear h m => Sys2Proof.Machine.execGrdVinfoClear h m s
  | .frameReceive h p bytes fec pick => Sys2Proof.Machine.execFrameReceive h p bytes fec pick s
  | .misdirectedFrameArrival h pick alt => Sys2Proof.Machine.execMisdirectedFrameArrival h pick alt s
  | .ownmapHoldRelease h j n => Sys2Proof.Machine.execOwnmapHoldRelease h j n s
  | .flowBucketReadDone h n => Sys2Proof.Machine.execFlowBucketReadDone h n s
  | .deliveryWaitTimeout h n => Sys2Proof.Machine.execDeliveryWaitTimeout h n s
  | .learnCommit h => Sys2Proof.Machine.execLearnCommit h s
  | .tableUpdateCommit u => Sys2Proof.Machine.execTableUpdateCommit u s
  | .agingScan h b => Sys2Proof.Machine.execAgingScan h b s
  | .handBack h => Sys2Proof.Machine.execHandBack h s
  | .frameTransmitDone h p => Sys2Proof.Machine.execFrameTransmitDone h p s
  | .runReclaim h first => Sys2Proof.Machine.execRunReclaim h first s
  | .parseGraphSwap h => Sys2Proof.Machine.execParseGraphSwap h s
  | .policerConfigWrite h ten p burst x => Sys2Proof.Machine.execPolicerConfigWrite h ten p burst x s
  | .meterIncrementArrival h par ten j => Sys2Proof.Machine.execMeterIncrementArrival h par ten j s
  | .gaugeTick h => Sys2Proof.Machine.execGaugeTick h s
  | .minuteBoundary => Sys2Proof.Machine.execMinuteBoundary s
  | .half1TotalsArrival => Sys2Proof.Machine.execHalf1TotalsArrival s
  | .partialSealTimeout => Sys2Proof.Machine.execPartialSealTimeout s
  | .sealRecordsFormed => Sys2Proof.Machine.execSealRecordsFormed s
  | .rootSigned => Sys2Proof.Machine.execRootSigned s
  | .flashSlotWritten stuck => Sys2Proof.Machine.execFlashSlotWritten stuck s
  | .ledgerSectorErase ok => Sys2Proof.Machine.execLedgerSectorErase ok s
  | .countersignTimeout => Sys2Proof.Machine.execCountersignTimeout s
  | .todMessage b => Sys2Proof.Machine.execTodMessage b s
  | .ppsEdge => Sys2Proof.Machine.execPpsEdge s
  | .holdoverTimeout => Sys2Proof.Machine.execHoldoverTimeout s
  | .slewEnd => Sys2Proof.Machine.execSlewEnd s
  | .heartbeatSend => Sys2Proof.Machine.execHeartbeatSend s
  | .mirrorCellReceive h cell => Sys2Proof.Machine.execMirrorCellReceive h cell s
  | .peerAliveEdge level => Sys2Proof.Machine.execPeerAliveEdge level s
  | .pathTimeout => Sys2Proof.Machine.execPathTimeout s
  | .takeover => Sys2Proof.Machine.execTakeover s
  | .fallbackTimeout => Sys2Proof.Machine.execFallbackTimeout s
  | .yield reason half => Sys2Proof.Machine.execYield reason half s
  | .mirrorReplayTimeout h => Sys2Proof.Machine.execMirrorReplayTimeout h s
  | .mirrorLinkDown h => Sys2Proof.Machine.execMirrorLinkDown h s
  | .meterDeltaSend h fin => Sys2Proof.Machine.execMeterDeltaSend h fin s
  | .peerFlowCommitApply h => Sys2Proof.Machine.execPeerFlowCommitApply h s
  | .peerMeterDeltaApply h => Sys2Proof.Machine.execPeerMeterDeltaApply h s
  | .peerLedgerBlockApply h => Sys2Proof.Machine.execPeerLedgerBlockApply h s
  | .mirrorWriter h => Sys2Proof.Machine.execMirrorWriter h s
  | .resyncStart => Sys2Proof.Machine.execResyncStart s
  | .resyncBucketCopy h => Sys2Proof.Machine.execResyncBucketCopy h s
  | .resyncDone => Sys2Proof.Machine.execResyncDone s
  | .resyncAbandon => Sys2Proof.Machine.execResyncAbandon s
  | .sqDoorbell h q x => Sys2Proof.Machine.execSqDoorbell h q x s
  | .cqDoorbell h q x => Sys2Proof.Machine.execCqDoorbell h q x s
  | .ringDoorbell h k x => Sys2Proof.Machine.execRingDoorbell h k x s
  | .q0EnableWrite h x => Sys2Proof.Machine.execQ0EnableWrite h x s
  | .commandFetch h => Sys2Proof.Machine.execCommandFetch h s
  | .sqReadDone h q how entry => Sys2Proof.Machine.execSqReadDone h q how entry s
  | .completionPost h n ok => Sys2Proof.Machine.execCompletionPost h n ok s
  | .msixCoalesceTimer h q => Sys2Proof.Machine.execMsixCoalesceTimer h q s
  | .commandTimeout h id => Sys2Proof.Machine.execCommandTimeout h id s
  | .pcieCompletionTimeout h q id => Sys2Proof.Machine.execPcieCompletionTimeout h q id s
  | .pcieLinkReset h => Sys2Proof.Machine.execPcieLinkReset h s
  | .adrusNop h id => Sys2Proof.Machine.execAdrusNop h id s
  | .identify h id => Sys2Proof.Machine.execIdentify h id s
  | .createQueue h id => Sys2Proof.Machine.execCreateQueue h id s
  | .deleteQueue h id => Sys2Proof.Machine.execDeleteQueue h id s
  | .getHealth h id => Sys2Proof.Machine.execGetHealth h id s
  | .getEvent h id => Sys2Proof.Machine.execGetEvent h id s
  | .reset h id pick => Sys2Proof.Machine.execReset h id pick s
  | .csrRead h id => Sys2Proof.Machine.execCsrRead h id s
  | .csrWrite h id => Sys2Proof.Machine.execCsrWrite h id s
  | .tenantCreate h id rvBase rvLen rb0 rb1 => Sys2Proof.Machine.execTenantCreate h id rvBase rvLen rb0 rb1 s
  | .tenantDestroy h id => Sys2Proof.Machine.execTenantDestroy h id s
  | .tenantSet h id => Sys2Proof.Machine.execTenantSet h id s
  | .compCreate h id data rsc save => Sys2Proof.Machine.execCompCreate h id data rsc save s
  | .compDestroy h id => Sys2Proof.Machine.execCompDestroy h id s
  | .compPause h id => Sys2Proof.Machine.execCompPause h id s
  | .compResume h id => Sys2Proof.Machine.execCompResume h id s
  | .compRestart h id => Sys2Proof.Machine.execCompRestart h id s
  | .compMove h id => Sys2Proof.Machine.execCompMove h id s
  | .compSetfront h id => Sys2Proof.Machine.execCompSetfront h id s
  | .compSet h id => Sys2Proof.Machine.execCompSet h id s
  | .compQuery h id => Sys2Proof.Machine.execCompQuery h id s
  | .taskcfg h id => Sys2Proof.Machine.execTaskcfg h id s
  | .memAlloc h id addr => Sys2Proof.Machine.execMemAlloc h id addr s
  | .memFree h id => Sys2Proof.Machine.execMemFree h id s
  | .s1Set h id => Sys2Proof.Machine.execS1Set h id s
  | .xltInval h id => Sys2Proof.Machine.execXltInval h id s
  | .revoke h id => Sys2Proof.Machine.execRevoke h id s
  | .sweep h id => Sys2Proof.Machine.execSweep h id s
  | .adResolve h id => Sys2Proof.Machine.execAdResolve h id s
  | .memRead h id => Sys2Proof.Machine.execMemRead h id s
  | .memWrite h id data => Sys2Proof.Machine.execMemWrite h id data s
  | .flowInsert h id => Sys2Proof.Machine.execFlowInsert h id s
  | .flowDelete h id => Sys2Proof.Machine.execFlowDelete h id s
  | .flowQuery h id => Sys2Proof.Machine.execFlowQuery h id s
  | .flowFlush h id => Sys2Proof.Machine.execFlowFlush h id s
  | .templateSet h id data => Sys2Proof.Machine.execTemplateSet h id data s
  | .slotSet h id => Sys2Proof.Machine.execSlotSet h id s
  | .ruleSet h id data => Sys2Proof.Machine.execRuleSet h id data s
  | .parseLoad h id data => Sys2Proof.Machine.execParseLoad h id data s
  | .kprofSet h id => Sys2Proof.Machine.execKprofSet h id s
  | .ownmapSet h id => Sys2Proof.Machine.execOwnmapSet h id s
  | .portSet h id => Sys2Proof.Machine.execPortSet h id s
  | .tableConfig h id => Sys2Proof.Machine.execTableConfig h id s
  | .ringSet h id => Sys2Proof.Machine.execRingSet h id s
  | .frameInject h id how data pick => Sys2Proof.Machine.execFrameInject h id how data pick s
  | .cntRead h id => Sys2Proof.Machine.execCntRead h id s
  | .policerSet h id => Sys2Proof.Machine.execPolicerSet h id s
  | .setTime h id => Sys2Proof.Machine.execSetTime h id s
  | .ledgerFetch h id => Sys2Proof.Machine.execLedgerFetch h id s
  | .hostkeySet h id => Sys2Proof.Machine.execHostkeySet h id s
  | .countersign h id data => Sys2Proof.Machine.execCountersign h id data s
  | .ledgerStatus h id => Sys2Proof.Machine.execLedgerStatus h id s
  | .anchorRead h id => Sys2Proof.Machine.execAnchorRead h id s
  | .pairBind h id => Sys2Proof.Machine.execPairBind h id s
  | .pairUnbind h id => Sys2Proof.Machine.execPairUnbind h id s
  | .pairTakeover h id => Sys2Proof.Machine.execPairTakeover h id s
  | .pairYield h id => Sys2Proof.Machine.execPairYield h id s
  | .pairResync h id => Sys2Proof.Machine.execPairResync h id s
  | .pairStatus h id => Sys2Proof.Machine.execPairStatus h id s
  | .pairCfgtag h id => Sys2Proof.Machine.execPairCfgtag h id s
  | .modeSet h id => Sys2Proof.Machine.execModeSet h id s
  | .modeGet h id => Sys2Proof.Machine.execModeGet h id s
  | .scrubSet h id => Sys2Proof.Machine.execScrubSet h id s
  | .clockSet h id => Sys2Proof.Machine.execClockSet h id s
  | .retrainGrant h id => Sys2Proof.Machine.execRetrainGrant h id s
  | .selftestSet h id => Sys2Proof.Machine.execSelftestSet h id s
  | .telemetryRead h id => Sys2Proof.Machine.execTelemetryRead h id s
  | .lcStatus h id => Sys2Proof.Machine.execLcStatus h id s
  | .lcAdvance h id => Sys2Proof.Machine.execLcAdvance h id s
  | .identityRead h id => Sys2Proof.Machine.execIdentityRead h id s
  | .dbgkeySet h id => Sys2Proof.Machine.execDbgkeySet h id s
  | .dbgRevoke h id => Sys2Proof.Machine.execDbgRevoke h id s
  | .i3cCommand b => Sys2Proof.Machine.execI3cCommand b s
  | .i3cHealthRead => Sys2Proof.Machine.execI3cHealthRead s
  | .counterReadClear pa => Sys2Proof.Machine.execCounterReadClear pa s
  | .registerWrite pa x mach => Sys2Proof.Machine.execRegisterWrite pa x mach s
  | .trimmerPatrol h err => Sys2Proof.Machine.execTrimmerPatrol h err s
  | .scrubLevelAdjust h => Sys2Proof.Machine.execScrubLevelAdjust h s
  | .sramScrub reg a err => Sys2Proof.Machine.execSramScrub reg a err s
  | .retrainDue h c temp => Sys2Proof.Machine.execRetrainDue h c temp s
  | .retrainStep h c => Sys2Proof.Machine.execRetrainStep h c s
  | .retrainForce h c => Sys2Proof.Machine.execRetrainForce h c s
  | .retrainComplete h c ok => Sys2Proof.Machine.execRetrainComplete h c ok s
  | .islandClockStep c up here => Sys2Proof.Machine.execIslandClockStep c up here s
  | .droop c n => Sys2Proof.Machine.execDroop c n s
  | .clockCalibrationEnd c => Sys2Proof.Machine.execClockCalibrationEnd c s
  | .thermalCapStep h => Sys2Proof.Machine.execThermalCapStep h s
  | .voltageStep h up ok => Sys2Proof.Machine.execVoltageStep h up ok s
  | .avsbusRetry h ok => Sys2Proof.Machine.execAvsbusRetry h ok s
  | .sweepQueue t => Sys2Proof.Machine.execSweepQueue t s
  | .sweepStart => Sys2Proof.Machine.execSweepStart s
  | .snufferGranule h => Sys2Proof.Machine.execSnufferGranule h s
  | .sweepComplete => Sys2Proof.Machine.execSweepComplete s
  | .telemetryPage h => Sys2Proof.Machine.execTelemetryPage h s
  | .sliceStart h cond => Sys2Proof.Machine.execSliceStart h cond s
  | .sliceDrainTimeout h => Sys2Proof.Machine.execSliceDrainTimeout h s
  | .sliceTestEnd h pass => Sys2Proof.Machine.execSliceTestEnd h pass s
  | .sliceAbandon h => Sys2Proof.Machine.execSliceAbandon h s
  | .powerOnReset torn => Sys2Proof.Machine.execPowerOnReset torn s
  | .resetN torn => Sys2Proof.Machine.execResetN torn s
  | .halfReset h => Sys2Proof.Machine.execHalfReset h s
  | .serviceCoreReset h => Sys2Proof.Machine.execServiceCoreReset h s
  | .clusterReset c dirty => Sys2Proof.Machine.execClusterReset c dirty s
  | .coreReset k => Sys2Proof.Machine.execCoreReset k s
  | .resetRelease kind u straps => Sys2Proof.Machine.execResetRelease kind u straps s
  | .ddrInitDone h dens fail => Sys2Proof.Machine.execDdrInitDone h dens fail s
  | .tagRegionZeroed h => Sys2Proof.Machine.execTagRegionZeroed h s
  | .zeroPassLine h => Sys2Proof.Machine.execZeroPassLine h s
  | .zeroPassDone h => Sys2Proof.Machine.execZeroPassDone h s
  | .summaryBlockFirstWrite a => Sys2Proof.Machine.execSummaryBlockFirstWrite a s
  | .bootTaskStart h => Sys2Proof.Machine.execBootTaskStart h s
  | .imageVerify h img sig => Sys2Proof.Machine.execImageVerify h img sig s
  | .vigilLedgerRecovery sectors => Sys2Proof.Machine.execVigilLedgerRecovery sectors s
  | .coreWatchdog v => Sys2Proof.Machine.execCoreWatchdog v s
  | .clusterWatchdog c answers pick => Sys2Proof.Machine.execClusterWatchdog c answers pick s
  | .clusterProbe c ok => Sys2Proof.Machine.execClusterProbe c ok s
  | .dramRequestTimeout r => Sys2Proof.Machine.execDramRequestTimeout r s
  | .swdogExpiry h => Sys2Proof.Machine.execSwdogExpiry h s
  | .swdogKick h => Sys2Proof.Machine.execSwdogKick h s
  | .thermalTrip => Sys2Proof.Machine.execThermalTrip s
  | .ethQmodeWrite h x => Sys2Proof.Machine.execEthQmodeWrite h x s
  | .portLinkChange h p up => Sys2Proof.Machine.execPortLinkChange h p up s
  | .taperStatus seq p => Sys2Proof.Machine.execTaperStatus seq p s
  | .taperAttn seq p => Sys2Proof.Machine.execTaperAttn seq p s
  | .taperChallenge seq p => Sys2Proof.Machine.execTaperChallenge seq p s
  | .sessionOpen seq p => Sys2Proof.Machine.execSessionOpen seq p s
  | .sessionClose seq p => Sys2Proof.Machine.execSessionClose seq p s
  | .sessionExpiry => Sys2Proof.Machine.execSessionExpiry s
  | .taperHalt seq p => Sys2Proof.Machine.execTaperHalt seq p s
  | .haltTaken t => Sys2Proof.Machine.execHaltTaken t s
  | .taperResume seq p => Sys2Proof.Machine.execTaperResume seq p s
  | .taperStep seq p => Sys2Proof.Machine.execTaperStep seq p s
  | .taperDrain seq p => Sys2Proof.Machine.execTaperDrain seq p s
  | .regRead seq p => Sys2Proof.Machine.execRegRead seq p s
  | .regWrite seq p => Sys2Proof.Machine.execRegWrite seq p s
  | .regSetaddr seq p => Sys2Proof.Machine.execRegSetaddr seq p s
  | .dbgWrite seq p => Sys2Proof.Machine.execDbgWrite seq p s
  | .dbgRead seq p => Sys2Proof.Machine.execDbgRead seq p s
  | .taperMemRead seq p => Sys2Proof.Machine.execTaperMemRead seq p s
  | .taperMemWrite seq p => Sys2Proof.Machine.execTaperMemWrite seq p s
  | .taperResponseTimeout => Sys2Proof.Machine.execTaperResponseTimeout s
  | .badPacket b => Sys2Proof.Machine.execBadPacket b s
  | .bypass x => Sys2Proof.Machine.execBypass x s
  | .idcode => Sys2Proof.Machine.execIdcode s
  | .samplePreload balls x => Sys2Proof.Machine.execSamplePreload balls x s
  | .extest balls x => Sys2Proof.Machine.execExtest balls x s
  | .clamp x => Sys2Proof.Machine.execClamp x s
  | .highz x => Sys2Proof.Machine.execHighz x s
  | .mirrorLinkUp h => Sys2Proof.Machine.execMirrorLinkUp h s
  | .pcieLinkUp h speed width => Sys2Proof.Machine.execPcieLinkUp h speed width s
  | .pcieInboundAccess h at_ r late => Sys2Proof.Machine.execPcieInboundAccess h at_ r late s
  | .pcieConfigWrite h power x => Sys2Proof.Machine.execPcieConfigWrite h power x s
  | .i3cCcc c x => Sys2Proof.Machine.execI3cCcc c x s
  | .wickFlitSend h => Sys2Proof.Machine.execWickFlitSend h s
  | .mirrorCellSend h => Sys2Proof.Machine.execMirrorCellSend h s
  | .wickPacketFrameArrival h pick => Sys2Proof.Machine.execWickPacketFrameArrival h pick s
  | .junctionSensorRead h t => Sys2Proof.Machine.execJunctionSensorRead h t s

end Sys2Proof.Machine
end

