-- ==== Sys2Proof/Machine/Tick.lean ====
section
/-! DEFINITION. The tick of the Vigil oscillator (R373): what happens with no command waiting. A design choice (log 6): a
step on an empty queue is one tick of 10 ns. -/

namespace Sys2Proof.Machine

/-- Device time gained in one tick, in 10^-9 ns, before any slew (R373, R374): 10 ns, or in HOLDOVER at the rate
measured over the last accepted intervals. -/
def Vig.tickRate (v : Vig) : Nat :=
  if v.tstate = 3 ∧ v.edges.sum ≠ 0 then v.edges.length * 10000000000 * 1000000000 / v.edges.sum else 10000000000

/-- The sign of the slew in progress (R376): device time runs 10,000 ppm fast, slow, or as it is. -/
def Vig.slewSign (v : Vig) : Int := if v.slew then v.err.sign else 0

/-- Device time gained in one tick, in 10^-9 ns (R376). -/
def Vig.tickGain (v : Vig) : Nat :=
  if v.slewSign = 1 then v.tickRate * 101 / 100 else if v.slewSign = -1 then v.tickRate * 99 / 100 else v.tickRate

/-- What is left of a correction after one tick, in hundredths of a nanosecond (R376): 0.1 ns less, never past zero. -/
def Vig.errLeft (v : Vig) : Int :=
  if v.slewSign = 1 then max 0 (v.err - 10) else if v.slewSign = -1 then min 0 (v.err + 10) else v.err

/-- One tick of the Vigil oscillator (R373, R376). -/
def Vig.tick (v : Vig) : Vig :=
  { v with clk := v.clk + 10, dt := v.dt + (v.frac + v.tickGain) / 1000000000
           frac := (v.frac + v.tickGain) % 1000000000, err := v.errLeft }

/-- Since when each core has had a ready task (R518), at time `clk`. -/
def Chip.readySince (ch : Chip) (clk : Nat) : NMap Nat :=
  (((ch.tasks.filter (fun e => ch.ready e.1)).map (fun e => tCore e.1)).eraseDups).map
    (fun k => (k, mGet ch.readyAt k clk))

/-- A cluster's cores that are empty (R257): out of reset, with no holder and no task that could issue. -/
def Chip.emptyCores (ch : Chip) (c : Nat) : Nat :=
  ((List.range 16).filter (fun i =>
    let k := c / 16 * 256 + c % 16 * 16 + i
    !(ch.core k).inReset && (ch.core k).holder.isNone && (ch.readyTasks k []).isEmpty)).length

/-- The cycles of empty cores in one tick ending at time `clk` are charged to nobody and counted in SCH_IDLE (R257, R264). -/
def Chip.tickIdle (ch : Chip) (clk : Nat) : Chip :=
  (List.range 32).foldl (fun g c =>
    let k := ch.clu c
    if k.inReset then g
    else g.cnt SCH_IDLE SCH_IDLE_COUNT (c / 16) [c % 16] (ch.emptyCores c * (k.freq * clk / 1000 - k.freq * (clk - 10) / 1000))) ch

/-- One tick of the block: nothing while RESET_N is held (R495). -/
def tick (s : State) : State :=
  if s.vig.resetN then s
  else
    let v := s.vig.tick
    { s with vig := v, chip := { s.chip.tickIdle v.clk with readyAt := s.chip.readySince v.clk, walkX := none } }

end Sys2Proof.Machine
end

