-- ==== Sys2Proof/WellFormed.lean ====
section
/-! DEFINITION. Which commands name something the part has: a half, a cluster, a core, a task, a channel, an engine, a
port or a tenant within its range (R1, R3, R81, R505), and an outcome the row has. -/

namespace Sys2Proof

/-- A core number: two halves of 256 cores (R3), then the two service cores (R505). -/
abbrev isCore (k : Nat) : Prop := k < 514

/-- A task key: a core number times 64 and a task number (R81). -/
abbrev isTask (t : Nat) : Prop := t < 514 * 64

/-- The command's operands are in their ranges. An operand out of range names nothing (log 1). -/
def Instr.wf (i : Instr) : Bool :=
  match i with
  | .aluOp t _ => decide (isTask t)
  | .aluImmediate t _ => decide (isTask t)
  | .shiftImmediate t _ => decide (isTask t)
  | .movi t _ => decide (isTask t)
  | .movsh t _ => decide (isTask t)
  | .mul t _ => decide (isTask t)
  | .div t _ => decide (isTask t)
  | .divideComplete t _ => decide (isTask t)
  | .compare t _ => decide (isTask t)
  | .cmpi t _ => decide (isTask t)
  | .predicateLogic t _ => decide (isTask t)
  | .unaryBitOp t _ => decide (isTask t)
  | .crcStep t _ => decide (isTask t)
  | .cpos t _ => decide (isTask t)
  | .cadv t _ => decide (isTask t)
  | .ccut t _ => decide (isTask t)
  | .cfit t _ => decide (isTask t)
  | .cdrop t _ => decide (isTask t)
  | .ctint t _ => decide (isTask t)
  | .cwrap t _ => decide (isTask t)
  | .cunwrap t _ => decide (isTask t)
  | .cgate t _ => decide (isTask t)
  | .ccopy t _ => decide (isTask t)
  | .cround t _ => decide (isTask t)
  | .camask t _ => decide (isTask t)
  | .cpaint t _ => decide (isTask t)
  | .cdiff t _ => decide (isTask t)
  | .capInspect t _ => decide (isTask t)
  | .cadvi t _ => decide (isTask t)
  | .ccuti t _ => decide (isTask t)
  | .cpcrel t _ => decide (isTask t)
  | .load t _ _ => decide (isTask t)
  | .lcap t _ _ => decide (isTask t)
  | .store t _ _ => decide (isTask t)
  | .scap t _ _ => decide (isTask t)
  | .amoadd t _ => decide (isTask t)
  | .amoswp t _ => decide (isTask t)
  | .cas t _ => decide (isTask t)
  | .stm t _ _ _ => decide (isTask t)
  | .ldm t _ _ _ => decide (isTask t)
  | .b t _ => decide (isTask t)
  | .call t _ => decide (isTask t)
  | .jr t _ => decide (isTask t)
  | .callr t _ => decide (isTask t)
  | .ret t _ => decide (isTask t)
  | .loop t _ => decide (isTask t)
  | .rep t _ _ => decide (isTask t)
  | .blockElement t _ => decide (isTask t)
  | .gcall t _ => decide (isTask t)
  | .gret t _ => decide (isTask t)
  | .post t _ => decide (isTask t)
  | .waitq t _ => decide (isTask t)
  | .waitqN t _ => decide (isTask t)
  | .waitqWake t => decide (isTask t)
  | .sync t _ => decide (isTask t)
  | .syncM t _ => decide (isTask t)
  | .syncP t _ => decide (isTask t)
  | .iflush t _ => decide (isTask t)
  | .dflushI t _ => decide (isTask t)
  | .dflushC t _ => decide (isTask t)
  | .dflushCi t _ => decide (isTask t)
  | .tlbiVa t _ => decide (isTask t)
  | .tlbiTag t _ => decide (isTask t)
  | .tlbiAll t _ => decide (isTask t)
  | .wci t _ => decide (isTask t)
  | .wciIpa t _ => decide (isTask t)
  | .invalidationComplete t _ => decide (isTask t)
  | .nop t _ => decide (isTask t)
  | .mfs t _ => decide (isTask t)
  | .mts t _ => decide (isTask t)
  | .xget t _ => decide (isTask t)
  | .xput t _ => decide (isTask t)
  | .eret t _ => decide (isTask t)
  | .fence t _ => decide (isTask t)
  | .fenceSt t _ => decide (isTask t)
  | .fenceLd t _ => decide (isTask t)
  | .trap t _ => decide (isTask t)
  | .brk t _ => decide (isTask t)
  | .vsetvl t _ => decide (isTask t)
  | .vectorVvOp t _ => decide (isTask t)
  | .vectorVsOp t _ => decide (isTask t)
  | .vectorReduction t _ => decide (isTask t)
  | .vperm t _ => decide (isTask t)
  | .vrelease t _ => decide (isTask t)
  | .vld t _ => decide (isTask t)
  | .vst t _ => decide (isTask t)
  | .vldff t _ => decide (isTask t)
  | .vectorContextAcquire t => decide (isTask t)
  | .vectorContextReclaim k => decide (isCore k)
  | .fetchFill t _ => decide (isTask t)
  | .longOpComplete t _ => decide (isTask t)
  | .storeDrain k => decide (isCore k)
  | .switchPoint k _ => decide (isCore k)
  | .sliceEnd k _ => decide (isCore k)
  | .budgetKill t => decide (isTask t)
  | .bind c => decide (c < 32)
  | .unbind t => decide (isTask t)
  | .eventArrival src _ => decide (src < 66)
  | .balanceEpochEnd h => decide (h < 2)
  | .compartmentMove _ => true
  | .wickFlitReceive h _ => decide (h < 2)
  | .wickReplayTimeout h => decide (h < 2)
  | .wickRetrain h => decide (h < 2)
  | .wickTrainingComplete _ => true
  | .wickRequestTimeout h => decide (h < 2)
  | .wickDown => true
  | .wickRetrainWrite h => decide (h < 2)
  | .wickEnableWrite h _ => decide (h < 2)
  | .remoteAccessArrival h _ => decide (h < 2)
  | .forwardedCommandArrival h => decide (h < 2)
  | .forwardedCompletionArrival h => decide (h < 2)
  | .dmaTailWrite h e _ => decide (h < 2 ∧ e < 4)
  | .dmaDescriptorStart h e => decide (h < 2 ∧ e < 4)
  | .dmaPiece h e _ _ => decide (h < 2 ∧ e < 4)
  | .dmaDescriptorDone h e => decide (h < 2 ∧ e < 4)
  | .dmaResume h e => decide (h < 2 ∧ e < 4)
  | .dmaAbort h e => decide (h < 2 ∧ e < 4)
  | .adRequest t _ => decide (isTask t)
  | .xltAdreqRead h => decide (h < 2)
  | .xltAdackWrite h _ => decide (h < 2)
  | .adWaitExpiry t _ => decide (isTask t)
  | .translationWalkDone c k t kind _ => decide (c < 32 ∧ k < 16 ∧ t < 64 ∧ kind < 3)
  | .grdVinfoClear h _ => decide (h < 2)
  | .frameReceive h p _ _ _ => decide (h < 2 ∧ p < 8)
  | .misdirectedFrameArrival h _ _ => decide (h < 2)
  | .ownmapHoldRelease h _ _ => decide (h < 2)
  | .flowBucketReadDone h _ => decide (h < 2)
  | .deliveryWaitTimeout h _ => decide (h < 2)
  | .learnCommit h => decide (h < 2)
  | .tableUpdateCommit u => decide (u.half < 2)
  | .agingScan h _ => decide (h < 2)
  | .handBack h => decide (h < 2)
  | .frameTransmitDone h p => decide (h < 2 ∧ p < 8)
  | .runReclaim h _ => decide (h < 2)
  | .parseGraphSwap h => decide (h < 2)
  | .policerConfigWrite h ten _ _ _ => decide (h < 2 ∧ ten < 4096)
  | .meterIncrementArrival h par ten _ => decide (h < 2 ∧ par < 2 ∧ ten < 4096)
  | .gaugeTick h => decide (h < 2)
  | .minuteBoundary => true
  | .half1TotalsArrival => true
  | .partialSealTimeout => true
  | .sealRecordsFormed => true
  | .rootSigned => true
  | .flashSlotWritten _ => true
  | .ledgerSectorErase _ => true
  | .countersignTimeout => true
  | .todMessage _ => true
  | .ppsEdge => true
  | .holdoverTimeout => true
  | .slewEnd => true
  | .heartbeatSend => true
  | .mirrorCellReceive h _ => decide (h < 2)
  | .peerAliveEdge _ => true
  | .pathTimeout => true
  | .takeover => true
  | .fallbackTimeout => true
  | .yield _ half => decide (half < 2)
  | .mirrorReplayTimeout h => decide (h < 2)
  | .mirrorLinkDown h => decide (h < 2)
  | .meterDeltaSend h _ => decide (h < 2)
  | .peerFlowCommitApply h => decide (h < 2)
  | .peerMeterDeltaApply h => decide (h < 2)
  | .peerLedgerBlockApply h => decide (h < 2)
  | .mirrorWriter h => decide (h < 2)
  | .resyncStart => true
  | .resyncBucketCopy h => decide (h < 2)
  | .resyncDone => true
  | .resyncAbandon => true
  | .sqDoorbell h _ _ => decide (h < 2)
  | .cqDoorbell h _ _ => decide (h < 2)
  | .ringDoorbell h _ _ => decide (h < 2)
  | .q0EnableWrite h _ => decide (h < 2)
  | .commandFetch h => decide (h < 2)
  | .sqReadDone h _ _ _ => decide (h < 2)
  | .completionPost h _ _ => decide (h < 2)
  | .msixCoalesceTimer h _ => decide (h < 2)
  | .commandTimeout h _ => decide (h < 2)
  | .pcieCompletionTimeout h _ _ => decide (h < 2)
  | .pcieLinkReset h => decide (h < 2)
  | .adrusNop h _ => decide (h < 2)
  | .identify h _ => decide (h < 2)
  | .createQueue h _ => decide (h < 2)
  | .deleteQueue h _ => decide (h < 2)
  | .getHealth h _ => decide (h < 2)
  | .getEvent h _ => decide (h < 2)
  | .reset h _ _ => decide (h < 2)
  | .csrRead h _ => decide (h < 2)
  | .csrWrite h _ => decide (h < 2)
  | .tenantCreate h _ _ _ _ _ => decide (h < 2)
  | .tenantDestroy h _ => decide (h < 2)
  | .tenantSet h _ => decide (h < 2)
  | .compCreate h _ _ _ _ => decide (h < 2)
  | .compDestroy h _ => decide (h < 2)
  | .compPause h _ => decide (h < 2)
  | .compResume h _ => decide (h < 2)
  | .compRestart h _ => decide (h < 2)
  | .compMove h _ => decide (h < 2)
  | .compSetfront h _ => decide (h < 2)
  | .compSet h _ => decide (h < 2)
  | .compQuery h _ => decide (h < 2)
  | .taskcfg h _ => decide (h < 2)
  | .memAlloc h _ _ => decide (h < 2)
  | .memFree h _ => decide (h < 2)
  | .s1Set h _ => decide (h < 2)
  | .xltInval h _ => decide (h < 2)
  | .revoke h _ => decide (h < 2)
  | .sweep h _ => decide (h < 2)
  | .adResolve h _ => decide (h < 2)
  | .memRead h _ => decide (h < 2)
  | .memWrite h _ _ => decide (h < 2)
  | .flowInsert h _ => decide (h < 2)
  | .flowDelete h _ => decide (h < 2)
  | .flowQuery h _ => decide (h < 2)
  | .flowFlush h _ => decide (h < 2)
  | .templateSet h _ _ => decide (h < 2)
  | .slotSet h _ => decide (h < 2)
  | .ruleSet h _ _ => decide (h < 2)
  | .parseLoad h _ _ => decide (h < 2)
  | .kprofSet h _ => decide (h < 2)
  | .ownmapSet h _ => decide (h < 2)
  | .portSet h _ => decide (h < 2)
  | .tableConfig h _ => decide (h < 2)
  | .ringSet h _ => decide (h < 2)
  | .frameInject h _ _ _ _ => decide (h < 2)
  | .cntRead h _ => decide (h < 2)
  | .policerSet h _ => decide (h < 2)
  | .setTime h _ => decide (h < 2)
  | .ledgerFetch h _ => decide (h < 2)
  | .hostkeySet h _ => decide (h < 2)
  | .countersign h _ _ => decide (h < 2)
  | .ledgerStatus h _ => decide (h < 2)
  | .anchorRead h _ => decide (h < 2)
  | .pairBind h _ => decide (h < 2)
  | .pairUnbind h _ => decide (h < 2)
  | .pairTakeover h _ => decide (h < 2)
  | .pairYield h _ => decide (h < 2)
  | .pairResync h _ => decide (h < 2)
  | .pairStatus h _ => decide (h < 2)
  | .pairCfgtag h _ => decide (h < 2)
  | .modeSet h _ => decide (h < 2)
  | .modeGet h _ => decide (h < 2)
  | .scrubSet h _ => decide (h < 2)
  | .clockSet h _ => decide (h < 2)
  | .retrainGrant h _ => decide (h < 2)
  | .selftestSet h _ => decide (h < 2)
  | .telemetryRead h _ => decide (h < 2)
  | .lcStatus h _ => decide (h < 2)
  | .lcAdvance h _ => decide (h < 2)
  | .identityRead h _ => decide (h < 2)
  | .dbgkeySet h _ => decide (h < 2)
  | .dbgRevoke h _ => decide (h < 2)
  | .i3cCommand _ => true
  | .i3cHealthRead => true
  | .counterReadClear _ => true
  | .registerWrite _ _ _ => true
  | .trimmerPatrol h err => decide (h < 2 ∧ (err < 3 ∨ (8 ≤ err ∧ err < 12)))
  | .scrubLevelAdjust h => decide (h < 2)
  | .sramScrub _ _ err => decide (err < 3)
  | .retrainDue h c _ => decide (h < 2 ∧ c < 4)
  | .retrainStep h c => decide (h < 2 ∧ c < 4)
  | .retrainForce h c => decide (h < 2 ∧ c < 4)
  | .retrainComplete h c _ => decide (h < 2 ∧ c < 4)
  | .islandClockStep c _ _ => decide (c < 32)
  | .droop c _ => decide (c < 32)
  | .clockCalibrationEnd c => decide (c < 32)
  | .thermalCapStep h => decide (h < 2)
  | .voltageStep h _ _ => decide (h < 2)
  | .avsbusRetry h _ => decide (h < 2)
  | .sweepQueue t => decide (t < 4096)
  | .sweepStart => true
  | .snufferGranule h => decide (h < 2)
  | .sweepComplete => true
  | .telemetryPage h => decide (h < 2)
  | .sliceStart h _ => decide (h < 2)
  | .sliceDrainTimeout h => decide (h < 2)
  | .sliceTestEnd h _ => decide (h < 2)
  | .sliceAbandon h => decide (h < 2)
  | .powerOnReset _ => true
  | .resetN _ => true
  | .halfReset h => decide (h < 2)
  | .serviceCoreReset h => decide (h < 2)
  | .clusterReset c _ => decide (c < 32)
  | .coreReset k => decide (isCore k)
  | .resetRelease _ _ _ => true
  | .ddrInitDone h _ _ => decide (h < 2)
  | .tagRegionZeroed h => decide (h < 2)
  | .zeroPassLine h => decide (h < 2)
  | .zeroPassDone h => decide (h < 2)
  | .summaryBlockFirstWrite _ => true
  | .bootTaskStart h => decide (h < 2)
  | .imageVerify h _ _ => decide (h < 2)
  | .vigilLedgerRecovery _ => true
  | .coreWatchdog v => decide (isCore v.core)
  | .clusterWatchdog c _ _ => decide (c < 32)
  | .clusterProbe c _ => decide (c < 32)
  | .dramRequestTimeout _ => true
  | .swdogExpiry h => decide (h < 2)
  | .swdogKick h => decide (h < 2)
  | .thermalTrip => true
  | .ethQmodeWrite h _ => decide (h < 2)
  | .portLinkChange h p _ => decide (h < 2 ∧ p < 8)
  | .taperStatus seq _ => decide (seq < 256)
  | .taperAttn seq _ => decide (seq < 256)
  | .taperChallenge seq _ => decide (seq < 256)
  | .sessionOpen seq _ => decide (seq < 256)
  | .sessionClose seq _ => decide (seq < 256)
  | .sessionExpiry => true
  | .taperHalt seq _ => decide (seq < 256)
  | .haltTaken t => decide (isTask t)
  | .taperResume seq _ => decide (seq < 256)
  | .taperStep seq _ => decide (seq < 256)
  | .taperDrain seq _ => decide (seq < 256)
  | .regRead seq _ => decide (seq < 256)
  | .regWrite seq _ => decide (seq < 256)
  | .regSetaddr seq _ => decide (seq < 256)
  | .dbgWrite seq _ => decide (seq < 256)
  | .dbgRead seq _ => decide (seq < 256)
  | .taperMemRead seq _ => decide (seq < 256)
  | .taperMemWrite seq _ => decide (seq < 256)
  | .taperResponseTimeout => true
  | .badPacket _ => true
  | .bypass _ => true
  | .idcode => true
  | .samplePreload _ _ => true
  | .extest _ _ => true
  | .clamp _ => true
  | .highz _ => true
  | .mirrorLinkUp h => decide (h < 2)
  | .pcieLinkUp h _ _ => decide (h < 2)
  | .pcieInboundAccess h _ _ _ => decide (h < 2)
  | .pcieConfigWrite h _ _ => decide (h < 2)
  | .i3cCcc _ _ => true
  | .wickFlitSend h => decide (h < 2)
  | .mirrorCellSend h => decide (h < 2)
  | .wickPacketFrameArrival h _ => decide (h < 2)
  | .junctionSensorRead h t => decide (h < 2 ∧ t.length = 8)

end Sys2Proof
end

