-- ==== Sys2Proof/Safety.lean ====
section
/-! DEFINITION. The terms that statements use: when an instruction reaches its body, and how it ends; when a host command has
started, and how it ends; when the Taper port takes a request; and what every state of the block keeps. -/

namespace Sys2Proof.Machine

/-- A Taper STEP issues the task's next instruction (R541). -/
def stepped (s : State) (t : Nat) : Bool := (s.chip.task t).halted && (s.chip.task t).stepping

/-- Task `t` issues the word `w` of a row and reaches its body: no halt comes first (R538) unless the task stands where none is
taken, and every check of R160 and R161
passes and leaves `i`. -/
def Reaches (s : State) (t : Nat) (w : IWord) (w2 : Option IWord) (row : Row) (i : Issue) : Prop :=
  ((s.chip.task t).haltReq && s.vig.rights (s.chip.task t) && !(s.chip.task t).busy) = false ∧
    s.chip.issueChecks s.vig t w w2 row (stepped s t) = .inr i

/-- The state that an instruction leaves which ends with the chip `c`: a stepped task then halts (R541). -/
def Ends (s : State) (t : Nat) (c : Chip) : State :=
  { s with chip := if stepped s t then c.stepDone s.vig t (s.chip.task t) else c }

/-- The state that an instruction leaves whose body answers `r`. -/
def Answers (s : State) (t : Nat) (w : IWord) (i : Issue) (r : Res) : State := Ends s t (i.finish s.vig t w.toNat r)

/-- The state that an instruction leaves whose body answers `r.2` and whose accesses, which may reach control blocks, leave the
Vigil island as `r.1`. -/
def AnswersBoth (s : State) (t : Nat) (w : IWord) (i : Issue) (r : Vig × Res) : State := { Answers s t w i r.2 with vig := r.1 }

/-- The instruction completes and falls through with the chip `c`. -/
abbrev Falls (s : State) (t : Nat) (w : IWord) (i : Issue) (c : Chip) : State := Answers s t w i (.ok c)

/-- The instruction writes the integer `x` to rd and falls through (R118). -/
abbrev Puts (s : State) (t : Nat) (w : IWord) (i : Issue) (x : Word) : State :=
  Falls s t w i (i.ch.wrReg t (wA w.toNat) ⟨false, x.setWidth 128⟩)

/-- The instruction writes `c` to rd with latency `l` (R169) and falls through. -/
abbrev Lands (s : State) (t : Nat) (w : IWord) (i : Issue) (l : Nat) (c : Cap) : State :=
  Falls s t w i (i.ch.laterReg t (wA w.toNat) l c)

/-- The instruction changes its task and falls through. -/
abbrev Sets (s : State) (t : Nat) (w : IWord) (i : Issue) (f : Task → Task) : State := Falls s t w i (i.ch.updTask t f)

/-- Command `c` of half `h` has started there: the half is out of reset and its Chandler ready, unless the opcode needs none
(R428); its completion goes to the half's own host or to I3C, and it has not timed out. -/
def Started (s : State) (h id op : Nat) (c : Cmd) : Prop :=
  h < 2 ∧ s.chip.cmd h id = some c ∧ c.op = op ∧ c.fwd = false ∧ c.started = true ∧ c.timedOut = false ∧ c.src ≠ .far ∧
    (tGet s.chip.half h).inReset = false ∧ (s.chip.cmdReady h = true ∨ c.fast = true)

/-- The state that a command leaves which ends: the island `v` and the rest `g`, the command gone, and its completion, with
status, RESULT and buffer, last of those that wait to be posted (R425). -/
def Ended (s : State) (h : Nat) (c : Cmd) (st : Nat) (res buf : List Byte) (v : Vig) (g : Chip) : State :=
  { s with vig := v, chip := g.updAdrus h (fun x =>
      { x with cmds := x.cmds.filter (fun k => k.id ≠ c.id), compl := x.compl ++ [c.compl st res buf] }) }

/-- The state that a command leaves which acts on both halves and has done its part on this one: the island `v` and the rest `g`,
the command marked, and the other half sent its part, the command's entry and `extra` (R16, R576). -/
def HalfDone (s : State) (h : Nat) (c : Cmd) (extra : List Byte) (v : Vig) (g : Chip) : State :=
  { s with vig := v, chip := (g.updCmd h c.id (fun c => { c with aux := 1 })).sendPart v h c (c.entry ++ extra) }

/-- The Taper port takes the request of `op` (R530, R534): it is out of reset and holds no other request, the payload fits the
operation, and the life cycle and the session permit it. -/
def Asked (s : State) (op seq : Nat) (p : List Byte) : Prop :=
  s.vig.resetN = false ∧ (s.vig.held = none ∨ s.vig.held = some (op, seq, p)) ∧ taperFits op p = true ∧ taperMay op s.vig = true

/-- The state after the Taper port has answered a request: the island `v` and the rest `g`. -/
def Replied (s : State) (st seq : Nat) (pay : List Byte) (v : Vig) (g : Chip) : State :=
  { s with vig := { v with held := none, taper := taperPacket seq st pay }, chip := g }

/-- The command ends with a status and changes nothing else. -/
abbrev Fails (s : State) (h : Nat) (c : Cmd) (st : Nat) : State := Ended s h c st [] [] s.vig s.chip

/-- The Vigil island holds only values that the specification names: a life-cycle state (R512) and a transition to one, one of
two counter banks (R377), a fraction of a nanosecond below one (R373), a time state (R374), a role (R399), a level of the
peer's ball (R405), and modes of signing and failover (R450). -/
structure Vig.Legal (v : Vig) : Prop where
  lc : v.lc ≤ 4
  lcNext : ∀ t, v.lcNext = some t → t ≤ 4
  parity : v.parity ≤ 1
  frac : v.frac < 1000000000
  tstate : v.tstate ≤ 3
  role : v.pair.role ≤ 5
  ball : v.pair.ball ≤ 2
  signMode : v.signMode ≤ 1
  failMode : v.pair.failMode ≤ 1

end Sys2Proof.Machine
end

