-- ==== Sys2Proof/Certificates/Slice0/Obligations.lean ====
section
/-! DEFINITION. The statements about the model. -/

open Sys2Proof Sys2Proof.Machine

/-- The scalar instructions complete with the results of R120 to R126 (field names and operands: R117, R118). -/
def Obligations.ScalarResults : Prop :=
  ∀ (s : State) (t : Nat) (w : IWord) (i : Issue),
    let n := w.toNat
    let a := i.ch.rdW t (wB n)
    let b := i.ch.rdW t (wC n)
    (Reaches s t w none .aluOp i → exec (.aluOp t w) s = .next (Puts s t w i (aluResult n a b))) ∧
    (Reaches s t w none .aluImm i → exec (.aluImmediate t w) s = .next (Puts s t w i (aluImmResult n a))) ∧
    (Reaches s t w none .shiftImm i → exec (.shiftImmediate t w) s = .next (Puts s t w i (shiftImmResult n a))) ∧
    (Reaches s t w none .movi i → exec (.movi t w) s = .next (Puts s t w i ((w.extractLsb' 0 16).signExtend 64))) ∧
    (Reaches s t w none .movsh i →
      exec (.movsh t w) s = .next (Puts s t w i ((i.ch.rdW t (wA n) <<< 16) ||| (w.extractLsb' 0 16).setWidth 64))) ∧
    (Reaches s t w none .unary i →
      exec (.unaryBitOp t w) s = .next (Puts s t w i (BitVec.ofNat 64 (unaryResult (wMin n) a.toNat)))) ∧
    (Reaches s t w none .mul i →
      exec (.mul t w) s = .next (Falls s t w i (i.ch.later t 3 .mhml
        ⟨false, if wMin n = 0 then a.signExtend 128 * b.signExtend 128 else a.setWidth 128 * b.setWidth 128⟩))) ∧
    (Reaches s t w none .crc i →
      exec (.crcStep t w) s = .next (Lands s t w i 2 (Cap.ofNat
        (crcStep (decide (4 ≤ wMin n)) (i.ch.task t).crcpoly.toNat a.toNat b.toNat (2 ^ (wMin n % 4)))))) ∧
    (Reaches s t w none .compare i →
      exec (.compare t w) s = .next (Sets s t w i (fun x => x.setPred (wPd n)
        (if wMin n = 7 then i.ch.rdReg t (wB n) == i.ch.rdReg t (wC n) else relation (wMin n) a.toNat b.toNat)))) ∧
    (Reaches s t w none .cmpi i →
      exec (.cmpi t w) s = .next (Sets s t w i (fun x => x.setPred (wPd n)
        (relation (bf n 16 3) a.toNat ((w.extractLsb' 0 10).signExtend 64).toNat)))) ∧
    (Reaches s t w none .predLogic i →
      exec (.predicateLogic t w) s = .next (Sets s t w i (fun x => x.setPred (wPd n)
        (predLogic (wMin n) ((i.ch.task t).pred (bf n 13 3)) ((i.ch.task t).pred (bf n 7 3))))))

/-- R120 to R122 as bit-vector equations. -/
def Obligations.AluTable : Prop :=
  ∀ (w : IWord) (a b : Word),
    let n := w.toNat
    let a32 := a.setWidth 32
    let b32 := b.setWidth 32
    let imm := (w.extractLsb' 0 10).signExtend 64
    (wMaj n = 0x01 →
      (wMin n = 0 → aluResult n a b = a + b) ∧ (wMin n = 1 → aluResult n a b = a - b) ∧
      (wMin n = 2 → aluResult n a b = a &&& b) ∧ (wMin n = 3 → aluResult n a b = a ||| b) ∧
      (wMin n = 4 → aluResult n a b = a ^^^ b) ∧ (wMin n = 5 → aluResult n a b = a &&& ~~~b) ∧
      (wMin n = 6 → aluResult n a b = a <<< (b &&& 63)) ∧ (wMin n = 7 → aluResult n a b = a >>> (b &&& 63)) ∧
      (wMin n = 8 → aluResult n a b = a.sshiftRight' (b &&& 63)) ∧
      (wMin n = 9 → (aluResult n a b).toInt = min a.toInt b.toInt) ∧
      (wMin n = 10 → (aluResult n a b).toInt = max a.toInt b.toInt) ∧
      (wMin n = 11 → (aluResult n a b).toNat = min a.toNat b.toNat) ∧
      (wMin n = 12 → (aluResult n a b).toNat = max a.toNat b.toNat) ∧
      (wMin n = 13 → aluResult n a b = a.rotateRight (b &&& 63).toNat)) ∧
    (wMaj n = 0x02 →
      (wMin n = 0 → aluResult n a b = (a32 + b32).signExtend 64) ∧ (wMin n = 1 → aluResult n a b = (a32 - b32).signExtend 64) ∧
      (wMin n = 6 → aluResult n a b = (a32 <<< (b32 &&& 31)).signExtend 64) ∧
      (wMin n = 7 → aluResult n a b = (a32 >>> (b32 &&& 31)).signExtend 64) ∧
      (wMin n = 8 → aluResult n a b = (a32.sshiftRight' (b32 &&& 31)).signExtend 64)) ∧
    (wMaj n = 0x08 → aluImmResult n a = a + imm) ∧ (wMaj n = 0x09 → aluImmResult n a = a &&& imm) ∧
    (wMaj n = 0x0A → aluImmResult n a = a ||| imm) ∧ (wMaj n = 0x0B → aluImmResult n a = a ^^^ imm) ∧
    (bf n 8 2 = 0 → shiftImmResult n a = a <<< w.extractLsb' 0 6) ∧
    (bf n 8 2 = 1 → shiftImmResult n a = a >>> w.extractLsb' 0 6) ∧
    (bf n 8 2 = 2 → shiftImmResult n a = a.sshiftRight' (w.extractLsb' 0 6)) ∧
    (bf n 8 2 = 3 → shiftImmResult n a = a.rotateRight (w.extractLsb' 0 6).toNat)

/-- R124 and R92: relations, predicate logic, and the predicates a write leaves. -/
def Obligations.PredicateTable : Prop :=
  (∀ (a b : Word),
    (relation 0 a.toNat b.toNat = true ↔ a = b) ∧ (relation 1 a.toNat b.toNat = true ↔ a ≠ b) ∧
    (relation 2 a.toNat b.toNat = a.slt b) ∧ (relation 3 a.toNat b.toNat = !a.slt b) ∧
    (relation 4 a.toNat b.toNat = a.ult b) ∧ (relation 5 a.toNat b.toNat = !a.ult b) ∧
    (relation 6 a.toNat b.toNat = true ↔ a &&& b ≠ 0)) ∧
  (∀ (a b : Bool), predLogic 0 a b = (a && b) ∧ predLogic 1 a b = (a || b) ∧ predLogic 2 a b = (a ^^ b) ∧
    predLogic 3 a b = (a && !b) ∧ predLogic 4 a b = !a ∧ predLogic 5 a b = true ∧ predLogic 6 a b = false) ∧
  (∀ (x : Task) (p q : Nat) (v : Bool), p < 8 → q < 8 →
    (x.setPred p v).pred q = if q = 0 then true else if q = p then v else x.pred q)

/-- R125. -/
def Obligations.UnaryTable : Prop :=
  (∀ (s : State) (t : Nat) (w : IWord) (i : Issue), Reaches s t w none .unary i → exec (.unaryBitOp t w) s =
    .next (Puts s t w i (BitVec.ofNat 64 (unaryResult (wMin w.toNat) (i.ch.rdW t (wB w.toNat)).toNat)))) ∧
  (∀ (tw : Bool) (w w2 : Nat), wMaj w = 3 → wC w ≠ 0 ∨ 14 < wMin w → reservedInsn tw w w2 = true) ∧
  ∀ (a : Word),
    (a = 0 → unaryResult 0 a.toNat = 64 ∧ unaryResult 1 a.toNat = 64) ∧
    (a ≠ 0 → 2 ^ (63 - unaryResult 0 a.toNat) ≤ a.toNat ∧ a.toNat < 2 ^ (64 - unaryResult 0 a.toNat)) ∧
    (a ≠ 0 → 2 ^ unaryResult 1 a.toNat ∣ a.toNat ∧ ¬ 2 ^ (unaryResult 1 a.toNat + 1) ∣ a.toNat) ∧
    unaryResult 2 a.toNat = ((List.range 64).filter (fun i => a.getLsbD i)).length ∧
    unaryResult 3 a.toNat = unaryResult 2 a.toNat % 2 ∧
    (∀ i < 64, (unaryResult 4 a.toNat).testBit i = a.getLsbD (63 - i)) ∧
    (∀ i < 64, (unaryResult 5 a.toNat).testBit i = a.getLsbD (8 * (i / 8) + (7 - i % 8))) ∧
    (∀ i < 16, (unaryResult 6 a.toNat).testBit i = a.getLsbD (8 * (1 - i / 8) + i % 8)) ∧ unaryResult 6 a.toNat < 2 ^ 16 ∧
    (∀ i < 32, (unaryResult 7 a.toNat).testBit i = a.getLsbD (8 * (3 - i / 8) + i % 8)) ∧ unaryResult 7 a.toNat < 2 ^ 32 ∧
    (∀ i < 64, (unaryResult 8 a.toNat).testBit i = a.getLsbD (8 * (7 - i / 8) + i % 8)) ∧
    BitVec.ofNat 64 (unaryResult 9 a.toNat) = (a.setWidth 8).signExtend 64 ∧
    BitVec.ofNat 64 (unaryResult 10 a.toNat) = (a.setWidth 16).signExtend 64 ∧
    BitVec.ofNat 64 (unaryResult 11 a.toNat) = (a.setWidth 32).signExtend 64 ∧
    unaryResult 12 a.toNat = a.toNat % 2 ^ 8 ∧ unaryResult 13 a.toNat = a.toNat % 2 ^ 16 ∧
    unaryResult 14 a.toNat = a.toNat % 2 ^ 32

/-- R123. -/
def Obligations.DivideTable : Prop :=
  ∀ (a b : Word),
    (b = 0 → divResult 2 a b = BitVec.allOnes 64 ∧ divResult 3 a b = BitVec.allOnes 64 ∧ divResult 4 a b = a ∧
      divResult 5 a b = a) ∧
    (b ≠ 0 → (divResult 3 a b).toNat = a.toNat / b.toNat ∧ (divResult 5 a b).toNat = a.toNat % b.toNat) ∧
    (b ≠ 0 → ¬(a = BitVec.intMin 64 ∧ b = -1) →
      (divResult 2 a b).toInt = a.toInt.tdiv b.toInt ∧ (divResult 4 a b).toInt = a.toInt.tmod b.toInt) ∧
    (a = BitVec.intMin 64 → b = -1 → divResult 2 a b = a ∧ divResult 4 a b = 0)

/-- The frame of every instruction: what the common end of an instruction does after its body (R136, R138, R163). -/
def Obligations.InstructionEnd : Prop :=
  ∀ (i : Issue) (v : Vig) (t w : Nat) (c : Chip),
    let x := c.task t
    let frame : Chip → Prop := fun c' =>
      c'.ram = c.ram ∧ c'.store = c.store ∧ c'.zero = c.zero ∧ c'.dirty = c.dirty ∧ c'.rsBad = c.rsBad ∧ c'.csr = c.csr ∧
      c'.csrCap = c.csrCap ∧ c'.wick = c.wick ∧ c'.adq = c.adq ∧ c'.dma = c.dma ∧ c'.runs = c.runs ∧ c'.hbq = c.hbq ∧
      c'.mirq = c.mirq ∧ c'.flow = c.flow ∧ c'.mir = c.mir ∧ c'.adrus = c.adrus ∧ c'.bg = c.bg ∧ c'.half = c.half ∧
      c'.hev = c.hev ∧ c'.moves = c.moves ∧ c'.sweep = c.sweep ∧ (∀ u, u ≠ t → c'.task u = c.task u) ∧
      (∀ k, (c'.core k).sb = (c.core k).sb ∧ (c'.core k).vctx = (c.core k).vctx ∧ (c'.core k).icache = (c.core k).icache) ∧
      (∀ k, (c'.clu k).slots = (c.clu k).slots ∧ (c'.clu k).outb = (c.clu k).outb ∧ (c'.clu k).tlb = (c.clu k).tlb)
    let same : Task → Prop := fun y =>
      { y with pcc := x.pcc, lc := x.lc, fq := x.fq, ffault := x.ffault, lastOp := x.lastOp, wait := x.wait, noBp := x.noBp
               pairOpen := x.pairOpen, evcount := x.evcount, lastPc := x.lastPc, fresh := x.fresh, multi := x.multi } = x
    (let c' := i.finish v t w (.ok c)
     let y := c'.task t
     frame c' ∧ same y ∧
     ((x.lc = 0 ∨ x.pcc.addr ≠ x.le.toNat) → y.pcc = movePcc x.pcc ((x.pcc.addr + insnLen w) % 2 ^ 64) ∧ y.lc = x.lc) ∧
     (x.lc ≠ 0 → x.pcc.addr = x.le.toNat → y.lc = x.lc - 1 ∧
       y.pcc = movePcc x.pcc (if x.lc = 1 then (x.le.toNat + 4) % 2 ^ 64 else x.ls.toNat))) ∧
    (∀ pcc lost, let c' := i.finish v t w (.jump c pcc lost)
     frame c' ∧ same (c'.task t) ∧ (c'.task t).pcc = pcc ∧ (c'.task t).fq = [] ∧ (c'.task t).lc = x.lc)

/-- The common order of R160 and R161 up to the body. -/
def Obligations.IssueOrder : Prop :=
  ∀ (s : State) (t : Nat) (w : IWord) (w2 : Option IWord) (row : Row),
    let n := w.toNat
    let n2 := (w2.map (·.toNat)).getD 0
    let x0 := s.chip.task t
    let again := decide (x0.wait ≠ .none)
    let c := ((if again ∨ x0.pairOpen then s.chip
      else s.chip.updCore (tCore t) (fun k => { k with cyc := k.cyc + 1 })).settle t).loopNote t
    let x := c.task t
    s.chip.mayIssue t false w w2 = true → rowOf n = row → fetchCheck x.pcc = none → (x.fq = [] → x.ffault = none) → x.secondFault n = none →
    (x.noBp = true ∨ c.ibpMatch s.vig t = none) →
    let r := s.chip.issueChecks s.vig t w w2 row false
    let i : Issue := ⟨s.chip, c, again, x0.pairOpen, !x0.pairOpen && !again && x.opensPair n⟩
    let paid := i.pay s.vig t c
    let reserved := reservedInsn x.tw n n2 || c.maskReserved t n
    (reserved = true → r = .inl (paid.preciseExc s.vig t 0x01 0 0 0)) ∧
    (reserved = false → selected x n = false → r = .inl (paid.retire s.vig t x.tenant n (insnLen n) none)) ∧
    (reserved = false → selected x n = true →
      (privOk x n = false → r = .inl (paid.preciseExc s.vig t 0x02 0 0 0)) ∧
      (privOk x n = true →
        (c.depthFault t n n2 = true → r = .inl (paid.preciseExc s.vig t 0x03 0 0 0)) ∧
        (c.depthFault t n n2 = false →
          (c.readsBad t n n2 = true → r = .inl (paid.preciseExc s.vig t 0x30 0 0 0)) ∧
          (c.readsBad t n n2 = false → r = .inr i))))

/-- R219 to R221 for an entry that is valid. -/
def Obligations.ExceptionEntry : Prop :=
  ∀ (v : Vig) (c : Chip) (t : Nat) (e : Exc),
    let x := c.task t
    let level := c.handlerLevel t e
    let entry := c.trapEntry t level
    let pcc := cadv entry (0x40 * causeVector e.code)
    x.tw = false → entry.tag = true → entry.otype = 0 → entry.has pExec = true → (level = 0 ∨ entry.has pSystem = true) →
    pcc.tag = true →
    let c' := c.takeExc v t e
    let y := c'.task t
    y.estatus = x.status ∧ y.epc = (if x.priv = 3 then e.pcc.put 80 12 0xFFE else e.pcc) ∧
    y.cause = mkCause e.code e.fpriv e.imprecise e.stage e.level e.multi ∧ y.faddr.toNat = e.faddr % 2 ^ 64 ∧
    y.fdata.toNat = e.fdata % 2 ^ 64 ∧ y.pcc = pcc ∧ y.priv = level % 4 ∧ y.tw = true ∧ y.mpos = 0 ∧ y.mpv = false ∧
    (∀ b, b < 32 → (b < 13 ∨ 22 < b) → y.status.getLsbD b = x.status.getLsbD b) ∧ y.fq = [] ∧ y.wait = .none ∧
    { y with estatus := x.estatus, epc := x.epc, cause := x.cause, faddr := x.faddr, fdata := x.fdata, pcc := x.pcc
             status := x.status, fq := x.fq, ffault := x.ffault, lastOp := x.lastOp, pairOpen := x.pairOpen, wait := x.wait
             evcount := x.evcount, multi := x.multi, fresh := x.fresh } = x ∧ y.fresh = true ∧
    c'.ram = c.ram ∧ c'.store = c.store ∧ c'.zero = c.zero ∧ c'.csr = c.csr ∧ (∀ u, u ≠ t → c'.task u = c.task u)

/-- R219 step 2, and R225. -/
def Obligations.HandlerLevel : Prop :=
  (∀ (c : Chip) (t : Nat) (e : Exc), e.fpriv < 4 →
    let x := c.task t
    let own := if x.priv < e.fpriv then e.fpriv else x.priv
    let service := causeService e.code = true ∨ (own = 0 ∧ ∀ r, c.record x.comp = some r → r.trapent.tag = false)
    (service → c.handlerLevel t e = if own = 0 then 1 else own) ∧ (¬service → c.handlerLevel t e = own)) ∧
  (∀ c : Cap, validReturn 0 c = true ∧ (validReturn 1 c = true ↔ c.tag = true ∧ c.has pSystem = true) ∧
    validReturn 2 c = false ∧ (validReturn 3 c = true ↔ c.tag = true ∧ c.has pSystem = true ∧ c.otype = 0xFFE))

/-- The capability instructions complete (R54 to R59, R127 to R129). -/
def Obligations.CapabilityResults : Prop :=
  ∀ (s : State) (t : Nat) (w : IWord) (i : Issue),
    let n := w.toNat
    let a := i.ch.rdReg t (wB n)
    let b := i.ch.rdReg t (wC n)
    let imm := (w.extractLsb' 0 10).signExtend 64
    (Reaches s t w none .cpos i → exec (.cpos t w) s = .next (Lands s t w i 1 (cpos a b.addr))) ∧
    (Reaches s t w none .cadv i → exec (.cadv t w) s = .next (Lands s t w i 1 (cpos a ((a.addr + b.addr) % 2 ^ 64)))) ∧
    (Reaches s t w none .ccut i → exec (.ccut t w) s = .next (Lands s t w i 2 (ccut a b.addr))) ∧
    (Reaches s t w none .cfit i → exec (.cfit t w) s = .next (Lands s t w i 2 (cfit a b.addr))) ∧
    (Reaches s t w none .cdrop i → exec (.cdrop t w) s = .next (Lands s t w i 1 (cdrop a (b.addr % 2 ^ 16)))) ∧
    (Reaches s t w none .ctint i → exec (.ctint t w) s = .next (Lands s t w i 1 (ctint a (b.addr % 16)))) ∧
    (Reaches s t w none .cwrap i → exec (.cwrap t w) s = .next (Lands s t w i 1 (cwrap a b))) ∧
    (Reaches s t w none .cunwrap i → exec (.cunwrap t w) s = .next (Lands s t w i 1 (cunwrap a b))) ∧
    (Reaches s t w none .cgate i → exec (.cgate t w) s = .next (Lands s t w i 1 (cgate a))) ∧
    (Reaches s t w none .ccopy i → exec (.ccopy t w) s = .next (Lands s t w i 1 a)) ∧
    (Reaches s t w none .cround i → exec (.cround t w) s = .next (Lands s t w i 2 (Cap.ofNat (cround a.addr)))) ∧
    (Reaches s t w none .camask i → exec (.camask t w) s = .next (Lands s t w i 2 (Cap.ofNat (camask a.addr)))) ∧
    (Reaches s t w none .cdiff i →
      exec (.cdiff t w) s = .next (Lands s t w i 1 ⟨false, (BitVec.ofNat 64 a.addr - BitVec.ofNat 64 b.addr).setWidth 128⟩)) ∧
    (Reaches s t w none .capInspect i → exec (.capInspect t w) s = .next (Lands s t w i 1 (Cap.ofNat (inspect (wMin n) a)))) ∧
    (Reaches s t w none .cadvi i →
      exec (.cadvi t w) s = .next (Lands s t w i 1 (cpos a ((a.addr + imm.toNat) % 2 ^ 64)))) ∧
    (Reaches s t w none .ccuti i → exec (.ccuti t w) s = .next (Lands s t w i 2 (ccut a (w.extractLsb' 0 10).toNat))) ∧
    (Reaches s t w none .cpcrel i →
      exec (.cpcrel t w) s = .next (Falls s t w i (i.ch.wrReg t (wA n) (cadv (i.ch.task t).pcc
        (((w.extractLsb' 0 16).signExtend 64) <<< 2).toNat))))

/-- Monotonicity of derivation (R54 to R59). -/
def Obligations.AuthorityMonotone : Prop :=
  ∀ (cs ct : Cap) (x : Nat),
    let le := fun (cd : Cap) => cs.tag = true ∧ cs.base ≤ cd.base ∧ cd.top ≤ cs.top ∧ cd.perm &&& cs.perm = cd.perm
    (∀ cd ∈ [cpos cs x, cadv cs x, ccut cs x, cfit cs x, cdrop cs x, ctint cs x, cwrap cs ct, cgate cs],
      cd.tag = true → le cd ∧ cs.otype = 0) ∧
    ((cunwrap cs ct).tag = true → le (cunwrap cs ct) ∧ cs.otype ≠ 0 ∧ ct.tag = true ∧ ct.has pUnseal = true ∧
      ct.base ≤ cs.otype ∧ cs.otype < ct.top)

/-- R53 against R50. -/
def Obligations.BoundsRoundTrip : Prop :=
  ∀ (base len : Nat), base + len ≤ 2 ^ 64 →
    let r := encodeBounds base len
    r.base ≤ base ∧ base + len ≤ r.top ∧ r.e < 64 ∧ r.b < 2048 ∧ r.l < 2048 ∧
    (len ≤ 2048 → r.base = base ∧ r.top = base + len) ∧
    (base < 2 ^ 64 → decodeBounds r.e r.b r.l base = (r.base, r.top))

/-- R135 to R137 with the return stack of R95 and R96. -/
def Obligations.ControlTransfer : Prop :=
  ∀ (s : State) (t : Nat) (w : IWord) (i : Issue),
    let n := w.toNat
    let v := s.vig
    let x := i.ch.task t
    let r := i.ch.rdReg t (wB n)
    let rel := addOff x.pcc.addr (4 * wSimm22 n)
    let wins := i.ch.windows (tCore t)
    let ret := movePcc x.pcc ((x.pcc.addr + 4) % 2 ^ 64)
    let onto := pushCheck x.rsc x.pushAt (pushPerms ret Cap.null)
    let pushed := stackPush v i.ch t ret Cap.null [marker 1 x.win x.priv x.comp 0, 0, 0, 0]
    let go := fun (c : Chip) (pcc : Cap) =>
      let q := c.resolve t (c.task t).pcc.addr (staticTaken n) true pcc.addr
      Answers s t w i (.jump q.2 pcc q.1)
    let goes := fun (u : Vig) (c : Chip) (pcc : Cap) =>
      let q := c.resolve t (c.task t).pcc.addr (staticTaken n) true pcc.addr
      AnswersBoth s t w i (u, .jump q.2 pcc q.1)
    let calls := fun (o : Host.Outcome State Fault Refusal) (target : Cap × Option Nat) =>
      (x.tw = true ∨ wins ≤ x.win + 1 → o = .next (Answers s t w i (.flt i.ch ⟨0x03, 0, 0, 0⟩))) ∧
      (x.tw = false → x.win + 1 < wins →
        (∀ code, onto = some code → o = .next (Answers s t w i (.flt i.ch ⟨code, 0, 0, x.pushAt⟩))) ∧
        (onto = none → ∀ c code, target = (c, some code) → o = .next (Answers s t w i (.flt i.ch ⟨code, 0, 0, c.addr⟩))) ∧
        (onto = none → ∀ pcc, target = (pcc, none) →
          (∀ r, pushed = .inl r → o = .next (AnswersBoth s t w i r)) ∧
          (∀ u c, pushed = .inr (u, c) → o = .next (goes u (c.updTask t (fun x => x.putStatus 8 5 (x.win + 1))) pcc))))
    (Reaches s t w none .b i →
      (∀ pcc, relTarget x.pcc rel = (pcc, none) → exec (.b t w) s = .next (go i.ch pcc)) ∧
      (∀ pcc code, relTarget x.pcc rel = (pcc, some code) → exec (.b t w) s = .next (Answers s t w i (.flt i.ch ⟨code, 0, 0, rel⟩)))) ∧
    (Reaches s t w none .jr i →
      (targetCheck r = none → exec (.jr t w) s = .next (go i.ch r)) ∧
      (∀ code, targetCheck r = some code → exec (.jr t w) s = .next (Answers s t w i (.flt i.ch ⟨code, 0, 0, r.addr⟩)))) ∧
    (Reaches s t w none .call i → calls (exec (.call t w) s) (relTarget x.pcc rel)) ∧
    (Reaches s t w none .callr i → calls (exec (.callr t w) s) (r, targetCheck r)) ∧
    (Reaches s t w none .ret i →
      (x.tw = true ∨ x.win = 0 → exec (.ret t w) s = .next (Answers s t w i (.flt i.ch ⟨0x03, 0, 0, 0⟩))) ∧
      (x.tw = false → x.win ≠ 0 →
        (∀ code, popCheck x.rsc = some code → exec (.ret t w) s = .next (Answers s t w i (.flt i.ch ⟨code, 0, 0, x.rsc.addr⟩))) ∧
        (∀ u c e, stackTop v i.ch t = .inr (e, (u, c)) →
          (bf e.marker 0 8 ≠ 1 ∨ bf e.marker 8 5 ≠ x.win - 1 →
            exec (.ret t w) s = .next (AnswersBoth s t w i (u, .flt c ⟨0x06, 0, 0, x.rsc.addr⟩))) ∧
          (bf e.marker 0 8 = 1 → bf e.marker 8 5 = x.win - 1 →
            (∀ code, targetCheck e.pcc = some code →
              exec (.ret t w) s = .next (AnswersBoth s t w i (u, .flt c ⟨code, 0, 0, e.pcc.addr⟩))) ∧
            (targetCheck e.pcc = none →
              exec (.ret t w) s = .next (goes u ((c.updTask t (fun y => { y with rsc := cpos y.rsc ((y.rsc.addr + 64) % 2 ^ 64) })).updTask t
                (fun y => y.putStatus 8 5 (y.win - 1))) e.pcc)))))) ∧
    (Reaches s t w none .loop i →
      let lc := i.ch.rdW t (wA n)
      let le := (x.pcc.addr + 4 * wImm16 n) % 2 ^ 64
      ∃ c : Chip, (c.task t).lc = lc ∧ (c.task t).ls = BitVec.ofNat 64 (x.pcc.addr + 4) ∧ (c.task t).le = BitVec.ofNat 64 le ∧
        c.ram = i.ch.ram ∧ c.store = i.ch.store ∧ (∀ u, u ≠ t → c.task u = i.ch.task u) ∧
        (lc ≠ 0 → exec (.loop t w) s = .next (Falls s t w i c)) ∧
        (lc = 0 → exec (.loop t w) s = .next (Answers s t w i (.jump c (movePcc x.pcc ((le + 4) % 2 ^ 64)) 4))))

/-- The instructions of MAJ 0x3C but the fences. -/
def Obligations.SystemResults : Prop :=
  ∀ (s : State) (t : Nat) (w : IWord) (i : Issue),
    let n := w.toNat
    let v := s.vig
    let x := i.ch.task t
    let flt := fun (code a : Nat) => Answers s t w i (.flt i.ch ⟨code, 0, 0, a⟩)
    (Reaches s t w none .nop i → exec (.nop t w) s = .next (Falls s t w i i.ch)) ∧
    (Reaches s t w none .mfs i →
      exec (.mfs t w) s = .next (Falls s t w i (i.ch.wrReg t (wA n) (Chip.rdSpecial v i.ch t (wB n))))) ∧
    (Reaches s t w none .mts i →
      let m := wA n
      let c := i.ch.rdReg t (wB n)
      (9 ≤ m → m ≤ 11 → x.rep.isSome = true → exec (.mts t w) s = .next (Answers s t w i (.stall i.ch))) ∧
      (12 ≤ m → m ≤ 14 →
        exec (.mts t w) s = .next (Falls s t w i (i.ch.later t 2 (.loopReg m) ⟨false, (BitVec.ofNat 64 c.addr).setWidth 128⟩))) ∧
      (m < 9 ∨ 14 < m ∨ (m < 12 ∧ x.rep = none) →
        exec (.mts t w) s = .next (Sets s t w i (fun y => { y.wrSpecial m c with org := if m = 9 then none else y.org })))) ∧
    (Reaches s t w none .xget i →
      (∀ e, i.ch.crossEntry t (wB n) = some e → exec (.xget t w) s = .next (Falls s t w i (i.ch.wrReg t (wA n) (i.ch.rdEntry e)))) ∧
      (i.ch.crossEntry t (wB n) = none → exec (.xget t w) s = .next (flt 0x03 0))) ∧
    (Reaches s t w none .xput i →
      (∀ e, i.ch.crossEntry t (wA n) = some e → exec (.xput t w) s = .next (Falls s t w i (i.ch.wrEntry e (i.ch.rdReg t (wB n))))) ∧
      (i.ch.crossEntry t (wA n) = none → exec (.xput t w) s = .next (flt 0x03 0))) ∧
    (Reaches s t w none .eret i →
      (i.ch.windows (tCore t) ≤ x.ewin → exec (.eret t w) s = .next (flt 0x03 0)) ∧
      (x.ewin < i.ch.windows (tCore t) → validReturn x.epriv x.epc = false → exec (.eret t w) s = .next (flt 0x1B x.epc.addr)) ∧
      (x.ewin < i.ch.windows (tCore t) → validReturn x.epriv x.epc = true → ∃ c : Chip,
        exec (.eret t w) s = .next (Answers s t w i (.jump c (returnPcc x.epriv x.epc) 4)) ∧
        (c.task t).tw = false ∧ (c.task t).status ||| 0x8000#32 = x.estatus ||| 0x8000#32 ∧ c.ram = i.ch.ram ∧
        (x.priv ≤ x.epriv → c.store = i.ch.store ∧ c.zero = i.ch.zero))) ∧
    (Reaches s t w none .trap i → exec (.trap t w) s = .next (flt 0x07 0)) ∧
    (Reaches s t w none .brk i →
      let halts := i.ch.fld DBG_CORE_CTRL DBG_CORE_CTRL_BRKHALT (tHalf t) [coreMaster (tCore t)] = 1 ∧ v.rights x = true
      (halts → exec (.brk t w) s = .next (Answers s t w i (.halt i.ch 1))) ∧
      (¬halts → exec (.brk t w) s = .next (flt 0x08 0)))

/-- R177 to R179 and R277. -/
def Obligations.SyncResults : Prop :=
  ∀ (s : State) (t : Nat) (w : IWord) (i : Issue),
    let n := w.toNat
    let x := i.ch.task t
    let waits := fun (m : Nat) => Answers s t w i (.wait i.ch (.sync m))
    let sync := fun (o : Host.Outcome State Fault Refusal) (m : Nat) (p : Bool) =>
      (i.ch.awaits t m = true → o = .next (waits m)) ∧
      (i.ch.awaits t m = false →
        (∀ f l, x.fails.filter (x.reportable m) = f :: l →
          o = .next (Answers s t w i (.report (i.ch.updTask t (fun y => { y with fails := y.fails.filter (fun g => !x.reportable m g) }))
            f (!l.isEmpty) (p && decide (x.lastOp = some f.id) && decide (f.cls ≠ 4))))) ∧
        (x.fails.filter (x.reportable m) = [] → (tb m 4 && tb x.rc.toNat 63) = false → o = .next (Falls s t w i i.ch)))
    (Reaches s t w none .sync i → sync (exec (.sync t w) s) 0x3F false) ∧
    (Reaches s t w none .syncM i → sync (exec (.syncM t w) s) (wA n) false) ∧
    (Reaches s t w none .syncP i → sync (exec (.syncP t w) s) 0x7F true) ∧
    (Reaches s t w none .fence i → (i.ch.awaits t 0x180 = true → exec (.fence t w) s = .next (waits 0x180)) ∧
      (i.ch.awaits t 0x180 = false → exec (.fence t w) s = .next (Falls s t w i i.ch))) ∧
    (Reaches s t w none .fenceLd i → (i.ch.awaits t 0x80 = true → exec (.fenceLd t w) s = .next (waits 0x80)) ∧
      (i.ch.awaits t 0x80 = false → exec (.fenceLd t w) s = .next (Falls s t w i i.ch))) ∧
    (Reaches s t w none .fenceSt i → (i.ch.awaits t 0x100 = true → exec (.fenceSt t w) s = .next (waits 0x100)) ∧
      (i.ch.awaits t 0x100 = false →
        ∃ c : Chip, exec (.fenceSt t w) s = .next (Falls s t w i c) ∧ { c with mirq := i.ch.mirq } = i.ch ∧ ∀ h < 2,
          let q := tGet i.ch.mirq h
          (q = [] ∨ (∃ l, q.getLast? = some l ∧ l.marker = true) → tGet c.mirq h = q) ∧
          (∀ l, q.getLast? = some l → l.marker = false → tGet c.mirq h = q ++ [⟨true, 0, 0, 0, 0, 0, []⟩])))

/-- R150, R151 and R253. -/
def Obligations.EventResults : Prop :=
  ∀ (s : State) (t : Nat) (w : IWord) (i : Issue),
    let n := w.toNat
    let v := s.vig
    let x := i.ch.task t
    let pd := bf n 7 3
    let q := i.ch.rdReg t (wB n)
    let flt := fun (code : Nat) => Answers s t w i (.flt i.ch ⟨code, 0, 0, 0⟩)
    let noEvent := Sets s t w i (fun y => y.setPred pd false)
    let takes := fun (o : Host.Outcome State Fault Refusal) (e : Ev) (c : Chip) =>
      ∃ c', o = .next (Falls s t w i c') ∧ c'.ram = c.ram ∧
        c'.store = ((c.wrEntry (i.ch.pairOf t n).1 e.lo).wrEntry (i.ch.pairOf t n).2 e.hi).store ∧
        (c'.task t).pred pd = true ∧ (c'.task t).evcount = 0
    (Reaches s t w none .post i →
      (q.tag = false → exec (.post t w) s = .next (flt 0x10)) ∧
      (q.tag = true → q.otype ≠ 0xFFD → exec (.post t w) s = .next (flt 0x11)) ∧
      (q.tag = true → q.otype = 0xFFD →
        let p := i.ch.post t q ⟨i.ch.rdReg t (wA n), i.ch.rdReg t (wA n + 1), bf n 4 3⟩ v
        exec (.post t w) s = .next (Falls s t w i (p.2.updTask t (fun y => y.setPred pd p.1))))) ∧
    (Reaches s t w none .waitq i →
      (x.evmask.toNat % 256 = 0 → exec (.waitq t w) s = .next noEvent) ∧
      (x.evmask.toNat % 256 ≠ 0 → i.ch.awaits t 0x3F = true → exec (.waitq t w) s = .next (Answers s t w i (.wait i.ch (.sync 0x3F)))) ∧
      (x.evmask.toNat % 256 ≠ 0 → i.ch.awaits t 0x3F = false → x.fails.filter (x.reportable 0x3F) = [] →
        (∀ e c, i.ch.takeEvent t = some (e, c) → takes (exec (.waitq t w) s) e c) ∧
        (i.ch.takeEvent t = none → ∃ c m, exec (.waitq t w) s = .next (Answers s t w i (.wait c
          (.waitq (i.ch.pairOf t n).1 pd m))) ∧ c.ram = i.ch.ram ∧ c.store = i.ch.store ∧ c.tasks = i.ch.tasks))) ∧
    (Reaches s t w none .waitqN i →
      (x.evmask.toNat % 256 = 0 ∨ i.ch.takeEvent t = none → exec (.waitqN t w) s = .next noEvent) ∧
      (∀ e c, x.evmask.toNat % 256 ≠ 0 → i.ch.takeEvent t = some (e, c) → takes (exec (.waitqN t w) s) e c)) ∧
    (∀ e0 p m e c, (s.chip.task t).wait = .waitq e0 p m → (s.chip.task t).halted = false → s.chip.leaving t = false → p < 8 →
      s.chip.takeEvent t = some (e, c) → ∃ c', exec (.waitqWake t) s = .next { s with chip := c' } ∧ c'.ram = c.ram ∧
        c'.store = ((c.wrEntry e0 e.lo).wrEntry (e0 + 1) e.hi).store ∧ (c'.task t).pred p = true ∧ (c'.task t).wait = .none)

/-- The memory instructions and DIV at issue (R131 to R133, R174, R182 to R185); a failing check raises its exception. -/
def Obligations.MemoryIssue : Prop :=
  ∀ (s : State) (t : Nat) (w : IWord) (i : Issue) (hit : Bool),
    let n := w.toNat
    let v := s.vig
    let c := i.ch.rdReg t (wB n)
    let dst := (i.ch.entry t (wA n)).getD 0
    let lsz := (loadForm n).1
    let stalls := fun (o : Host.Outcome State Fault Refusal) => o = .next (Answers s t w i (.stall i.ch))
    let loads := fun (o : Host.Outcome State Fault Refusal) (sz : Nat) (sx capw : Bool) =>
      let a := i.ch.effAddr t n sz
      (i.ch.opsFull t = true → stalls o) ∧
      (i.ch.opsFull t = false →
        (∀ r, i.ch.scalarAcc v t c a sz [pLoad] (if capw then 16 else 1) 1 true false = .bad r → o = .next (Answers s t w i r)) ∧
        (∀ ch ps, i.ch.scalarAcc v t c a sz [pLoad] (if capw then 16 else 1) 1 true false = .go ch ps →
          (ch.ownLocal t ps = true → ch.olderTouch t (ch.core (tCore t)).seq ps = false) → ch.forwarding t ps sz = .clear →
          (isRemote t ps = true → ∃ op : LongOp, o = .next (Falls s t w i (ch.remoteIssue v t op sz)) ∧ op.kind = .load ∧
            op.cls = 1 ∧ op.va = a ∧ op.pieces = ps ∧ op.size = sz ∧ op.dst = (ch.entry t (wA n)).getD 0 ∧ op.colour = c.colour) ∧
          (isRemote t ps = false → ch.inCsr ps = false → ch.checkLines (ch.task t).owner c.colour false ps = 0 → ch.ownLocal t ps = true →
            o = .next (Falls s t w i (ch.laterReg t (wA n) 4 (if capw
              then ⟨tb (ch.loadTags ps) 0 && c.has pLoadCap, BitVec.ofNat 128 (leNat (ch.loadBytes ps))⟩
              else extendLoad sz sx (leNat (ch.loadBytes ps)))))) ∧
          (isRemote t ps = false → ch.inCsr ps = false → ch.checkLines (ch.task t).owner c.colour false ps = 0 → ch.ownLocal t ps = false → ∃ op : LongOp,
            o = .next (Falls s t w i (ch.addOp t op)) ∧ op.kind = .load ∧ op.cls = 0 ∧ op.va = a ∧ op.pieces = ps ∧
            op.size = sz ∧ op.sext = sx ∧ op.capw = capw ∧ op.dst = (ch.entry t (wA n)).getD 0 ∧ op.colour = c.colour ∧
            op.loadCap = c.has pLoadCap ∧ op.id = (ch.core (tCore t)).seq)))
    let stores := fun (o : Host.Outcome State Fault Refusal) (sz : Nat) (capw : Bool) =>
      let a := i.ch.effAddr t n sz
      let val := i.ch.rdReg t (wA n)
      let perms := [pStore] ++ (if capw && val.tag then [pStoreCap] ++ (if val.has pGlobal then [] else [pStoreLocal]) else [])
      (i.ch.opsFull t = true → stalls o) ∧
      (i.ch.opsFull t = false → ∀ ch ps, i.ch.scalarAcc v t c a sz perms (if capw then 16 else 1) 2 false true = .go ch ps →
        (isRemote t ps = true → ∃ op : LongOp, o = .next (Falls s t w i (ch.remoteIssue v t op sz)) ∧ op.kind = .store ∧
          op.cls = 1 ∧ op.va = a ∧ op.pieces = ps ∧ op.size = sz ∧ op.capw = capw ∧ op.colour = c.colour ∧ op.b = val ∧
          op.data = leBytes sz val.bits.toNat) ∧
        let slots := if a % 16 + sz > 16 then 2 else 1
        let known := ch.ownLocal t ps || hit
        (isRemote t ps = false → 8 < (ch.core (tCore t)).sbUsed + slots → o = .next (Answers s t w i (.stall ch))) ∧
        (isRemote t ps = false → (ch.core (tCore t)).sbUsed + slots ≤ 8 → ch.inCsr ps = false →
          (known = true → ch.checkLines (ch.task t).owner c.colour true ps ≠ 0 →
            o = .next (Answers s t w i (.flt ch ⟨ch.checkLines (ch.task t).owner c.colour true ps, 0, 0, a⟩))) ∧
          (known = false ∨ ch.checkLines (ch.task t).owner c.colour true ps = 0 → ∃ e : SBEntry,
            o = .next (Falls s t w i (ch.updCore (tCore t) (fun k => { k with sb := k.sb ++ [e], seq := k.seq + 1, passes := k.passes + 1 }))) ∧
            e.task = t ∧ e.slots = slots ∧ e.pieces = ps ∧ e.va = a ∧ e.size = sz ∧ e.capw = capw ∧ e.colour = c.colour ∧
            e.checked = known ∧ e.drop = false ∧ e.id = (ch.core (tCore t)).seq ∧
            e.val = (if capw then val else ⟨false, BitVec.ofNat 128 (leNat (leBytes sz val.bits.toNat))⟩))))
    let atomics := fun (o : Host.Outcome State Fault Refusal) (fn : Nat) =>
      let sz := if wMin n ≤ 2 then 8 else 4
      (i.ch.opsFull t = true → stalls o) ∧
      (i.ch.opsFull t = false → ∀ ch ps, i.ch.scalarAcc v t c c.addr sz [pLoad, pStore] sz 3 true true = .go ch ps →
        (ch.forwarding t ps 0 ≠ .clear → o = .next (Answers s t w i (.stall ch))) ∧
        (ch.forwarding t ps 0 = .clear → isRemote t ps = false → ch.ownLocal t ps = true →
          ch.checkLines (ch.task t).owner c.colour true ps ≠ 0 →
            o = .next (Answers s t w i (.flt ch ⟨ch.checkLines (ch.task t).owner c.colour true ps, 0, 0, c.addr⟩))) ∧
        (ch.forwarding t ps 0 = .clear → (isRemote t ps = false → ch.ownLocal t ps = true →
            ch.checkLines (ch.task t).owner c.colour true ps = 0) → ∃ op : LongOp,
          o = .next (Falls s t w i (if isRemote t ps then ch.remoteIssue v t op sz else ch.addOp t op)) ∧ op.kind = .atomic ∧
          op.cls = 5 ∧ op.fn = fn ∧ op.va = c.addr ∧ op.pieces = ps ∧ op.size = sz ∧ op.a = Cap.ofNat (ch.rdInt t (wA n)) ∧
          op.b = Cap.ofNat (ch.rdInt t (wC n)) ∧ op.dst = (ch.entry t (wA n)).getD 0))
    (Reaches s t w none .load i → loads (exec (.load t w hit) s) lsz (loadForm n).2 false) ∧
    (Reaches s t w none .lcap i → loads (exec (.lcap t w hit) s) 16 false true) ∧
    (Reaches s t w none .store i → stores (exec (.store t w hit) s) (storeForm n) false) ∧
    (Reaches s t w none .scap i → stores (exec (.scap t w hit) s) 16 true) ∧
    (Reaches s t w none .amoadd i → atomics (exec (.amoadd t w) s) 0) ∧
    (Reaches s t w none .amoswp i → atomics (exec (.amoswp t w) s) 1) ∧
    (Reaches s t w none .cas i → atomics (exec (.cas t w) s) 2) ∧
    (Reaches s t w none .div i →
      (i.ch.opsFull t = true → stalls (exec (.div t w) s)) ∧
      (i.ch.opsFull t = false →
        let k := i.ch.core (tCore t)
        let due := max k.cyc k.divDue + divCycles (wMin n) (i.ch.rdW t (wB n))
        ∃ op : LongOp, exec (.div t w) s = .next (Falls s t w i ((i.ch.addOp t op).updCore (tCore t) (fun k => { k with divDue := due }))) ∧
          op.kind = .div ∧ op.cls = 2 ∧ op.fn = wMin n ∧ op.due = due ∧ op.dst = dst ∧
          op.a = Cap.ofNat (i.ch.rdInt t (wB n)) ∧ op.b = i.ch.rdReg t (wC n)))

/-- How long operations end (R175, R182, R292) and how a store drains (R183). -/
def Obligations.LongOpsEnd : Prop :=
  ∀ (s : State) (t id : Nat) (o : LongOp), s.chip.findOp t id = some o →
    let ch := s.chip
    let k := tCore t
    (o.kind = .div → (∀ e ∈ ch.tasks, tCore e.1 = k → ∀ p ∈ e.2.ops, p.kind = .div → o.due ≤ p.due) →
      ∃ c : Chip, exec (.divideComplete t id) s = .next { s with chip := c } ∧ c.findOp t id = none ∧ c.ram = ch.ram ∧
        (o.drop = false → c.store = (ch.wrEntry o.dst
          (Cap.ofNat (divResult o.fn (BitVec.ofNat 64 o.a.addr) (BitVec.ofNat 64 o.b.addr)).toNat)).store) ∧
        (o.drop = true → c.store = ch.store)) ∧
    (o.kind = .maint → 4 ≤ o.fn → ch.usesTlb (tHalf t) o.covers = false → ∃ c : Chip,
      exec (.invalidationComplete t id) s = .next { s with chip := c } ∧ c.findOp t id = none ∧ c.ram = ch.ram ∧ c.store = ch.store ∧
        (∀ g < 16, let q := tHalf t * 16 + g
          (o.fn = 4 → (c.clu q).tlb = tlbKeep (fun e => !(e.tenant = o.b.addr % 2 ^ 12 && e.vbase ≤ o.a.addr && o.a.addr < e.vbase + e.size)) (ch.clu q).tlb) ∧
          (o.fn = 5 → (c.clu q).tlb = tlbKeep (fun e => e.tenant ≠ o.a.addr % 2 ^ 12) (ch.clu q).tlb ∧
            (c.clu q).dcache = (ch.clu q).dcache.filter (fun e => e.tenant ≠ o.a.addr % 2 ^ 12)) ∧
          (o.fn = 6 → (c.clu q).tlb = [] ∧ (c.clu q).dcache = []) ∧ (o.fn = 7 → (c.clu q).wcache = []) ∧
          (o.fn = 8 → (c.clu q).wcache = (ch.clu q).wcache.filter (fun e => e.ipa ≠ o.a.addr / lvlSize e.level))) ∧
        (∀ m, coreHalf m = tHalf t →
          (o.fn = 4 → (c.core m).utlb = (ch.core m).utlb.filter (fun e => !(e.tenant = o.b.addr % 2 ^ 12 && e.vbase ≤ o.a.addr && o.a.addr < e.vbase + e.size))) ∧
          (o.fn = 5 → (c.core m).utlb = (ch.core m).utlb.filter (fun e => e.tenant ≠ o.a.addr % 2 ^ 12)) ∧
          (o.fn = 6 → (c.core m).utlb = []))) ∧
    (o.kind = .load → o.inst = 0 → o.remote = false → o.resp = none → o.adWait = none → o.drop = false →
      ch.scalarWaits s.vig t o = false → ∀ d tags r, loadGo (o.who t) o.pieces (s.vig, ch) = .done d tags r →
      (ch.inCsr o.pieces = false → d = ch.loadBytes o.pieces ∧ tags = ch.loadTags o.pieces ∧ r.2.ram = ch.ram) ∧
      ∃ c : Chip, exec (.longOpComplete t id) s = .next { s with vig := r.1, chip := c } ∧ c.findOp t id = none ∧ c.ram = r.2.ram ∧
        c.store = (r.2.wrEntry o.dst (r.2.loadVal (tHalf t) o.tenant o.fpriv o.size o.sext o.capw o.loadCap (r.2.inClm o.pieces)
          d (tb tags 0))).store) ∧
    (o.kind = .load ∨ o.kind = .atomic → o.inst = 0 → o.remote = false → o.resp = none → o.adWait = none →
      ch.heldFor s.vig t o.pieces = true → exec (.longOpComplete t id) s = .next s) ∧
    (o.kind = .atomic → o.inst = 0 → o.remote = false → o.resp = none → o.adWait = none → o.drop = false →
      ch.scalarWaits s.vig t o = false →
      ∀ d tags r, atomicGo (o.who t) o.fn o.size o.a.addr o.b o.pieces (s.vig, ch) = .inl (.done d tags r) →
      ∃ c : Chip, exec (.longOpComplete t id) s = .next { s with vig := r.1, chip := c } ∧ c.findOp t id = none ∧ c.ram = r.2.ram ∧
        c.store = (r.2.wrEntry o.dst (extendLoad o.size o.sext (leNat d))).store) ∧
    (∀ e l r, (ch.core k).sb = e :: l → ch.mustWait s.vig e.task e.id e.pass e.ord e.pieces = false →
      ch.olderTouch e.task e.id e.pieces = false →
      storeGo e.who e.pieces e.capw e.val (leBytes e.size e.val.bits.toNat) (s.vig, ch) = .done r →
      ∃ c : Chip, exec (.storeDrain k) s = .next { s with vig := r.1, chip := c } ∧ c.ram = r.2.ram ∧ c.store = r.2.store ∧
        (c.core k).sb = (r.2.core k).sb.drop 1)

/-- The effect of a store on memory (R62, R69). -/
def Obligations.StoreEffect : Prop :=
  ∀ (ch : Chip) (own : Option Nat) (k ten : Nat) (by_ : Nat × Nat) (p : Piece) (d : List Byte), k < 16 → d.length = p.len → hbPort p.pa = none →
    let r := ch.memStore own k ten by_ [p] false Cap.null d
    let code := ch.checkLines own k true [p]
    (code ≠ 0 → r = (code, ch)) ∧
    (code = 0 → p.len ≠ 0 → p.pa + p.len ≤ alignDown p.pa 64 + 64 → r.1 = 0 ∧
      (∀ j < p.len, r.2.ram.rd (p.pa + j) = d.getD j 0) ∧
      (∀ a, a < alignDown p.pa 64 ∨ alignDown p.pa 64 + 64 ≤ a → r.2.ram.rd a = ch.ram.rd a ∧ r.2.ram.colour a = ch.ram.colour a) ∧
      (ch.ram.colour p.pa ≠ 0 → (∀ a, a < p.pa ∨ p.pa + p.len ≤ a → r.2.ram.rd a = ch.ram.rd a) ∧
        r.2.ram.colour p.pa = ch.ram.colour p.pa) ∧
      (ch.ram.colour p.pa = 0 → r.2.ram.colour p.pa = k) ∧ r.2.ram.tag p.pa = false ∧
      r.2.store = ch.store ∧ r.2.tasks = ch.tasks ∧ r.2.csr = ch.csr)

/-- R232 and R235, after R97. -/
def Obligations.Gates : Prop :=
  ∀ (s : State) (t : Nat) (w : IWord) (i : Issue) (c0 : Chip), (i.ch.task t).reqOf 1 = none → syncGo i.ch t 0x3F false = .ok c0 →
    let v := s.vig
    let ch := c0.flush t
    let x := ch.task t
    let g := ch.rdReg t (wB w.toNat)
    let u := g.put 80 12 0
    let wins := ch.windows (tCore t)
    let flt := fun (c : Chip) (code a : Nat) => Answers s t w i (.flt c ⟨code, 0, 0, a⟩)
    let entered := fun (c : Chip) (win priv comp ten : Nat) => (c.task t).win = win % 32 ∧ (c.task t).priv = priv % 4 ∧
      (c.task t).comp = comp ∧ (c.task t).tenant = ten ∧ (∀ p, 0 < p → p < 8 → (c.task t).pred p = false) ∧ (c.task t).mh = 0 ∧
      (c.task t).ml = 0 ∧ (c.task t).rc = 0 ∧ (c.task t).vl = 0 ∧ (c.task t).mpv = false
    (Reaches s t w none .gcall i →
      (x.tw = true ∨ wins ≤ x.win + 1 → exec (.gcall t w) s = .next (flt ch 0x03 0)) ∧
      (x.tw = false → x.win + 1 < wins →
        (g.tag = false → exec (.gcall t w) s = .next (flt ch 0x10 g.addr)) ∧
        (g.tag = true → g.otype ≠ 0xFFF → exec (.gcall t w) s = .next (flt ch 0x11 g.addr)) ∧
        (g.tag = true → g.otype = 0xFFF → g.addr % 16 ≠ 0 → exec (.gcall t w) s = .next (flt ch 0x18 g.addr)) ∧
        (g.tag = true → g.otype = 0xFFF → g.addr % 16 = 0 →
          (∀ r, entryRead v ch t u g.addr 1 = .inl r → exec (.gcall t w) s = .next (AnswersBoth s t w i r)) ∧
          (∀ c ps, ch.scalarAcc v t u g.addr 64 [pLoad] 1 1 true false = .go c ps → x.reqOf 1 = none → isRemote t ps = false →
            (c.core (tCore t)).sb.any (fun e => overlap e.pieces ps) = false →
            c.nowWaits v t (c.core (tCore t)).seq ps = false → c.olderTouch t (c.core (tCore t)).seq ps = false →
            c.inCsr ps = false → c.checkLines x.owner u.colour false ps = 0 →
            ∃ c', entryRead v ch t u g.addr 1 = .inr (c.loadBytes ps, c.loadTags ps, (v, c')) ∧ c'.ram = c.ram ∧ c'.tasks = c.tasks) ∧
          (∀ d tags u c, entryRead v ch t (g.put 80 12 0) g.addr 1 = .inr (d, tags, (u, c)) →
            let flt := fun (code a : Nat) => AnswersBoth s t w i (u, .flt c ⟨code, 0, 0, a⟩)
            let y := c.task t
            let dsc : Cap := ⟨tb tags 0, BitVec.ofNat 128 (fieldB d 0 16)⟩
            let e := cadv (g.put 80 12 0) (fieldB d 16 2)
            let priv := bf (fieldB d 21 1) 0 2
            let same := tb (fieldB d 21 1) 2
            let id := if same then y.comp else fieldB d 18 2
            let ret := sealReturn y.priv (movePcc y.pcc ((y.pcc.addr + 4) % 2 ^ 64))
            (descOk d = false → exec (.gcall t w) s = .next (flt 0x18 g.addr)) ∧
            (descOk d = true → e.tag = true → e.has pExec = true → e.base ≤ e.addr → e.addr + 4 ≤ e.top → dsc.tag = true →
              dsc.otype = 0 → (priv = 1 → g.has pSystem = true) →
              ∀ ten, (same = true → ten = y.tenant) →
                (same = false → ∃ r, c.record id = some r ∧ compHalf id = tHalf t ∧ r.flag fExtinguished = false ∧ r.gate = g ∧
                  r.priv = priv ∧ ten = r.tenant % 2 ^ 12) →
                (∀ k < fieldB d 20 1, argOk (fieldB d (32 + 2 * k) 2) (c.rdReg t (32 + k)) = true) →
                (∀ code, pushCheck y.rsc y.pushAt (pushPerms ret (c.rdReg t 15)) = some code →
                  exec (.gcall t w) s = .next (flt code y.pushAt)) ∧
                (pushCheck y.rsc y.pushAt (pushPerms ret (c.rdReg t 15)) = none →
                  ∀ u' c', stackPush u c t ret (c.rdReg t 15) [marker 2 y.win y.priv y.comp
                      (y.tenant % 2 ^ 12 + (id % 2 ^ 16) * 2 ^ 12 + priv * 2 ^ 28), y.lc.toNat, y.ls.toNat, y.le.toNat] = .inr (u', c') →
                  ∃ f, exec (.gcall t w) s = .next (AnswersBoth s t w i (u', .jump f e 4)) ∧
                    entered f ((c'.task t).win + 1) priv id ten ∧ f.ram = c'.ram ∧ (f.task t).lc = 0 ∧ (f.task t).ls = 0 ∧
                    (f.task t).le = 0)))))) ∧
    (Reaches s t w none .gret i →
      (x.tw = true ∨ x.win = 0 → exec (.gret t w) s = .next (flt ch 0x03 0)) ∧
      (x.tw = false → x.win ≠ 0 → ∀ u c e, stackTop v ch t = .inr (e, (u, c)) →
        let flt := fun (c : Chip) (code a : Nat) => AnswersBoth s t w i (u, .flt c ⟨code, 0, 0, a⟩)
        let tok := bf e.marker 32 32
        let p := bf e.marker 13 2
        (bf e.marker 0 8 ≠ 2 ∨ bf e.marker 8 5 ≠ x.win - 1 → exec (.gret t w) s = .next (flt c 0x06 x.rsc.addr)) ∧
        (bf e.marker 0 8 = 2 → bf e.marker 8 5 = x.win - 1 →
          (bf tok 12 16 ≠ x.comp ∨ bf tok 28 2 ≠ x.priv → exec (.gret t w) s = .next (flt c 0x1A x.rsc.addr)) ∧
          (bf tok 12 16 = x.comp → bf tok 28 2 = x.priv →
            (validReturn p e.pcc = false → exec (.gret t w) s = .next (flt c 0x1B e.pcc.addr)) ∧
            (validReturn p e.pcc = true → ∃ f, exec (.gret t w) s = .next (AnswersBoth s t w i (u, .jump f (returnPcc p e.pcc) 4)) ∧
              entered f (x.win - 1) p (bf e.marker 16 16) (bf tok 0 12) ∧ f.ram = c.ram ∧
              (f.task t).lc = BitVec.ofNat 64 e.lc ∧ (f.task t).ls = BitVec.ofNat 64 e.ls ∧ (f.task t).le = BitVec.ofNat 64 e.le)))))

/-- R194 to R208. -/
def Obligations.VectorResults : Prop :=
  ∀ (s : State) (t : Nat) (w : IWord) (i : Issue),
    let n := w.toNat
    let v := s.vig
    let ch := i.ch
    let x := ch.task t
    let k := tCore t
    let g := vGrp n
    let ew := vEw n
    let m := bf n 0 6
    let act := min (bf x.vl.toNat 0 7) (128 * g / ew)
    let has : Option Chip := if ((ch.core k).ctxOf (tNum t)).isSome then some ch else
      match (ch.core k).freeVctx with
      | some j => if ch.vsaved t then none else some (ch.updCore k (fun y => y.setCtx j ⟨some (tNum t), true, true, []⟩))
      | none => none
    let yields := fun (o : Host.Outcome State Fault Refusal) => has = none → o = .next (Answers s t w i (.wait ch .vctx))
    let gets := fun (o : Host.Outcome State Fault Refusal) (l : Nat) (r : Nat → Nat → Chip → Nat → Nat) =>
      yields o ∧
      (∀ c, has = some c → let d := c.rdGrp t (wA n) g
        let e := c.rdGrp t (wB n) g
        o = .next (Falls s t w i (c.laterGrp t (wA n) g ew act l (fromElems ew act (r d e c)))))
    let issues := fun (o : Host.Outcome State Fault Refusal) (kind : OpKind) =>
      let c := ch.rdReg t (wB n)
      let st := decide (kind = .vst)
      (ch.opsFull t = true → o = .next (Answers s t w i (.stall ch))) ∧
      (ch.opsFull t = false → yields o) ∧
      (ch.opsFull t = false → ∀ h, has = some h →
        (act = 0 → o = .next (Falls s t w i h)) ∧
        (act ≠ 0 → h.watchHit v t c.addr (ew / 8 * act) (!st) st = true → o = .next (Answers s t w i (.halt h 5))) ∧
        (act ≠ 0 → h.watchHit v t c.addr (ew / 8 * act) (!st) st = false → ∃ op : LongOp,
          o = .next (Falls s t w i (h.addOp t op)) ∧ op.kind = kind ∧ op.cls = 3 ∧ op.va = c.addr ∧ op.size = ew / 8 ∧
          op.n = act ∧ op.dst = wA n ∧ op.fn = g ∧ op.cap = c ∧ op.data = (if kind = .vst then elemBytes ew act (h.rdGrp t (wA n) g) else [])))
    (Reaches s t w none .vsetvl i →
      let r := min (ch.rdInt t (wB n)) (128 * g / ew)
      exec (.vsetvl t w) s = .next (Falls s t w i ((ch.wrInt t (wA n) r).updTask t (fun y => { y with vl := BitVec.ofNat 64 r })))) ∧
    (Reaches s t w none .vv i →
      gets (exec (.vectorVvOp t w) s) (if m = 12 ∨ m = 13 then 4 else 2)
        (fun d e c j => vvElem m ew (elem ew d j) (elem ew e j) (elem ew (if m = 17 then c.rdGrp t 0 g else 0) j))) ∧
    (Reaches s t w none .vs i →
      let a := ch.rdInt t (wB n) % 2 ^ ew
      gets (exec (.vectorVsOp t w) s) 2
        (fun d _ _ j => if m = 10 then if j = 0 then a else elem ew d (j - 1) else vsElem m ew (elem ew d j) a)) ∧
    (Reaches s t w none .vred i →
      yields (exec (.vectorReduction t w) s) ∧
      (∀ c, has = some c → exec (.vectorReduction t w) s = .next (Falls s t w i (c.laterReg t (wA n) 3
        (Cap.ofNat (reduce m ew (c.rdInt t (wA n) % 64) ((List.range act).map (elem ew (c.rdGrp t (wB n) g))))))))) ∧
    (Reaches s t w none .vperm i →
      yields (exec (.vperm t w) s) ∧
      (∀ c, has = some c → let d := c.rdGrp t (wA n) g
        let e := c.rdGrp t (wB n) g
        exec (.vperm t w) s = .next (Falls s t w i (c.laterGrp t (wA n) g 8 act 3
          (fromElems 8 act (fun j => if elem 8 e j < act then elem 8 d (elem 8 e j) else 0)))))) ∧
    (Reaches s t w none .vrelease i →
      (x.vecOut = true → exec (.vrelease t w) s = .next (Falls s t w i ch)) ∧
      (x.vecOut = false → x.bound.bind ch.record = none → exec (.vrelease t w) s = .next (Falls s t w i (ch.freeCtx t))) ∧
      (∀ r, x.vecOut = false → x.bound.bind ch.record = some r →
        exec (.vrelease t w) s = .next (Falls s t w i ((ch.freeCtx t).setFlag r.id fVsaved false)))) ∧
    (Reaches s t w none .vld i → issues (exec (.vld t w) s) .vld) ∧
    (Reaches s t w none .vst i → issues (exec (.vst t w) s) .vst) ∧
    (Reaches s t w none .vldff i → issues (exec (.vldff t w) s) .vldff) ∧
    ((s.chip.task t).wait = .vctx → ∀ c, (s.chip.core k).freeVctx = some c → ∃ f : Chip,
      exec (.vectorContextAcquire t) s = .next { s with chip := f } ∧ (f.task t).wait = .none ∧
      ((f.core k).ctx c).owner = some (tNum t) ∧ f.ram = s.chip.ram ∧
      (s.chip.vsaved t = false → ((f.core k).ctx c).zero = true ∧ ((f.core k).ctx c).dirty = true)) ∧
    (∀ u, s.chip.tasks.any (fun e => tCore e.1 = k && e.2.wait = .vctx) = true → (s.chip.core k).freeVctx = none →
      s.chip.vctxVictim k = some u → (s.chip.task u).late = [] → ∃ f : Chip,
      exec (.vectorContextReclaim k) s = .next { s with chip := f } ∧
      ((s.chip.task u).bound = none → f.ram = s.chip.ram) ∧
      (f.core k).vreclaims = min (2 ^ 32 - 1) ((s.chip.core k).vreclaims + 1) ∧
      (∀ c, (s.chip.core k).ctxOf (tNum u) = some c → (f.core k).ctx c = VCtx.reset))

/-- R153, R291: the privileged ones pass R106's check before. -/
def Obligations.MaintenanceIssue : Prop :=
  ∀ (s : State) (t : Nat) (w : IWord) (i : Issue),
    let n := w.toNat
    let ch := i.ch
    let c := ch.rdReg t (wB n)
    let issues := fun (o : Host.Outcome State Fault Refusal) (ch' : Chip) (fn : Nat) (ps : List Piece) => ∃ op : LongOp,
      o = .next (Falls s t w i (ch'.addOp t op)) ∧ op.kind = .maint ∧ op.cls = 5 ∧ op.fn = fn ∧ op.va = c.addr ∧ op.pieces = ps ∧
      op.a = Cap.ofNat c.addr ∧ op.b = Cap.ofNat (ch.rdInt t (wC n))
    let stalls := fun (o : Host.Outcome State Fault Refusal) =>
      ch.opsFull t = true → o = .next (Answers s t w i (.stall ch))
    let line := fun (o : Host.Outcome State Fault Refusal) (fn : Nat) (perm : List Nat) => stalls o ∧
      (ch.opsFull t = false →
        (∀ code, checkCap c c.addr 1 perm 1 = some code → o = .next (Answers s t w i (.flt ch ⟨code, 0, 0, c.addr⟩))) ∧
        (checkCap c c.addr 1 perm 1 = none →
          let r := ch.xlateAcc s.vig t c.addr 1 0
          (r.2.2 = none → issues o r.1 fn r.2.1) ∧
          (∀ b, r.2.2 = some b → o = .next (Answers s t w i (.flt (r.1.adTrap t b) b.flt)))))
    let inval := fun (o : Host.Outcome State Fault Refusal) (fn : Nat) => stalls o ∧ (ch.opsFull t = false → issues o ch fn [])
    (Reaches s t w none .iflush i → line (exec (.iflush t w) s) 0 (if c.has pExec then [] else [pLoad])) ∧
    (Reaches s t w none .dflushI i → line (exec (.dflushI t w) s) 1 [pStore]) ∧
    (Reaches s t w none .dflushC i → line (exec (.dflushC t w) s) 2 [pLoad]) ∧
    (Reaches s t w none .dflushCi i → line (exec (.dflushCi t w) s) 3 [pStore]) ∧
    (Reaches s t w none .tlbiVa i → inval (exec (.tlbiVa t w) s) 4) ∧
    (Reaches s t w none .tlbiTag i → inval (exec (.tlbiTag t w) s) 5) ∧
    (Reaches s t w none .tlbiAll i → inval (exec (.tlbiAll t w) s) 6) ∧
    (Reaches s t w none .wci i → inval (exec (.wci t w) s) 7) ∧
    (Reaches s t w none .wciIpa i → inval (exec (.wciIpa t w) s) 8) ∧
    (∀ id o, s.chip.findOp t id = some o → o.kind = .maint → o.fn ≤ 3 → o.inst = 0 → o.resp = none → o.remote = false → o.adWait = none →
      ∃ f : Chip, exec (.longOpComplete t id) s = .next { s with chip := f } ∧ f.findOp t id = none ∧ f.ram = s.chip.ram ∧
        f.store = s.chip.store ∧
        (o.fn = 0 → ∀ k, coreHalf k = tHalf t → mGet? (f.core k).icache ((o.pieces.head?.map (·.pa)).getD 0 / 64) = none))

/-- R103, R130, R142 to R144. -/
def Obligations.BlockOperations : Prop :=
  ∀ (s : State) (t : Nat) (w w2 : IWord) (i : Issue),
    let n := w.toNat
    let n2 := w2.toNat
    let v := s.vig
    let ch := i.ch
    let x := ch.task t
    let idle := x.rep = none ∧ tb x.rc.toNat 63 = false
    let started := fun (f : Chip) (rc : Nat) => (f.task t).rc = BitVec.ofNat 64 rc ∧ f.ram = ch.ram ∧ f.store = ch.store ∧
      (bf rc 0 32 = 0 → (f.task t).rep = none) ∧
      (bf rc 0 32 ≠ 0 → ∃ r, (f.task t).rep = some r ∧ r.org = ⟨x.pcc.addr, x.tw, x.priv⟩ ∧ r.got = [] ∧ r.adWait = none)
    let transfers := fun (slot : Cap → Nat → Nat → SlotEnv → Vig × Chip → Slot) (stop : Option Nat) (luck : SlotLuck)
        (o : Host.Outcome State Fault Refusal) =>
      let m := x.multi.getD ⟨0, if x.mpv then x.mpos else 0, ch.rdInt t (wA n), ch.rdReg t (wB n)⟩
      let l := multiSlots m.mask m.base n m.next
      (∀ us : Nat → Vig × Chip, us 0 = (v, ch) →
        (∀ (j : Nat) (f a : Nat), l[j]? = some (f, a) → (us j).2.multiStops (us j).1 t (m.n + j) stop = false ∧
          slot m.base f a ⟨false, luck.hits, luck.ue = some (m.n + j)⟩ (us j) = .done (us (j + 1))) →
        o = .next (AnswersBoth s t w i ((us l.length).1, .ok ((us l.length).2.updTask t (fun y => y.putStatus 22 1 0))))) ∧
      (∀ f a r, l = (f, a) :: r → 16 ≤ m.n → ch.multiStops v t m.n stop = true →
        o = .next (Answers s t w i (.part (ch.updTask t (fun y => y.markStop f)))))
    (Reaches s t w (some w2) .rep i →
      (x.rep.isSome = true → exec (.rep t w w2) s = .next (Answers s t w i (.stall ch))) ∧
      (idle → ∃ f, exec (.rep t w w2) s = .next (Falls s t w i f) ∧ ∃ reg, started f (mkRc (bf x.rc.toNat 0 32) reg (wMin n2) (bf n 19 3)
        (bf n 17 2) (bf n 16 1)) ∧ (wMin n2 = 0 ∨ wMin n2 = 2 → reg = 0))) ∧
    (Reaches s t w none .cpaint i →
      let c := ch.rdReg t (wB n)
      (x.rep.isSome = true → exec (.cpaint t w) s = .next (Answers s t w i (.stall ch))) ∧
      (idle → paintCheck c = none → ∃ f, exec (.cpaint t w) s = .next (Falls s t w i f) ∧
        started f (mkRc ((c.top - c.base) / 64) 0 5 0 0 0) ∧ (f.task t).rdst = cpos c c.base) ∧
      (idle → ∀ code, paintCheck c = some code → ∃ f, exec (.cpaint t w) s = .next (Falls s t w i f) ∧ f.ram = ch.ram ∧
        f.store = ch.store ∧ ∃ e ∈ (f.task t).fails, e.cls = 4 ∧ e.code = code ∧ e.fdata = c.base)) ∧
    (∀ r : Rep, (s.chip.task t).rep = some r → r.adWait = none → r.got = [] → (s.chip.core (tCore t)).inReset = false →
      (s.chip.task t).reqOf 2 = none → s.chip.repRests v t r = false →
      let y := s.chip.task t
      let rc := y.rc.toNat
      let sz := 2 ^ rcEsz rc
      bf rc 0 32 ≠ 0 →
      (rcOp rc = 5 → checkCap y.rdst y.rdst.addr 64 [pStore, pSystem] 1 = none →
        s.chip.watchHit v t y.rdst.addr 64 false true = false → ∀ c ps c2,
        s.chip.xlateAs v t y.comp y.tenant r.org.fpriv r.org.tw y.rdst.addr 64 2 = (c, ps, none) →
        c.guardAs t r.org.fpriv y.rdst false true (ps.map (·.pa)) = (c2, 0) → c2.nowWaits v t r.id ps = false →
        c2.olderTouch t r.id ps = false → isRemote t ps = false →
        (c2.inCsr ps = false →
          let pa := alignDown ((ps.head?.map (·.pa)).getD 0) 64
          ({ c2 with ram := c2.ram.unpoison pa } : Chip).lineBad pa = false →
          ∃ f : Chip, exec (.blockElement t false) s = .next { s with chip := f } ∧
            f.ram = (c2.ram.unpoison pa).claim pa y.rdst.colour ∧ (f.task t).rdst = cadv y.rdst 64 ∧ (f.task t).rsrc = y.rsrc ∧
            bf (f.task t).rc.toNat 0 32 = bf rc 0 32 - 1 ∧ (bf rc 0 32 = 1 → (f.task t).rep = none) ∧
            (bf rc 0 32 ≠ 1 → (f.task t).rep = some r)) ∧
        (∀ pa, c2.dramPiece ps = some pa → ∃ f : Chip, exec (.blockElement t true) s = .next { s with chip := f } ∧ f.ram = c2.ram ∧
          (f.task t).rep = none ∧ ∃ e ∈ (f.task t).fails, e.cls = 4 ∧ e.code = 0x30 ∧ e.fdata = y.rdst.addr)) ∧
      (∀ ue code, rcOp rc = 0 → checkCap y.rsrc y.rsrc.addr sz [pLoad] (if sz = 16 then 16 else 1) = some code →
        ∃ f : Chip, exec (.blockElement t ue) s = .next { s with chip := f } ∧ f.ram = s.chip.ram ∧ (f.task t).rep = none ∧
          (f.task t).org = some r.org ∧ ∃ e ∈ (f.task t).fails, e.cls = 4 ∧ e.code = code ∧ e.fdata = y.rsrc.addr ∧
          e.faddr = r.org.addr ∧ e.tw = r.org.tw)) ∧
    (Reaches s t w none .stm i → ∀ stop luck, transfers (fun c f a e u => stmSlot t a c f e u) stop luck (exec (.stm t w stop luck) s)) ∧
    (Reaches s t w none .ldm i → ∀ stop luck, transfers (fun c f a e u => ldmSlot t a c f e u) stop luck (exec (.ldm t w stop luck) s))

/-- R248 to R260. -/
def Obligations.Scheduling : Prop :=
  ∀ (s : State),
    let v := s.vig
    let ch := s.chip
    (∀ t stale p ch', (ch.task t).fq = [] → (ch.task t).ffault = none → (ch.task t).dead = false → (ch.task t).bound.isSome = true →
      (ch.core (tCore t)).inReset = false → fetchCheck (movePcc (ch.task t).pcc (ch.task t).pcc.addr) = none →
      (∀ word, (ch.core (tCore t)).loopWord t (ch.task t).pcc.addr = some word → ∃ f,
        exec (.fetchFill t stale) s = .next { s with chip := f } ∧ f.ram = ch.ram ∧ (f.task t).fq = [((ch.task t).pcc.addr, word)]) ∧
      ((ch.core (tCore t)).loopWord t (ch.task t).pcc.addr = none →
        ch.fetchAcc v t (movePcc (ch.task t).pcc (ch.task t).pcc.addr) (ch.task t).pcc.addr = (ch', .inl p) →
        (ch'.task t).fq = [] → ch'.heldFor v t [p] = false → ∃ f, exec (.fetchFill t stale) s = .next { s with chip := f } ∧ f.ram = ch'.ram ∧
          (f.task t).fq = [((ch.task t).pcc.addr, (ch'.fetchWord v t p stale).1)])) ∧
    (∀ k l, (ch.core k).inReset = false →
      (∀ u, (ch.core k).holder = none → ch.select k (ch.readyTasks k l) = some u → ch.readyTasks k l ≠ [] → ∃ f,
        exec (.switchPoint k l) s = .next { s with chip := f } ∧ (f.core k).holder = some (tNum u) ∧
        (f.core k).lastHolder = tNum u ∧ (f.core k).slice = ch.sliceOf k u ∧ (f.core k).cyc = (ch.core k).cyc ∧ f.ram = ch.ram) ∧
      (∀ n, (ch.core k).holder = some n → ch.readyTasks k l = [] → ch.select k [] = none → ∃ f,
        exec (.switchPoint k l) s = .next { s with chip := f } ∧ (f.core k).holder = none ∧ f.ram = ch.ram ∧ f.tasks = ch.tasks)) ∧
    (∀ k l n, (ch.core k).holder = some n → (ch.core k).slice = 0 → (ch.readyTasks k l).any (fun t => decide (tNum t ≠ n)) = false →
      let f := ch.updCore k (fun c => { c with slice := ch.sliceOf k (k * 64 + n) })
      exec (.sliceEnd k l) s = .next { s with chip := f }) ∧
    (∀ t r, (ch.task t).bound.bind ch.record = some r → r.budget ≠ 0 → r.budget ≤ (ch.task t).evcount →
      (ch.task t).busy = false → ∃ f,
      exec (.budgetKill t) s = .next { s with chip := f } ∧ (f.task t).bound = none ∧ (f.task t).status = 1 ∧
      (f.core (tCore t)).holder ≠ some (tNum t)) ∧
    (∀ c id t r, (ch.clu c).pend.find? (ch.bindable c) = some id → ch.freeTaskOf c = some t → ch.record id = some r →
      (ch.clu c).inReset = false → ch.trapsSet c = true → r.flag fSaved = false → ∃ f,
      exec (.bind c) s = .next { s with chip := f } ∧ (f.task t).bound = some id ∧ (f.task t).pcc = r.start ∧ (f.task t).rsc = r.rsc ∧
      (f.task t).comp = id ∧ (f.task t).tenant = r.tenant ∧ (f.task t).priv = r.priv % 4 ∧ (f.task t).win = 0 ∧ (f.task t).tw = false ∧
      (f.task t).evmask = 0xFF ∧ f.rdReg t 15 = r.dsc ∧ (∀ g, g < 40 → g ≠ 15 → f.rdReg t g = Cap.null) ∧ f.ram = ch.ram ∧
      id ∉ (f.clu (tClu t)).pend) ∧
    (∀ t id r, ch.mustUnbind t = true → ch.opsDone t = true → ch.midPair t = false → (ch.task t).bound = some id → (ch.flush t).record id = some r → ∃ f,
      exec (.unbind t) s = .next { s with chip := f } ∧ (f.task t).bound = none ∧ (f.task t).ops = [])

/-- R245 to R247 and R261 to R263. -/
def Obligations.EventsAndBalance : Prop :=
  ∀ (s : State),
    let v := s.vig
    let ch := s.chip
    (∀ src n e, src < 64 → (ch.clu src).outb[n]? = some e →
      ((ch.clu src).outb.take n).any (fun f => decide (f.dst = e.dst) && decide (f.task = e.task)) = false →
      ch.storesBefore e.task e.before = false →
      let h := if src ≥ 32 then src - 32 else src / 16
      let out := ch.updClu src (fun k => { k with outb := k.outb.eraseIdx n })
      (compHalf e.dst = h → ch.reachable e.dst = true →
        exec (.eventArrival src n) s = .next { s with chip := Chip.deliver v out e }) ∧
      (compHalf e.dst ≠ h → ch.wickUp h = false →
        exec (.eventArrival src n) s = .next { s with chip := Chip.undeliverable v out e 4 }) ∧
      (compHalf e.dst ≠ h → ch.wickUp h = true → ∃ m : WMsg, m.vc = 3 ∧
        exec (.eventArrival src n) s = .next { s with chip := out.wickSend h m })) ∧
    (∀ (c : Chip) (e : OutEv), e.scluster ≠ 17 →
      (c.record e.dst = none → Chip.deliver v c e = Chip.undeliverable v c e 2) ∧
      (∀ r, c.record e.dst = some r →
        (r.qgen ≠ e.qgen → Chip.deliver v c e = Chip.undeliverable v c e 2) ∧
        (r.qgen = e.qgen → r.qlog2 = 0 → Chip.deliver v c e = Chip.undeliverable v c e 3) ∧
        (r.qgen = e.qgen → r.qlog2 ≠ 0 → c.enqueue e.dst r e.ev = none → Chip.deliver v c e = Chip.undeliverable v c e 1) ∧
        (∀ f, r.qgen = e.qgen → r.qlog2 ≠ 0 → c.enqueue e.dst r e.ev = some f → Chip.deliver v c e = f))) ∧
    (∀ h, h < 2 → tGet ch.epochs h < v.dt / 10000000 → ch.fld SCH_BAL SCH_BAL_MODE h = 1 → ∃ f,
      exec (.balanceEpochEnd h) s = .next { s with chip := f } ∧ tGet f.epochs h = v.dt / 10000000 ∧
      (∀ c < 16, (f.clu (h * 16 + c)).loadCyc = 0) ∧ f.tasks = ch.tasks ∧ tGet f.epochs (1 - h) = tGet ch.epochs (1 - h)) ∧
    (∀ id d n, mGet? ch.moves id = some (d, n) → d / 16 = compHalf id →
      (∀ c, ch.moveStep id d = .done c →
        let f := c.cnt SCH_BALSTAT SCH_BALSTAT_MOVES (compHalf id)
        let g : Chip := if n = 0 then f else { f with moveEnds := f.moveEnds ++ [(n - 1, 1)] }
        exec (.compartmentMove id) s = .next { s with chip := g }) ∧
      (∀ c, ch.moveStep id d = .refused c →
        let g : Chip := if n = 0 then c.cnt SCH_BALSTAT SCH_BALSTAT_DEFERRED (compHalf id)
          else { c with moveEnds := c.moveEnds ++ [(n - 1, 0)] }
        exec (.compartmentMove id) s = .next { s with chip := g }))

/-- R302 to R308. -/
def Obligations.DmaEngines : Prop :=
  ∀ (s : State) (h e : Nat), h < 2 → e < 4 →
    let v := s.vig
    let ch := s.chip
    let k := dmaKey h e
    let c := ch.capReg HALF_DMA_RING h [e]
    let head := ch.fld HALF_DMA_HEAD HALF_DMA_HEAD_INDEX h [e]
    (∀ x, ∃ f, exec (.dmaTailWrite h e x) s = .next { s with chip := f } ∧
      f.fld HALF_DMA_TAIL HALF_DMA_TAIL_INDEX h [e] = x % 4096 ∧ f.ram = ch.ram ∧ f.dma = ch.dma ∧ f.tasks = ch.tasks) ∧
    (head ≠ ch.fld HALF_DMA_TAIL HALF_DMA_TAIL_INDEX h [e] → ch.dmaHalted h e = false → mGet? ch.dma k = none →
      (tGet ch.half h).inReset = false →
      let halts := fun (g : Chip) (code : Nat) => g.dmaHalted h e = true ∧ mGet? g.dma k = none ∧
        g.fld HALF_DMA_HEAD HALF_DMA_HEAD_RCAUSE h [e] = code % 256
      (∀ code, ringSize c [pLoad, pStore, pDma] 64 2 12 = .inr code → ∃ f,
        exec (.dmaDescriptorStart h e) s = .next { s with chip := f } ∧ halts f code ∧ f.ram = ch.ram) ∧
      (∀ n, ringSize c [pLoad, pStore, pDma] 64 2 12 = .inl n →
        let new : Dma := ⟨head, Cap.null, Cap.null, 0, 0, 0, 0, 0, false, none, none, none, 0⟩
        let r := dmaAcc h e c (dmaPa (c.base + 64 * head)) 64 none false (v, { ch with dma := mSet ch.dma k new })
        let d := r.d
        let src : Cap := ⟨tb r.tags 0, BitVec.ofNat 128 (fieldB d 0 16)⟩
        let dst : Cap := ⟨tb r.tags 1, BitVec.ofNat 128 (fieldB d 16 16)⟩
        let len := fieldB d 32 8
        (r.wait = true → exec (.dmaDescriptorStart h e) s = .next { s with vig := r.s.1, chip := r.s.2 }) ∧
        (r.wait = false → r.code ≠ 0 → ∃ f, exec (.dmaDescriptorStart h e) s = .next { s with vig := r.s.1, chip := f } ∧
          halts f r.code ∧ f.ram = r.s.2.ram) ∧
        (r.wait = false → r.code = 0 → mGet? r.s.2.dma k = some new → ∃ f x,
          exec (.dmaDescriptorStart h e) s = .next { s with vig := r.s.1, chip := f } ∧ f.ram = r.s.2.ram ∧
          mGet? f.dma k = some ⟨head, src, dst, len, fieldB d 40 1, fieldB d 41 1, fieldB d 48 8, 0, false, x, none, none, 1⟩ ∧
          (dmaBad d src.tag = true → x = some 0x01) ∧
          (dmaBad d src.tag = false → fieldB d 40 1 = 2 → x = checkCap dst dst.addr len [pStore, pDma] 1) ∧
          (dmaBad d src.tag = false → fieldB d 40 1 = 1 →
            (∀ code, checkCap src src.addr len [pLoad, pDma] 1 = some code → x = some code) ∧
            (checkCap src src.addr len [pLoad, pDma] 1 = none → x = checkCap dst dst.addr len [pStore, pDma] 1))))) ∧
    (∀ d : Dma, mGet? ch.dma k = some d → (tGet ch.half h).inReset = false →
      (∀ rl wl, d.moving = true →
        let r := dmaFetch h e d rl (v, ch)
        (d.buf = none → d.op = 2 → r.wait = false ∧ r.code = 0 ∧ r.guard = false ∧ r.s = (v, ch) ∧
          r.d = (List.range d.piece).map (fun j => BitVec.ofNat 8 (d.pattern >>> (8 * ((d.moved + j) % 8))))) ∧
        (d.buf = none → d.op = 1 → r = dmaAcc h e d.src (dmaPa (d.src.addr + d.moved)) d.piece none rl (v, ch)) ∧
        (r.wait = true → exec (.dmaPiece h e rl wl) s = .next { s with vig := r.s.1, chip := r.s.2 }) ∧
        (∀ d', r.wait = false → mGet? r.s.2.dma k = some d' →
          (r.code ≠ 0 → ∃ f, exec (.dmaPiece h e rl wl) s = .next { s with vig := r.s.1, chip := f } ∧ f.ram = r.s.2.ram ∧
            mGet? f.dma k = some { d' with fail := some r.code }) ∧
          (r.code = 0 →
            let g : Chip := { r.s.2 with dma := mSet r.s.2.dma k { d' with buf := some r.d, guard := d'.guard || r.guard } }
            let w := dmaAcc h e d.dst (dmaPa (d.dst.addr + d.moved)) d.piece (some r.d) wl (r.s.1, g)
            (w.wait = true → exec (.dmaPiece h e rl wl) s = .next { s with vig := w.s.1, chip := w.s.2 }) ∧
            (∀ u, w.wait = false → mGet? w.s.2.dma k = some u → ∃ f,
              exec (.dmaPiece h e rl wl) s = .next { s with vig := w.s.1, chip := f } ∧ f.ram = w.s.2.ram ∧
              (w.code = 0 → mGet? f.dma k = some { u with moved := u.moved + u.piece, buf := none, guard := u.guard || w.guard }) ∧
              (w.code ≠ 0 → mGet? f.dma k = some { u with fail := some w.code, buf := none }))))) ∧
      (d.phase ≠ 0 → d.moving = false →
        let r := dmaAcc h e c (dmaPa (c.base + 64 * d.index + 56)) 8 (some d.ending) false
          (v, { ch with dma := mSet ch.dma k { d with phase := 2 } })
        (r.wait = true → exec (.dmaDescriptorDone h e) s = .next { s with vig := r.s.1, chip := r.s.2 }) ∧
        (r.wait = false → ∃ f, exec (.dmaDescriptorDone h e) s = .next { s with vig := r.s.1, chip := f } ∧ f.ram = r.s.2.ram ∧
          mGet? f.dma k = none ∧ (d.fail ≠ none → f.dmaHalted h e = true) ∧
          (tb d.flags 0 = true → tb (f.fld HALF_DMA_STAT HALF_DMA_STAT_DONE h) e = true) ∧
          (∀ n, ringSize (r.s.2.capReg HALF_DMA_RING h [e]) [pLoad, pStore, pDma] 64 2 12 = .inl n →
            f.fld HALF_DMA_HEAD HALF_DMA_HEAD_INDEX h [e] = (d.index + 1) % n))) ∧
      (d.phase = 1 → d.fail = none → d.moved < d.len →
        let f : Chip := { ch with dma := mSet ch.dma k { d with fail := some 0 } }
        exec (.dmaAbort h e) s = .next { s with chip := f })) ∧
    (∃ f, exec (.dmaResume h e) s = .next { s with chip := f } ∧ f.dmaHalted h e = false ∧
      f.fld HALF_DMA_HEAD HALF_DMA_HEAD_RCAUSE h [e] = 0 ∧ f.ram = ch.ram ∧ f.dma = ch.dma) ∧
    (mGet? ch.dma k = none → ∃ f, exec (.dmaAbort h e) s = .next { s with chip := f } ∧ f.dmaHalted h e = true ∧ f.ram = ch.ram)

/-- R289, R298, R299, R309, R319 and R521. -/
def Obligations.TranslationEvents : Prop :=
  ∀ (s : State),
    let v := s.vig
    let ch := s.chip
    (∀ t id w, (ch.task t).adWaitOf id = some w → (tGet ch.adq (tHalf t)).any (fun r => decide (r.leaf = w.leaf)) = false →
      ∀ j, (List.range 64).find? (fun j => (tGet ch.adq (tHalf t)).all (fun r => decide (r.id ≠ j))) = some j →
      ch.fld XLT_CTRL XLT_CTRL_ADMODE (tHalf t) ≠ 1 → w.req = none →
      let q := tSet ch.adq (tHalf t) (tGet ch.adq (tHalf t) ++ [⟨j, w.leaf, w.tenant, w.dirty, false⟩])
      let f := ({ ch with adq := q } : Chip).updTask t (fun y => y.updAdWait id (fun w => { w with req := some j }))
      exec (.adRequest t id) s = .next { s with chip := f }) ∧
    (∀ h r, h < 2 → ch.adHead h = some r → ∃ f, exec (.xltAdreqRead h) s = .next { s with chip := f } ∧ f.ram = ch.ram ∧
      (tGet f.adq h).map (·.id) = (tGet ch.adq h).map (·.id) ∧ (∀ q ∈ tGet f.adq h, q.id = r.id → q.taken = true)) ∧
    (∀ h id r, h < 2 → (tGet ch.adq h).find? (fun q => decide (q.id = id)) = some r → ∃ f,
      exec (.xltAdackWrite h id) s = .next { s with chip := f } ∧ f.ram = ch.ram ∧ (∀ q ∈ tGet f.adq h, q.id ≠ id) ∧
      (∀ t x, (t, x) ∈ f.tasks → tHalf t = h → (∀ o ∈ x.ops, ∀ w, o.adWait = some w → w.req ≠ some id) ∧
        ∀ q w, x.rep = some q → q.adWait = some w → w.req ≠ some id)) ∧
    (∀ t id w o, id ≠ 0 → (ch.task t).adWaitOf id = some w → ch.findOp t id = some o → o.drop = false →
      (o.kind ≠ .vldff ∨ w.flt.fdata ≤ o.va) →
      w.since + max 1 (ch.fld XLT_CTRL XLT_CTRL_ADWAIT_US (tHalf t)) * 1000 ≤ v.clk → ∃ f,
      exec (.adWaitExpiry t id) s = .next { s with chip := f } ∧ f.findOp t id = none ∧
      ∃ e ∈ (f.task t).fails, e.id = o.id ∧ e.cls = o.cls ∧ e.fdata = w.flt.fdata ∧ e.code = w.flt.code ∧ e.stage = w.flt.stage ∧
        e.level = w.flt.level) ∧
    (∀ c k n kind j, let t := (c * 16 + k) * 64 + n
      let x := ch.task t
      coreSvc (tCore t) = false → x.bound.isSome = true → x.dead = false → translatedAs t x.priv x.tw = true →
      (∀ a need, x.prefetch kind j = some (a, need) → exec (.translationWalkDone c k n kind j) s =
        .next { s with chip := (ch.walkFor v (tClu t) (some (tCore t)) x.comp x.tenant a need).1 }) ∧
      (x.prefetch kind j = none → exec (.translationWalkDone c k n kind j) s = .next s)) ∧
    (∀ h m, h < 2 → m < 0x108 → ∃ f, exec (.grdVinfoClear h m) s = .next { s with chip := f } ∧ f.reg GRD_VINFO h [m] = 0 ∧
      f.ram = ch.ram ∧ f.tasks = ch.tasks) ∧
    (∀ t id j o pa, ch.findOp t id = some o → ch.dramPiece o.pieces = some pa → o.resp = none → o.adWait = none → o.remote = false →
      o.kind ≠ .maint → o.kind ≠ .vld → o.kind ≠ .vst → o.kind ≠ .vldff → ch.scalarWaits v t o = false →
      o.started + ch.ddrNs (tHalf t) ≤ v.clk → o.drop = false → ∃ f,
      exec (.dramRequestTimeout (.op t id j)) s = .next { s with chip := f } ∧ f.findOp t id = none ∧
      ∃ e ∈ (f.task t).fails, e.id = o.id ∧ e.code = 0x30 ∧ e.fdata = o.va) ∧
    (∀ h n m r, h < 2 → ch.arrived h n = some (m, r) → (tGet ch.half h).inReset = false → ch.reqWaits v r = false →
      r.task < 65600 → r.kind = .load → ch.inCsr r.pieces = false → ch.checkLines r.own r.colour false r.pieces = 0 →
      let f := (ch.dramTouch v r.task r.tenant false r.pieces).respond h m r 0 (ch.loadBytes r.pieces) (ch.loadTags r.pieces)
      exec (.remoteAccessArrival h n) s = .next { s with chip := f }) ∧
    (∀ pa, ch.ram.region pa = .dram → ∃ f, exec (.dramRequestTimeout (.walk pa)) s = .next { s with chip := f } ∧
      f.walkBad pa = true ∧ f.ram = ch.ram ∧ f.tasks = ch.tasks)

/-- R373, R495, and log 6 (the idle tick is the model's choice). -/
def Obligations.StepRunsFront : Prop :=
  (∀ (s : State) (c : Instr) (r : List Instr), s.pending = c :: r → step s = exec c { s with pending := r }) ∧
  (∀ s : State, s.pending = [] →
    (s.vig.resetN = true → step s = .next s) ∧
    (s.vig.resetN = false → ∃ t, step s = .next t ∧ t.pending = [] ∧ t.vig.clk = s.vig.clk + 10 ∧ t.chip.ram = s.chip.ram ∧
      t.chip.tasks = s.chip.tasks ∧ t.chip.adrus = s.chip.adrus ∧
      (∀ a, (∀ c, c < 32 → a ≠ SCH_IDLE.at (c / 16) [c % 16]) → mGet? t.chip.csr a = mGet? s.chip.csr a) ∧
      ((∀ c, c < 32 → (s.chip.clu c).inReset = true) → t.chip.csr = s.chip.csr) ∧
      (s.vig.slew = false → s.vig.tstate ≠ 3 → s.vig.frac < 1000000000 →
        t.vig.dt = s.vig.dt + 10 ∧ t.vig.frac = s.vig.frac ∧ t.vig.err = s.vig.err) ∧
      (s.vig.slew = true → s.vig.err > 0 → s.vig.tstate ≠ 3 → s.vig.frac = 0 → t.vig.dt = s.vig.dt + 10 ∧
        t.vig.frac = 100000000 ∧ t.vig.err = max 0 (s.vig.err - 10)) ∧
      (s.vig.slew = true → s.vig.err < 0 → s.vig.tstate ≠ 3 → s.vig.frac = 0 → t.vig.dt = s.vig.dt + 9 ∧
        t.vig.frac = 900000000 ∧ t.vig.err = min 0 (s.vig.err + 10))))

/-- No command stops the block (log 1). -/
def Obligations.EveryCommandEnds : Prop :=
  ∀ (c : Instr) (s : State), ∃ t, exec c s = .next t ∧ t.pending = s.pending

/-- R29, R112, R373 and R495; the entry count is the model's choice (log 3). -/
def Obligations.ResetState : Prop :=
  let v := State.reset.vig
  let ch := State.reset.chip
  State.reset.pending = [] ∧ v.dt = 0 ∧ v.tstate = 0 ∧ v.lc = 0 ∧ v.entries = 1 ∧ v.resetN = true ∧ v.session.isNone = true ∧
  v.root.isNone = true ∧ v.flash = [] ∧ ch.ram.wf = true ∧ ch.ram.cells = [] ∧ ch.ram.tags = [] ∧
  (∀ t, (ch.task t).bound = none ∧ (ch.task t).status = 1 ∧ (ch.task t).pcc = Cap.null ∧ (ch.task t).evmask = 0xFF) ∧
  (∀ t g, ch.rdReg t g = Cap.null) ∧
  (∀ c, c < 32 → (ch.clu c).inReset = true) ∧ (∀ h, h < 2 → (ch.core (512 + h)).inReset = true) ∧
  (∀ h, h < 2 → (tGet ch.half h).inReset = true ∧ (tGet ch.wick h).up = false ∧ (tGet ch.wick h).down = false ∧
    (tGet ch.wick h).training = true ∧ (tGet ch.adrus h).pairs = [] ∧
    ch.fld WCK_TIMEOUT WCK_TIMEOUT_TIMEOUT_US h = 50 ∧ ch.fld WCK_CTRL WCK_CTRL_PKT_SHARE h = 8 ∧
    ch.fld WCK_CTRL WCK_CTRL_ENABLE h = 1)

/-- R19 to R29. -/
def Obligations.WickLink : Prop :=
  (∀ (p : WickPort) (share : Nat),
    (p.canSend 0 = true → p.pick share = some 0) ∧ (p.canSend 0 = false → p.canSend 2 = true → p.pick share = some 2) ∧
    (∀ vc, p.pick share = some vc → p.canSend vc = true ∧ (vc = 4 → p.shareOk share = true))) ∧
  ∀ (s : State) (h : Nat), h < 2 →
    let ch := s.chip
    let p := tGet ch.wick h
    let far := (tGet ch.wick (1 - h)).wire
    (p.up = true → p.down = false → p.training = false →
      (∀ f r, p.resend = f :: r → ∃ g e, exec (.wickFlitSend h) s = .next { s with chip := g } ∧ (tGet g.wick h).resend = r ∧
        (tGet g.wick h).txq = p.txq ∧ (tGet g.wick h).credits = p.credits ∧ (tGet g.wick h).replay = p.replay ∧
        (tGet g.wick (1 - h)).wire = far ++ [e] ∧ e.pay = f.pay ∧ e.msg = f.msg ∧ bf e.ctl 16 8 = bf f.ctl 16 8 ∧
        bf e.ctl 0 16 = flitCrc e.pay e.ctl) ∧
      (∀ vc f r, p.resend = [] → p.replay.length < 128 → p.pick (ch.fld WCK_CTRL WCK_CTRL_PKT_SHARE h) = some vc →
        mGet p.txq vc [] = f :: r → ∃ g e, exec (.wickFlitSend h) s = .next { s with chip := g } ∧
        mGet (tGet g.wick h).txq vc [] = r ∧ mGet (tGet g.wick h).credits vc 0 = mGet p.credits vc 0 - 1 ∧
        (tGet g.wick h).replay = p.replay ++ [e] ∧ (tGet g.wick h).seqNext = (p.seqNext + 1) % 256 ∧
        (tGet g.wick (1 - h)).wire = far ++ [e] ∧ e.pay = f.pay ∧ e.msg = f.msg ∧ bf e.ctl 0 16 = flitCrc e.pay e.ctl) ∧
      (p.resend = [] → p.pick (ch.fld WCK_CTRL WCK_CTRL_PKT_SHARE h) = none → p.rxSeq < 256 → (∀ e ∈ p.retCred, e.1 < 8) →
        ∃ g e, exec (.wickFlitSend h) s = .next { s with chip := g } ∧ (tGet g.wick h).txq = p.txq ∧
        (tGet g.wick h).credits = p.credits ∧ (tGet g.wick h).replay = p.replay ∧ (tGet g.wick h).seqNext = p.seqNext ∧
        (tGet g.wick (1 - h)).wire = far ++ [e] ∧ tb e.ctl 45 = true ∧ bf e.ctl 0 16 = flitCrc e.pay e.ctl) ∧
      (∀ f r noise, p.wire = f :: r →
        let raw := leNat (f.pay ++ leBytes 8 f.ctl) ^^^ (noise % 2 ^ 512)
        let pay := leBytes 56 raw
        let ctl := bf raw 448 64
        (bf ctl 0 16 ≠ flitCrc pay ctl → ∃ g, exec (.wickFlitReceive h noise) s = .next { s with chip := g } ∧
          (tGet g.wick h).wire = r ∧ (tGet g.wick h).nak = true ∧ (tGet g.wick h).skip = true ∧
          (tGet g.wick h).inbox = p.inbox ∧ (tGet g.wick h).rxSeq = p.rxSeq ∧ g.fld WCK_ERR WCK_ERR_CRC_SEEN h = 1) ∧
        (bf ctl 0 16 = flitCrc pay ctl → bf ctl 33 3 < 5 → tb ctl 45 = false → bf ctl 16 8 = (p.rxSeq + 1) % 256 → ∃ g,
          exec (.wickFlitReceive h noise) s = .next { s with chip := g } ∧ (tGet g.wick h).wire = r ∧
          (tGet g.wick h).rxSeq = bf ctl 16 8 ∧ (tGet g.wick h).skip = false ∧
          (f.msg = none → (tGet g.wick h).inbox = p.inbox) ∧
          (∀ m, f.msg = some m → (∀ q, m.body ≠ .memRsp q) → (tGet g.wick h).inbox = p.inbox ++ [m])))) ∧
    (p.up = true → p.replay ≠ [] → p.resend = [] → p.progress + 200 ≤ s.vig.clk → ∃ g,
      exec (.wickReplayTimeout h) s = .next { s with chip := g } ∧ (tGet g.wick h).resend = p.replay ∧
      (tGet g.wick h).replays = p.replays + 1 ∧ (tGet g.wick h).progress = s.vig.clk ∧ g.ram = ch.ram ∧ g.tasks = ch.tasks) ∧
    (p.replays ≥ 8 → p.training = false → ∃ g, exec (.wickRetrain h) s = .next { s with chip := g } ∧ ∀ k, k < 2 →
      (tGet g.wick k).up = false ∧ (tGet g.wick k).training = true ∧ (tGet g.wick k).txq = (tGet ch.wick k).txq ∧
      (tGet g.wick k).replay = (tGet ch.wick k).replay ∧ (tGet g.wick k).inbox = (tGet ch.wick k).inbox) ∧
    (ch.wick.h0.training = true → ch.half.h0.inReset = false → ch.half.h1.inReset = false →
      (∃ g, exec (.wickTrainingComplete true) s = .next { s with chip := g } ∧ (tGet g.wick h).up = true ∧
        (tGet g.wick h).down = false ∧ (tGet g.wick h).training = false ∧ (tGet g.wick h).seqNext = 0 ∧
        (tGet g.wick h).fails = 0 ∧ (tGet g.wick h).replay = [] ∧
        (∀ vc, mGet (tGet g.wick h).credits vc 0 = if vc < 5 then vcCredits vc else 0) ∧
        (∀ vc, mGet (tGet g.wick h).txq vc [] =
          ((ackDrop (tGet ch.wick (1 - h)).rxSeq p.replay).filter (fun f => decide (bf f.ctl 33 3 = vc))).map
            (fun f => { f with ctl := ctlKeep f.ctl }) ++ mGet p.txq vc [])) ∧
      (∃ g, exec (.wickTrainingComplete false) s = .next { s with chip := g } ∧ (tGet g.wick h).fails = min 3 (p.fails + 1) ∧
        (tGet g.wick h).training = p.training ∧ (tGet g.wick h).txq = p.txq)) ∧
    (ch.fld WCK_CTRL WCK_CTRL_ENABLE 0 = 1 → ch.fld WCK_CTRL WCK_CTRL_ENABLE 1 = 1 → ∃ g,
      exec (.wickRetrainWrite h) s = .next { s with chip := g } ∧ ∀ k, k < 2 →
      (tGet g.wick k).up = false ∧ (tGet g.wick k).training = true ∧ (tGet g.wick k).txq = (tGet ch.wick k).txq)

/-- R27 to R29 and R427. -/
def Obligations.WickDownAndForwarding : Prop :=
  ∀ (s : State) (h : Nat), h < 2 →
    let ch := s.chip
    let p := tGet ch.wick h
    let lost := fun (g : Chip) => ∀ k, k < 2 → (tGet g.wick k).up = false ∧ (tGet g.wick k).down = true ∧
      (tGet g.wick k).txq = [] ∧ (tGet g.wick k).replay = [] ∧ (tGet g.wick k).wire = [] ∧
      (∀ q ∈ (tGet g.wick k).reqs, q.vc ≠ 0 ∧ q.vc ≠ 1) ∧
      (∀ q ∈ (tGet ch.wick k).reqs, q.vc = 1 → q.task < 65536 → ∀ o ∈ (g.task q.task).ops, o.id = q.op → o.remote = true → o.resp ≠ none)
    ((tGet ch.wick 0).fails ≥ 3 → (tGet ch.wick 0).down = false → ∃ g,
      exec .wickDown s = .next { s with chip := g } ∧ lost g) ∧
    ((tGet ch.wick 0).down = false → ∃ g, exec (.wickEnableWrite h false) s = .next { s with chip := g } ∧ lost g) ∧
    (ch.fld WCK_CTRL WCK_CTRL_ENABLE h = 0 → ch.fld WCK_CTRL WCK_CTRL_ENABLE (1 - h) = 1 → ∃ g,
      exec (.wickEnableWrite h true) s = .next { s with chip := g } ∧ g.fld WCK_CTRL WCK_CTRL_ENABLE h = 1 ∧
      ∀ k, k < 2 → (tGet g.wick k).training = true ∧ (tGet g.wick k).up = false) ∧
    (∀ q, p.reqs.find? (ch.reqExpired h s.vig) = some q →
      (q.vc ≠ 0 → ∃ g, exec (.wickRequestTimeout h) s = .next { s with chip := g } ∧ (tGet g.wick h).reqs = p.reqs.erase q ∧
        (q.task < 65536 → ∀ o ∈ (g.task q.task).ops, o.id = q.op → o.remote = true → o.resp ≠ none) ∧ g.fld WCK_ERR WCK_ERR_TIMEOUT_SEEN h = 1) ∧
      (q.vc = 0 → ∀ c, ch.cmd h q.tag = some c → c.timedOut = false → c.src ≠ .far → ∃ g,
        exec (.wickRequestTimeout h) s = .next { s with chip := g } ∧ g.cmd h q.tag = none ∧
        (tGet g.adrus h).compl = (tGet ch.adrus h).compl ++ [c.compl 0x104 (leBytes 8 1) []])) ∧
    (∀ n b ch', (tGet ch.half h).inReset = false → ch.takeMgmt h (fun k => k = 0) = some (0, n, b, ch') →
      (ch'.cmdReady h = false →
        let g := ch'.wickSend h (mkMsg 0 2 0xFFFFFF (n.headD 0 % 65536) (.mgmt 2 [n.headD 0] []))
        exec (.forwardedCommandArrival h) s = .next { s with chip := g }) ∧
      (ch'.cmdReady h = true → ∃ g c, exec (.forwardedCommandArrival h) s = .next { s with chip := g } ∧
        (tGet g.adrus h).cmds = (tGet ch.adrus h).cmds ++ [c] ∧ c.id = (tGet ch.adrus h).next ∧ c.src = .far ∧
        c.org = n.headD 0 ∧ c.entry = b ∧ c.started = false ∧ (tGet g.adrus h).next = (tGet ch.adrus h).next + 1)) ∧
    (∀ k n b ch' c, (tGet ch.half h).inReset = false → ch.takeMgmt h (fun k => k = 1 || k = 2 || k = 3) = some (k, n, b, ch') →
      ch.cmd h (n.headD 0) = some c → c.timedOut = false → c.src ≠ .far →
      (k = 1 → p.reqs.any (fun q => decide (q.vc = 0) && decide (q.tag = n.headD 0)) = true → ∃ g,
        exec (.forwardedCompletionArrival h) s = .next { s with chip := g } ∧ g.cmd h (n.headD 0) = some { c with acked := true }) ∧
      (k = 2 → c.fwd = true → p.reqs.any (fun q => decide (q.vc = 0) && decide (q.tag = n.headD 0)) = true → ∃ g,
        exec (.forwardedCompletionArrival h) s = .next { s with chip := g } ∧ g.cmd h (n.headD 0) = none ∧
        (tGet g.adrus h).compl = (tGet ch.adrus h).compl ++ [c.compl 0x106 [] []]) ∧
      (k = 2 → c.fwd = false → p.reqs.any (fun q => decide (q.vc = 0) && decide (q.tag = n.headD 0)) = true → ∃ g,
        exec (.forwardedCompletionArrival h) s = .next { s with chip := g } ∧ g.cmd h (n.headD 0) = none ∧
        (tGet g.adrus h).compl = (tGet ch.adrus h).compl ++ [c.compl 0x104 (leBytes 8 1) []]) ∧
      (k = 3 → c.fwd = false → c.part = some none → ∃ g, exec (.forwardedCompletionArrival h) s = .next { s with chip := g } ∧
        g.cmd h (n.headD 0) = some { c with part := some (some (n.getD 1 0, b)) }) ∧
      (k = 3 → c.fwd = true → ∃ g, exec (.forwardedCompletionArrival h) s = .next { s with chip := g } ∧
        g.cmd h (n.headD 0) = none ∧
        (tGet g.adrus h).compl = (tGet ch.adrus h).compl ++ [c.compl (n.getD 1 0) (sliceB b 0 24) (b.drop 24)])) ∧
    (∀ id c, ch.cmd h id = some c → c.src = .far → c.op = 0 → c.fwd = false → c.started = true → c.timedOut = false →
      (tGet ch.half h).inReset = false → ch.cmdReady h = true → ch.wickUp h = true → exec (.adrusNop h id) s = .next { s with
        chip := (ch.updAdrus h (fun x => { x with cmds := x.cmds.filter (fun k => decide (k.id ≠ id)) })).wickSend h
          (mkMsg 0 3 0xFFFFFF 0 (.mgmt 3 [c.org, 0] (List.replicate 24 0))) })

/-- R327 to R362, R521 and R561. -/
def Obligations.FrameEntry : Prop :=
  ∀ (s : State) (h : Nat), h < 2 →
    let v := s.vig
    let ch := s.chip
    let fl := tGet ch.flow h
    let up := (tGet ch.half h).inReset = false
    (∀ p bytes fec pick, ch.portUp h p = true → 64 ≤ bytes.length →
      let n := bytes.length - 4
      let b := bytes.take n
      (bytes.drop n ≠ ethFcs b → ∃ g, exec (.frameReceive h p bytes fec pick) s = .next { s with chip := g } ∧
        g.fld ETH_FCSERR ETH_FCSERR_COUNT h [p] = min (2 ^ ETH_FCSERR_COUNT.w - 1) (ch.fld ETH_FCSERR ETH_FCSERR_COUNT h [p] + 1) ∧
        g.fld ETH_FECCORR ETH_FECCORR_COUNT h [p] =
          min (2 ^ ETH_FECCORR_COUNT.w - 1) (ch.fld ETH_FECCORR ETH_FECCORR_COUNT h [p] + fec.corr) ∧
        g.fld ETH_FECUNC ETH_FECUNC_COUNT h [p] = min (2 ^ ETH_FECUNC_COUNT.w - 1) (ch.fld ETH_FECUNC ETH_FECUNC_COUNT h [p] + fec.unc) ∧
        g.ram = ch.ram ∧ g.flow = (ch.updFlow h (fun x => { x with ethAt := v.clk })).flow ∧ g.runs = ch.runs) ∧
      (bytes.drop n = ethFcs b → v.forwards = true → ch.fld FLW_CTRL FLW_CTRL_ENABLE h ≠ 0 →
        64 ≤ ch.fld FLW_CTRL FLW_CTRL_MAXFRAME h → ch.fld FLW_CTRL FLW_CTRL_MAXFRAME h ≤ 9216 →
        bytes.length ≤ ch.fld FLW_CTRL FLW_CTRL_MAXFRAME h →
        (ch.allocRun h b.length (ch.fld FLW_PB FLW_PB_RX_RESERVE h) [pick] = none → ∃ g,
          exec (.frameReceive h p bytes fec pick) s = .next { s with chip := g } ∧ g.ram = ch.ram ∧ g.runs = ch.runs ∧
          g.fld FLW_RX_DROP FLW_RX_DROP_COUNT h = min (2 ^ FLW_RX_DROP_COUNT.w - 1) (ch.fld FLW_RX_DROP FLW_RX_DROP_COUNT h + 1)) ∧
        (∀ first c r, ch.allocRun h b.length (ch.fld FLW_PB FLW_PB_RX_RESERVE h) [pick] = some (first, c) →
          parseFrame fl b (8 * h + p) (ch.fld FLW_PORT FLW_PORT_START h [p]) = some r →
          tb (ch.guardMask h 0x101) 3 = true →
          let kl := ch.klen h r.kprof
          let key := trimKey kl r.key
          let h1 := flowH1 r.kprof kl key
          let f : Machine.Frm := ⟨first, 128, b.length, 8 * h + p, r.flags, r.kprof, key, h1, r.eop, v.time, mGet fl.ownN (ownIndex h1) 0⟩
          fl.holds.contains (ownIndex f.h1) = false → (kl = 0 ∨ ch.owner h f.h1 = h) →
          ch.fld FLW_KPROF FLW_KPROF_EXACT h [r.kprof] = 1 → (ch.log2b h).isSome = true → ch.cacheKey h r.kprof kl key = none → fl.pend.any (fun q => q.fr.same f) = false →
          ∃ g, exec (.frameReceive h p bytes fec pick) s = .next { s with chip := g } ∧ g.runs = c.runs ∧
            (tGet g.flow h).lookup = fl.lookup ++ [f] ∧ g.ram.rdN (bufAt h first + 128) b.length = b))) ∧
    (∀ pick alt b i c, up → ch.takePacket h = some (0, b, i, c) →
      (c.allocRun h b.length 0 [pick, alt] = none → ∃ g, exec (.misdirectedFrameArrival h pick alt) s = .next { s with chip := g } ∧
        g.ram = ch.ram ∧ g.runs = ch.runs ∧
        g.fld FLW_RX_DROP FLW_RX_DROP_COUNT h = min (2 ^ FLW_RX_DROP_COUNT.w - 1) (ch.fld FLW_RX_DROP FLW_RX_DROP_COUNT h + 1)) ∧
      (∀ first c2, c.allocRun h b.length 0 [pick, alt] = some (first, c2) →
        let f := frmOfInfo first b.length i
        ch.fld FLW_KPROF FLW_KPROF_EXACT h [f.kprof] = 1 → (ch.log2b h).isSome = true →
        ch.cacheKey h f.kprof (ch.klen h f.kprof) f.key = none → fl.pend.any (fun q => q.fr.same f) = false →
        ∃ g, exec (.misdirectedFrameArrival h pick alt) s = .next { s with chip := g } ∧ g.runs = c2.runs ∧
          (tGet g.flow h).lookup = fl.lookup ++ [f])) ∧
    (∀ pick b i c, up → ch.takePacket h = some (2, b, i, c) →
      let q := mGet fl.egress (i.getD 0 0 % 8) []
      let fits := q.all (fun e => e.ovf.isEmpty) = true ∧ egOnDie q + b.length ≤ 1024 * ch.fld FLW_EGQ FLW_EGQ_ONCHIP_KB h
      ∃ g, exec (.wickPacketFrameArrival h pick) s = .next { s with chip := g } ∧
        (fits → mGet (tGet g.flow h).egress (i.getD 0 0 % 8) [] = q ++ [⟨b, portRun i, []⟩] ∧ g.ram = ch.ram) ∧
        (∀ ls, ¬ fits → i.getD 2 0 ≠ 1 → ch.ovfLines h b.length = some ls →
          mGet (tGet g.flow h).egress (i.getD 0 0 % 8) [] = q ++ [⟨b, portRun i, ls⟩]) ∧
        (¬ fits → i.getD 2 0 = 1 ∨ ch.ovfLines h b.length = none → mGet (tGet g.flow h).egress (i.getD 0 0 % 8) [] = q ∧
          (∀ r, portRun i = some r → mGet? (tGet g.runs r.1) r.2 = none) ∧
          g.fld FLW_RX_DROP FLW_RX_DROP_COUNT h = min (2 ^ FLW_RX_DROP_COUNT.w - 1) (ch.fld FLW_RX_DROP FLW_RX_DROP_COUNT h + 1))) ∧
    (∀ pick b i c first c2, up → ch.takePacket h = some (1, b, i, c) → c.allocRun h b.length 0 [pick] = some (first, c2) →
      let f := frmOfInfo first b.length i
      let d : Dlv := ⟨i.getD 8 0, i.getD 9 0, i.getD 10 0, i.getD 11 0, i.getD 12 0, i.getD 13 0, i.getD 14 0⟩
      let w := c2.frameWrite h (bufAt h first + 128) b
      let cap := w.frameCap h d.pbva first (runSize b.length) d.ten
      let held := (w.frameWrite h (bufAt h first) (rxDesc f)).holdRun v h first (runSize b.length) d
      cap.tag = true →
      (held.canOffer h d.comp = false → ∃ g, exec (.wickPacketFrameArrival h pick) s = .next { s with chip := g } ∧
        (mGet? (tGet g.runs h) first).map (fun r => (r.held, r.tenant, r.comp, r.vbase, r.since)) =
          some (true, d.ten, d.comp, d.pbva + 2048 * first, v.clk) ∧
        (tGet g.flow h).dwait = fl.dwait ++ [⟨first, d.comp, dlvEvent f d cap, d.ten, v.clk⟩]) ∧
      (∀ g, held.canOffer h d.comp = true →
        (held.record d.comp).bind (fun r => held.enqueue d.comp r (dlvEvent f d cap)) = some g →
        exec (.wickPacketFrameArrival h pick) s = .next { s with chip := g })) ∧
    (∀ j n, fl.holds.contains j = true → ch.entryBusy j = false →
      let mine := fl.held.filter (fun y => decide (ownIndex y.h1 = j))
      ∃ g, exec (.ownmapHoldRelease h j n) s = .next { s with chip := g } ∧
      (tGet g.flow h).holds = (if mine.length ≤ n + 1 then fl.holds.filter (fun i => decide (i ≠ j)) else fl.holds) ∧
      (tGet g.flow h).held = fl.held.filter (fun y => decide (ownIndex y.h1 ≠ j)) ++ mine.drop (n + 1)) ∧
    (∀ n f, fl.lookup[n]? = some f → (fl.lookup.take n).any (fun g => g.same f) = false → ∃ g,
      exec (.flowBucketReadDone h n) s = .next { s with chip := g } ∧ (tGet g.flow h).lookup = fl.lookup.eraseIdx n ∧
      (∀ k, ch.log2b h = some k →
        ch.bucketBad h (ch.buckets h k f.kprof (ch.klen h f.kprof) f.key).1 = true → mGet? (tGet g.runs h) f.first = none ∧
        g.fld FLW_ACT_FAIL FLW_ACT_FAIL_COUNT h =
          min (2 ^ FLW_ACT_FAIL_COUNT.w - 1) (ch.fld FLW_ACT_FAIL FLW_ACT_FAIL_COUNT h + 1))) ∧
    (∀ n w, fl.dwait[n]? = some w → w.since + 250000 ≤ v.clk → ∃ g,
      exec (.deliveryWaitTimeout h n) s = .next { s with chip := g } ∧ (tGet g.flow h).dwait = fl.dwait.eraseIdx n ∧
      mGet? (tGet g.runs h) w.first = none ∧
      g.fld FLW_QFULL FLW_QFULL_COUNT h = min (2 ^ FLW_QFULL_COUNT.w - 1) (ch.fld FLW_QFULL FLW_QFULL_COUNT h + 1))

/-- R339 to R358 and R443. -/
def Obligations.FlowTable : Prop :=
  (∀ (ch : Chip) (v : Vig) (h : Nat) (key : List Byte) (ctl : Nat) (learn replace : Bool) (n i : Nat), h < 2 →
    let c := bfSet (bfSet ctl 11 1 (b2n learn)) 38 16 (ch.tick v h)
    let e := ch.mkEnt h key c
    ch.lookupKey h (bf c 1 4) (bf c 5 6) key = none → ch.log2b h = some n →
    ch.freeWay h (ch.buckets h n (entKprof e) (entKlen e) (e.take 40)).1 = some i →
    ch.guardLine h 0x101 true (ch.entAddr h i) = .pass → ch.lineBad (ch.entAddr h i) = false →
    ∃ g, ch.commitInsert v h key ctl learn replace = .done i false g ∧ g.ram.rdN (ch.entAddr h i) 64 = e ∧
      (∀ a, a < ch.entAddr h i ∨ ch.entAddr h i + 64 ≤ a → g.ram.rd a = ch.ram.rd a) ∧
      ({ (tGet g.flow h) with cache := (tGet ch.flow h).cache } : Flow) = tGet ch.flow h ∧ g.tasks = ch.tasks) ∧
  ∀ (s : State) (h : Nat), h < 2 →
    let v := s.vig
    let ch := s.chip
    let fl := tGet ch.flow h
    (∀ p r, fl.pend = p :: r → p.waiting = [] → (fl.hostq = [] ∨ fl.lastHost = true) → ∃ g,
      exec (.learnCommit h) s = .next { s with chip := g } ∧ (tGet g.flow h).pend = r ∧ (tGet g.flow h).lastHost = false ∧
      (tGet g.flow h).hostq = fl.hostq) ∧
    (∀ i, (tGet ch.half h).inReset = false → exec (.tableUpdateCommit ⟨h, some i⟩) s = .next { s with
      chip := ch.updFlow h (fun x => { x with hostq := x.hostq ++ [⟨0, sliceB i.key 0 40, i.ctl, i.replace, none⟩] }) }) ∧
    (∀ u r k c, fl.hostq = u :: r → (fl.pend = [] ∨ fl.lastHost = false) → u.cmd = some k → ch.cmd h k = some c → c.timedOut = false → c.src ≠ .far →
      let c1 := ch.updFlow h (fun x => { x with hostq := r, lastHost := true })
      let ends := fun (st : Nat) (res : List Byte) => ∃ g, exec (.tableUpdateCommit ⟨h, none⟩) s = .next { s with chip := g } ∧
        (tGet g.flow h).hostq = r ∧ (tGet g.flow h).lastHost = true ∧ g.cmd h k = none ∧
        (tGet g.adrus h).compl = (tGet ch.adrus h).compl ++ [c.compl st res []]
      (∀ g, u.kind = 0 → c1.commitInsert v h u.key u.ctl false u.replace = .full g → ends 0x301 []) ∧
      (u.kind = 3 → ends 0 (leBytes 4 (c1.flushList h u.ctl u.replace).length)) ∧
      (∀ i g, u.kind = 0 → c1.commitInsert v h u.key u.ctl false u.replace = .exists_ i g → ends 0x302 []) ∧
      (∀ i rep g, u.kind = 0 → c1.commitInsert v h u.key u.ctl false u.replace = .done i rep g → ends 0 (flowResult i rep 0)) ∧
      (u.kind = 1 ∨ u.kind = 2 → ch.lookupKey h (bf u.ctl 1 4) (bf u.ctl 5 6) u.key = none → ends 0x303 []) ∧
      (∀ i e, u.kind = 1 → ch.lookupKey h (bf u.ctl 1 4) (bf u.ctl 5 6) u.key = some (i, e) → ends 0 (flowResult i false 0)) ∧
      (∀ i e, u.kind = 2 → ch.lookupKey h (bf u.ctl 1 4) (bf u.ctl 5 6) u.key = some (i, e) → ends 0 (flowResult i false (entCtl (ch.entNow h i))))) ∧
    (∀ u r, fl.hostq = [] → fl.ageq = u :: r → fl.pend = [] → ∃ g, exec (.tableUpdateCommit ⟨h, none⟩) s = .next { s with chip := g } ∧
      (tGet g.flow h).ageq = r ∧
      (((ch.entNow h u.index).take 40 ≠ u.key ∨ ctlPlain (entCtl (ch.entNow h u.index)) ≠ ctlPlain u.ctl) → g.ram = ch.ram) ∧
      ((ch.entNow h u.index).take 40 = u.key → ctlPlain (entCtl (ch.entNow h u.index)) = ctlPlain u.ctl →
        v.pair.role ≠ 3 → g.fld FLW_AGED FLW_AGED_COUNT h = min (2 ^ FLW_AGED_COUNT.w - 1) (ch.fld FLW_AGED FLW_AGED_COUNT h + 1))) ∧
    (∀ n b, ch.log2b h = some n → b < 2 ^ n →
      ((∀ w, w < 4 → entValid (ch.entNow h (4 * b + w)) = false) → ∃ g, exec (.agingScan h b) s = .next { s with chip := g } ∧
        g.ram = ch.ram ∧ g.flow = ch.flow) ∧
      (∀ w, w < 4 → (∀ x, x < 4 → (entValid (ch.entNow h (4 * b + x)) = true ↔ x = w)) →
        let e := ch.entNow h (4 * b + w)
        let age := (ch.tick v h + 65536 - bf (entCtl e) 38 16) % 65536
        age < 0x8000 → ch.fld FLW_AGE FLW_AGE_IDLE h ≠ 0 → ch.fld FLW_AGE FLW_AGE_IDLE h ≤ age → tb (entCtl e) 12 = false →
        v.pair.role ≠ 3 → ch.fld FLW_MODE FLW_MODE_AGE h = 0 → ∃ g, exec (.agingScan h b) s = .next { s with chip := g } ∧
        (∀ a, a < ch.entAddr h (4 * b + w) ∨ ch.entAddr h (4 * b + w) + 64 ≤ a → g.ram.rd a = ch.ram.rd a) ∧
        (tGet g.flow h).ageq = fl.ageq ++ [⟨4 * b + w, e.take 40, entCtl e⟩]))

/-- R331, R350, R351, R361, R371 and R563. -/
def Obligations.RunsAndPorts : Prop :=
  ∀ (s : State) (h : Nat), h < 2 →
    let v := s.vig
    let ch := s.chip
    let fl := tGet ch.flow h
    (∀ x q, tGet ch.hbq h = x :: q → (tGet ch.half h).inReset = false → ch.storesBefore x.task x.before = false →
      let held := (tGet ch.runs h).find? (fun e => e.2.held && decide (e.2.vbase = x.cap.base) && decide (e.2.tenant = x.tenant))
      let bad := x.cap.otype ≠ 0 ∨ x.cap.has pPacket = false ∨ x.cap.colour ≠ 3
      ((bad ∨ held = none ∨ ∃ e, held = some e ∧ x.cap.top ≠ e.2.vbase + 2048 * e.2.size) → ∃ g,
        exec (.handBack h) s = .next { s with chip := g } ∧ tGet g.hbq h = q ∧ g.runs = ch.runs ∧ g.ram = ch.ram ∧
        g.fld FLW_HB_REFUSED FLW_HB_REFUSED_COUNT h =
          min (2 ^ FLW_HB_REFUSED_COUNT.w - 1) (ch.fld FLW_HB_REFUSED FLW_HB_REFUSED_COUNT h + 1)) ∧
      (∀ k r, ¬ bad → held = some (k, r) → x.cap.top = r.vbase + 2048 * r.size →
        fieldB (Chip.engRead1 v ch h (bufAt h r.first) 64).2 22 1 ≠ 0 → ∃ g, exec (.handBack h) s = .next { s with chip := g } ∧
        tGet g.hbq h = q ∧ mGet? (tGet g.runs h) r.first = none)) ∧
    (∀ p f q, ch.portUp h p = true → mGet fl.egress p [] = f :: q → ∃ g,
      exec (.frameTransmitDone h p) s = .next { s with chip := g } ∧
      (q.all (fun e => e.ovf.isEmpty) = true → mGet (tGet g.flow h).egress p [] = q) ∧
      (mGet (tGet g.flow h).egress p []).map (·.run) = q.map (·.run) ∧
      (∀ e, (mGet (tGet g.flow h).egress p []).head? = some e → e.ovf = []) ∧
      mGet (tGet g.flow h).sent p [] =
        (f.bytes ++ List.replicate (60 - f.bytes.length) 0) ++ ethFcs (f.bytes ++ List.replicate (60 - f.bytes.length) 0) ∧
      (∀ r, f.run = some r → mGet? (tGet g.runs r.1) r.2 = none) ∧ g.ram.cells = ch.ram.cells) ∧
    (∀ first r, mGet? (tGet ch.runs h) first = some r → r.held = true →
      r.since + 1000 * max 1 (ch.fld FLW_PB FLW_PB_HOLD_US h) ≤ v.clk → fl.dwait.any (fun w => decide (w.first = first)) = false →
      ∃ g, exec (.runReclaim h first) s = .next { s with chip := g } ∧ mGet? (tGet g.runs h) first = none ∧
      (∀ a, bufAt h first ≤ a → a < bufAt h (first + r.size) → g.ram.colour a = 0) ∧ g.ram.cells = ch.ram.cells ∧
      g.fld FLW_RECLAIM FLW_RECLAIM_COUNT h = min (2 ^ FLW_RECLAIM_COUNT.w - 1) (ch.fld FLW_RECLAIM FLW_RECLAIM_COUNT h + 1)) ∧
    (∃ g, exec (.parseGraphSwap h) s = .next { s with chip := g } ∧ (tGet g.flow h).bank = 1 - fl.bank ∧
      (tGet g.flow h).nodes = fl.nodes ∧ g.ram = ch.ram ∧ g.csr = ch.csr) ∧
    (∀ ten p x, ten < 4096 → p < 8 →
      (∃ g, exec (.policerConfigWrite h ten p true x) s = .next { s with chip := g } ∧
        g.reg MTR_POLBURST h [ten, p] = x % 2 ^ 32 ∧ g.reg MTR_POLTOK h [ten, p] = x % 2 ^ 32 ∧ g.ram = ch.ram ∧
        mGet? (tGet g.flow h).pol (ten * 8 + p) = some (x % 2 ^ 32 * 256, v.time / 1000)) ∧
      (∃ g, exec (.policerConfigWrite h ten p false x) s = .next { s with chip := g } ∧
        g.reg MTR_POLCFG h [ten, p] = bf x 0 25 + bf x 31 1 * 2 ^ 31 ∧
        g.reg MTR_POLTOK h [ten, p] = ch.reg MTR_POLBURST h [ten, p] ∧ g.ram = ch.ram))

/-- R366, R368 and R373 to R376. -/
def Obligations.MetersAndTime : Prop :=
  ∀ (s : State),
    let v := s.vig
    let ch := s.chip
    (∀ h par t i, h < 2 → par < 2 → t < 4096 → i < 24 → ∃ w g, exec (.meterIncrementArrival h par t i) s = .next { s with vig := w, chip := g } ∧
      w.bank h par t i = (v.bank h par t i + mGet ch.inc (incKey h par t i) 0) % 2 ^ 64 ∧ mGet? g.inc (incKey h par t i) = none ∧
      (∀ h' p' t' i', h' < 2 → p' < 2 → t' < 4096 → i' < 24 → (h', p', t', i') ≠ (h, par, t, i) → w.bank h' p' t' i' = v.bank h' p' t' i')) ∧
    (∀ h, h < 2 → v.gaugeDue h = true → ∃ w, exec (.gaugeTick h) s = .next { s with vig := w } ∧
      tGet w.gaugeMs h = tGet v.gaugeMs h + 1 ∧ (v.forwards = false → w.banks = v.banks) ∧
      (v.forwards = true → v.parity < 2 → ∀ t, t < 4096 →
        w.bank h v.parity t 8 = (v.bank h v.parity t 8 + ch.fld MTR_GAUGE MTR_GAUGE_MEMPAGES h [t]) % 2 ^ 64 ∧
        w.bank h v.parity t 9 = (v.bank h v.parity t 9 + ch.fld MTR_GAUGE MTR_GAUGE_FLOWS h [t]) % 2 ^ 64)) ∧
    (∀ b e, v.lastEdge = some e → e + 100000000 ≤ v.clk → v.clk ≤ e + 900000000 → b.length = 12 → fieldB b 0 2 = 0x0AC5 →
      crcTod (b.take 10) = fieldB b 10 2 → tb (fieldB b 8 1) 0 = true →
      exec (.todMessage b) s = .next { s with vig := { v with label := some (fieldB b 2 6) } }) ∧
    (∀ x, v.label = some x → ∃ w, exec .ppsEdge s = .next { s with vig := w } ∧ w.tstate = 1 ∧ w.label = none ∧
      w.edge = some v.clk ∧ w.lastEdge = some v.clk ∧
      (x * 1000000000 > v.dt + 1000000 → w.dt = x * 1000000000 ∧ w.frac = 0 ∧ w.err = 0 ∧ w.slew = false) ∧
      (x * 1000000000 ≤ v.dt + 1000000 → w.dt = v.dt ∧ w.err = (Int.ofNat (x * 1000000000) - Int.ofNat v.dt) * 100 ∧
        (w.slew = true ↔ x * 1000000000 ≠ v.dt))) ∧
    (∀ e, v.label = none → v.edge = some e → e + 999000000 ≤ v.clk → v.clk ≤ e + 1001000000 → ∃ w,
      exec .ppsEdge s = .next { s with vig := w } ∧ w.toderr = min 65535 (v.toderr + 1) ∧ w.edge = some v.clk ∧ w.dt = v.dt ∧
      w.edges = (v.clk - e) :: v.edges.take 15 ∧ w.tstate = if v.tstate = 3 then 1 else v.tstate) ∧
    (v.label = none → (∀ e, v.edge = some e → v.clk < e + 999000000 ∨ e + 1001000000 < v.clk) →
      exec .ppsEdge s = .next { s with vig := { v with lastEdge := some v.clk } }) ∧
    (v.tstate = 1 → v.edge.getD 0 + 2000000000 ≤ v.clk → exec .holdoverTimeout s = .next { s with vig := { v with tstate := 3 } }) ∧
    (v.err = 0 → exec .slewEnd s = .next { s with vig := { v with slew := false } })

/-- R377 to R391. -/
def Obligations.Ledger : Prop :=
  ∀ (s : State),
    let v := s.vig
    let ch := s.chip
    (v.boundary < v.dt / minuteNs → v.sealing = none → v.gaugeDue 0 = false → v.gaugeDue 1 = false → ∃ w x,
      exec .minuteBoundary s = .next { s with vig := w } ∧ w.parity = 1 - v.parity ∧ w.boundary = v.dt / minuteNs ∧
      w.banks = v.banks ∧ w.sealing = some x ∧ x.minute = v.dt / minuteNs ∧ x.span = v.dt / minuteNs - v.boundary ∧
      x.par = v.parity ∧ x.since = v.clk ∧ x.arrived = false ∧ x.part = false) ∧
    (v.late ≠ [] → ∃ w, exec .half1TotalsArrival s = .next { s with vig := w } ∧ w.late = [] ∧ w.sealing = v.sealing ∧ w.banks = v.banks) ∧
    (∀ x, v.sealing = some x → x.arrived = false →
      (v.late = [] → x.since + 1000000 ≤ v.clk → ch.incLeft 1 x.par = false →
        exec .half1TotalsArrival s = .next { s with vig := { v with sealing := some { x with arrived := true } } }) ∧
      (x.part = false → x.since + 1500000000 ≤ v.clk → ∃ w, exec .partialSealTimeout s = .next { s with vig := w } ∧
        w.sealing = some { x with part := true } ∧ tb w.ldgStat 2 = true ∧ w.banks = v.banks)) ∧
    (∀ x, v.sealing = some x → x.par < 2 → (x.arrived = true ∨ x.part = true) → v.root = none → v.recovered = true →
      ch.incLeft 0 x.par = false → ch.incLeft 1 x.par = false → v.mirrors = false → ∃ w r,
      exec .sealRecordsFormed s = .next { s with vig := w } ∧ w.sealing = none ∧ w.root = some r ∧ r.seq = v.nextSeq ∧
      r.minute = x.minute ∧ r.recs = v.sealRecords x ∧ r.sig = none ∧ r.msg.drop 64 = merkle r.recs ∧
      fieldB r.msg 8 8 = v.nextSeq % 2 ^ 64 ∧ fieldB r.msg 16 8 = x.minute % 2 ^ 64 ∧ w.carry = [] ∧
      (∀ h t i, h < 2 → t < 4096 → i < 24 → w.bank h x.par t i = 0 ∧ w.bank h (1 - x.par) t i = v.bank h (1 - x.par) t i)) ∧
    (∀ r, v.root = some r → r.sig = none → ∃ w g, exec .rootSigned s = .next { s with vig := w, chip := g } ∧
      w.root = some { r with sig := some (edSign (keyBytes v.entries) r.msg) } ∧ w.seq = r.seq ∧
      w.progs = v.progs ++ [(r.seq, edSign (keyBytes v.entries) r.msg, true)] ∧
      w.blocks.getLast? = some ⟨r.seq, r.minute, r.msg ++ edSign (keyBytes v.entries) r.msg ++ r.recs.flatten, false, v.mirrors⟩ ∧
      w.blocks.length ≤ 2 ∧ w.banks = v.banks ∧ g.ram = ch.ram) ∧
    (∀ q d dev r, v.progs = (q, d, dev) :: r → d.length = 64 →
      v.flashN (slotAddr (v.slotOf q)) 64 = List.replicate 64 0xFF → ∃ w,
      exec (.flashSlotWritten 0) s = .next { s with vig := w } ∧ w.progs = r ∧ w.flashN (slotAddr (v.slotOf q)) 64 = d ∧
      tb w.ldgStat 1 = tb v.ldgStat 1 ∧ w.root = (if dev then none else v.root)) ∧
    (∀ sec n, v.erase = some (sec, n) →
      (∃ w, exec (.ledgerSectorErase true) s = .next { s with vig := w } ∧ w.erase = none ∧
        (∀ a, sec * 65536 ≤ a → a < sec * 65536 + 65536 → mGet w.flash a 0xFF = 0xFF) ∧
        (∀ a, (a < sec * 65536 ∨ sec * 65536 + 65536 ≤ a) → mGet w.flash a 0xFF = mGet v.flash a 0xFF) ∧
        mGet w.erases sec 0 = (mGet v.erases sec 0 + 1) % 2 ^ 32) ∧
      (∃ w, exec (.ledgerSectorErase false) s = .next { s with vig := w } ∧ w.flash = v.flash ∧
        w.erase = if n < 3 then some (sec, n + 1) else none)) ∧
    (∀ q m a r, v.cs = (q, m, a) :: r → a + max 1 v.csWait * 1000000000 ≤ v.clk → ∃ w,
      exec .countersignTimeout s = .next { s with vig := w } ∧ w.cs = r ∧
      w.progs = v.progs ++ [(q, List.replicate 64 0, false)] ∧ tb w.ldgStat 3 = true) ∧
    (∀ n, v.recovered = false → v.resetN = false → 256 ≤ n → n ≤ 4096 → ∃ w,
      exec (.vigilLedgerRecovery n) s = .next { s with vig := w } ∧ w.recovered = true ∧ w.sectors = n ∧ w.restart = true ∧
      w.banks = v.banks ∧
      (let u : Vig := { v with sectors := n }
       let first := u.anchor.map (fun b => fieldB b 8 8)
       let kept := u.anchor.map (fun b => fieldB b 4 4) = some v.entries
       (∀ q, u.highest first = some q → w.seq = q ∧
         (q < first.getD 0 → w.seqNext = first.getD 0 ∧ w.firstKey = true) ∧
         (first.getD 0 ≤ q → (kept ∨ v.signMode ≠ 1 → w.seqNext = q + 1) ∧ (¬ kept → v.signMode = 1 → w.seqNext = q + 2))) ∧
       (u.highest first = none → w.seqNext = first.getD Config.firstSeq ∧ w.firstKey = true) ∧
       (∀ b, u.anchor = some b → fieldB b 4 4 < v.entries → w.hostKey = none ∧ w.firstKey = true ∧
         w.dbgKeys = (if v.lc = 2 then v.dbgKeys.filter (fun e => e.1 = 0xFFFF) else []))))

/-- R399 to R406 and R414. -/
def Obligations.MirrorLinks : Prop :=
  ∀ (s : State),
    let v := s.vig
    let ch := s.chip
    let p := v.pair
    let sound := fun (o : List Byte) => fieldB o 6 2 = crc16 (o.drop 8 ++ leBytes 6 (fieldB o 0 6))
    (ch.mir.h0.hbSent + 5000 ≤ v.clk →
      (p.aliveHeld = false → ∃ w g, exec .heartbeatSend s = .next { s with vig := w, chip := g } ∧
        w.pair = { p with aliveOut := !p.aliveOut } ∧ ∀ h, h < 2 → (tGet g.mir h).hbSent = v.clk ∧
        mGet (tGet g.mir h).txq 0 [] = mGet (tGet ch.mir h).txq 0 [] ++
          (if (tGet ch.mir h).up then mirCells 0 true (ctlMsg v 1) else [])) ∧
      (p.aliveHeld = true → ∃ g, exec .heartbeatSend s = .next { s with chip := g } ∧ ∀ h, h < 2 →
        (tGet g.mir h).txq = (tGet ch.mir h).txq ∧ (tGet g.mir h).hbSent = v.clk)) ∧
    (∀ h, h < 2 →
      let l := tGet ch.mir h
      (l.up = true →
        (∀ n c r, l.resend = (n, c) :: r → ∃ g, exec (.mirrorCellSend h) s = .next { s with chip := g } ∧
          (tGet g.mir h).resend = r ∧ (tGet g.mir h).txq = l.txq ∧
          (tGet g.mir h).replays = l.replays + b2n (decide (l.replay.head?.map (·.1) = some n)) ∧ (tGet g.mir h).out = cellBytes c n l.rxSeq l.nak ∧
          sound (tGet g.mir h).out) ∧
        (∀ k c r, l.resend = [] → tGet ch.mirq h = [] → l.pick v.clk = some k → mGet l.txq k [] = c :: r →
          (c.unseq = true ∨ l.replay.length < 4096) → ∃ g, exec (.mirrorCellSend h) s = .next { s with chip := g } ∧
          mGet (tGet g.mir h).txq k [] = r ∧ sound (tGet g.mir h).out ∧
          (c.unseq = false → (tGet g.mir h).replay = l.replay ++ [(l.seqNext, c)] ∧
            (tGet g.mir h).seqNext = (l.seqNext + 1) % 65536 ∧ (tGet g.mir h).out = cellBytes c l.seqNext l.rxSeq l.nak) ∧
          (c.unseq = true → (tGet g.mir h).replay = l.replay ∧ (tGet g.mir h).seqNext = l.seqNext)) ∧
        (∀ cell, p.role ≠ 3 →
          let hd := fieldB cell 0 6
          let pay := sliceB cell 8 56
          let chn := bf hd 0 3
          let good := fieldB cell 6 2 = crc16 (pay ++ leBytes 6 hd) ∧ chn < 5
          let q := bf hd 8 16
          (¬ good → ∃ g, exec (.mirrorCellReceive h cell) s = .next { s with chip := g } ∧ (tGet g.mir h).nak = true ∧
            (tGet g.mir h).rxSeq = l.rxSeq ∧ (tGet g.mir h).inbox = l.inbox ∧ (tGet g.mir h).txq = l.txq) ∧
          (good → chn ≠ 0 → tb hd 5 = false → q = (l.rxSeq + 1) % 65536 → ∃ g,
            exec (.mirrorCellReceive h cell) s = .next { s with chip := g } ∧ (tGet g.mir h).rxSeq = q ∧
            (let m := (if tb hd 3 then [] else mGet l.rx chn []) ++ pay
             (tb hd 4 = true → (tGet g.mir h).inbox = l.inbox ++ [(chn, m)] ∧ mGet? (tGet g.mir h).rx chn = none) ∧
             (tb hd 4 = false → (tGet g.mir h).inbox = l.inbox ∧ mGet (tGet g.mir h).rx chn [] = m))) ∧
          (good → tb hd 5 = false → q ≠ (l.rxSeq + 1) % 65536 → q ≠ l.rxSeq → (q + 65536 - l.rxSeq) % 65536 < 32768 → ∃ g,
            exec (.mirrorCellReceive h cell) s = .next { s with chip := g } ∧ (tGet g.mir h).nak = true ∧
            (tGet g.mir h).rxSeq = l.rxSeq ∧ (tGet g.mir h).inbox = l.inbox)) ∧
        (l.replay ≠ [] → l.resend = [] → l.progress + 20000 ≤ v.clk → ∃ g,
          exec (.mirrorReplayTimeout h) s = .next { s with chip := g } ∧ (tGet g.mir h).resend = l.replay ∧
          (tGet g.mir h).replays = l.replays ∧ (tGet g.mir h).progress = v.clk) ∧
        ((8 ≤ l.replays ∨ ch.fld MIR_CTRL MIR_CTRL_ENABLE h ≠ 1) → ∃ w g,
          exec (.mirrorLinkDown h) s = .next { s with vig := w, chip := g } ∧ (tGet g.mir h).up = false ∧
          (tGet g.mir h).replay = l.replay ∧ (tGet g.mir h).txq = l.txq ∧ (p.role = 3 → w.pair.role = 4) ∧
          (p.role ≠ 3 → p.step = 0 → w = v))) ∧
      (l.up = false → (tGet ch.half h).inReset = false → ch.fld MIR_CTRL MIR_CTRL_ENABLE h ≠ 0 → ∃ w g,
        exec (.mirrorLinkUp h) s = .next { s with vig := w, chip := g } ∧ (tGet g.mir h).up = true ∧
        (tGet g.mir h).resend = l.replay ∧ (tGet g.mir h).replay = l.replay ∧ (tGet g.mir h).replays = 0 ∧
        (p.role < 4 → w = v))) ∧
    (∀ level,
      (p.role ≠ 3 → exec (.peerAliveEdge level) s = .next { s with vig := { v with pair := { p with ballIn := level, edgeAt := v.clk, ball := 0 } } }) ∧
      (p.role = 3 → p.failMode = 0 → p.gotYield = true → ∃ w, exec (.peerAliveEdge level) s = .next { s with vig := w } ∧
        w.pair = { p with ballIn := level, edgeAt := v.clk, ball := 0, takeDue := some 1 }) ∧
      (p.role = 3 → p.gotYield = false → ch.linkPath v = true → ∃ w, exec (.peerAliveEdge level) s = .next { s with vig := w } ∧
        w.pair = { p with ballIn := level, edgeAt := v.clk, ball := 0, failAt := none }) ∧
      (p.role = 3 → p.gotYield = false → ch.linkPath v = false → ∃ w g,
        exec (.peerAliveEdge level) s = .next { s with vig := w, chip := g } ∧ w.pair.role = 4 ∧ tb w.pair.err 0 = true ∧ g.ram = ch.ram)) ∧
    (p.edgeAt + 20000 ≤ v.clk → ch.linkPath v = false →
      (p.role = 3 → p.failMode = 0 → p.gotYield = false → ∃ w, exec .pathTimeout s = .next { s with vig := w } ∧
        w.pair.takeDue = some (if p.ballIn then 2 else 3) ∧ w.pair.role = 3) ∧
      (p.role = 1 → ∃ w g, exec .pathTimeout s = .next { s with vig := w, chip := g } ∧ w.pair.role = 2))

/-- R404 to R408, R412, R414 and R415. -/
def Obligations.PairRoles : Prop :=
  ∀ (s : State),
    let v := s.vig
    let ch := s.chip
    let p := v.pair
    (∀ r, p.takeDue = some r →
      (p.role = 3 → ∃ w g, exec .takeover s = .next { s with vig := w, chip := g } ∧ w.pair.role = 2 ∧
        w.pair.epoch = (p.epoch + 1) % 2 ^ 32 ∧ w.pair.takeDue = none ∧ w.shadow = [] ∧ ∀ h, h < 2 →
        mGet (tGet g.mir h).txq 0 [] = mGet (tGet ch.mir h).txq 0 [] ++
          (if (tGet ch.mir h).up then mirCells 0 false (ctlMsg w 3) else [])) ∧
      (p.role ≠ 3 → exec .takeover s = .next { s with vig := { v with pair := { p with takeDue := none } } })) ∧
    (∀ t, p.failAt = some t → p.role = 3 → p.failMode ≠ 0 → p.fallback ≠ 0 → t + p.fallback * 1000 ≤ v.clk →
      exec .fallbackTimeout s = .next { s with vig :=
        { v with pair := { p with takeDue := some ((v.takeRow (ch.linkPath v)).getD 3) } } }) ∧
    (∀ reason half, (p.role = 1 ∨ p.role = 2) → yieldCond reason half v ch = true →
      (p.failMode = 0 → ∃ w g, exec (.yield reason half) s = .next { s with vig := w, chip := g } ∧ w.pair.role = 5 ∧
        w.pair.aliveOut = true ∧ w.pair.aliveHeld = true ∧ w.pair.epoch = p.epoch ∧ w.pair.step = 0 ∧ ∀ h, h < 2 →
        mGet (tGet g.mir h).txq 0 [] = mGet (tGet ch.mir h).txq 0 [] ++
          (if (tGet ch.mir h).up then mirCells 0 false (ctlMsg v 2) else [])) ∧
      (p.failMode ≠ 0 → ∃ g, exec (.yield reason half) s = .next { s with chip := g } ∧ g.mir = ch.mir ∧ g.ram = ch.ram)) ∧
    (4 ≤ p.role → p.step = 0 → p.autoResync = 1 → ch.linksUp = true → ∃ w g,
      exec .resyncStart s = .next { s with vig := w, chip := g } ∧ w.pair.step = 1 ∧ w.pair.helloSent = true ∧
      w.pair.aliveHeld = false ∧ (p.role = 5 → w.pair.role = 4)) ∧
    (∀ h, h < 2 → p.role = 2 → p.peerRole = 4 →
      (∀ n, (p.step = 2 ∨ p.step = 3) → ch.log2b h = some n → (tGet ch.mir h).bucket < 2 ^ n → ch.bucketsDone (1 - h) = false → ch.copyTurn h = true → ∃ w g,
        exec (.resyncBucketCopy h) s = .next { s with vig := w, chip := g } ∧ w.pair.step = 3 ∧ g.ram = ch.ram ∧
        (tGet g.mir h).bucket = (tGet ch.mir h).bucket + 1 ∧
        (let b := (tGet ch.mir h).bucket
         mGet (tGet g.mir h).txq 1 [] = mGet (tGet ch.mir h).txq 1 [] ++
          (((List.range 4).filter (fun k => entValid (ch.ent h (4 * b + k)))).map
            (fun k => mirCells 1 false (commitMsg (4 * b + k) true (ch.ent h (4 * b + k))))).flatten)) ∧
      (p.step = 3 → ch.bucketsDone h = false → ch.copyTurn h = false → exec (.resyncBucketCopy h) s = .next s) ∧
      (p.step = 4 → ch.linesDone h = false → ch.linesDone (1 - h) = false →
        ch.record (h * 32768 + (tGet ch.mir h).curComp) = none → ∃ g, exec (.resyncBucketCopy h) s = .next { s with chip := g } ∧
        (tGet g.mir h).curComp = (tGet ch.mir h).curComp + 1 ∧ (tGet g.mir h).curBlk = 0 ∧ g.mirq = ch.mirq)) ∧
    (p.role = 2 → p.step = 5 → ch.mirDrained = true → ∃ w g, exec .resyncDone s = .next { s with vig := w, chip := g } ∧
      w.pair.step = 6 ∧ w.pair.role = 2) ∧
    (p.role = 2 → p.step = 6 → p.doneRecv = true → ∃ w g, exec .resyncDone s = .next { s with vig := w, chip := g } ∧
      w.pair.role = 1 ∧ w.pair.step = 0) ∧
    (p.role = 4 → p.doneRecv = true → ch.mir.h0.inbox = [] → ch.mir.h1.inbox = [] → ∃ w g,
      exec .resyncDone s = .next { s with vig := w, chip := g } ∧ w.pair.role = 3 ∧ w.pair.step = 0) ∧
    (p.step ≠ 0 → ch.linksUp = false →
      (p.role = 2 → ∃ w, exec .resyncAbandon s = .next { s with vig := w } ∧ w.pair.step = 0 ∧ w.pair.role = 2 ∧ tb w.pair.err 3 = true) ∧
      (p.role = 4 → ∃ w g, exec .resyncAbandon s = .next { s with vig := w, chip := g } ∧ w.pair.step = 0 ∧ w.shadow = [] ∧
        w.pair.role = if (tGet ch.half 0).inReset || (tGet ch.half 1).inReset then 5 else 4))

/-- R382, R403, R409 and R411. -/
def Obligations.MirrorContents : Prop :=
  ∀ (s : State) (h : Nat), h < 2 →
    let v := s.vig
    let ch := s.chip
    (v.mirrors = true → (tGet ch.mir h).deltaAt + 100000 ≤ v.clk → ∃ w g,
      exec (.meterDeltaSend h false) s = .next { s with vig := w, chip := g } ∧ w.banks = v.banks ∧ (tGet g.mir h).deltaAt = v.clk ∧
      (let diff := fun (t : Nat) => (List.range 16).map (fun i =>
          (((v.bill h v.parity t).getD i 0) + 2 ^ 64 - (mGet v.told ((h * 2 + v.parity) * 4096 + t) []).getD i 0) % 2 ^ 64)
       (∀ t, t < 4096 → anyCount (diff t) = true → mGet w.told ((h * 2 + v.parity) * 4096 + t) [] = v.bill h v.parity t) ∧
       mGet (tGet g.mir h).txq 2 [] = mGet (tGet ch.mir h).txq 2 [] ++ (((List.range 4096).filter (fun t => anyCount (diff t))).map
        (fun t => mirCells 2 false (deltaMsg t false (v.dt / minuteNs + 1) (diff t)))).flatten)) ∧
    (∀ x, v.mirrors = true → v.sealing = some x → tGet x.finals h = false → x.since + 1000000 ≤ v.clk → ch.incLeft h x.par = false →
      ∃ w g, exec (.meterDeltaSend h true) s = .next { s with vig := w, chip := g } ∧ w.banks = v.banks ∧
      w.sealing = some { x with finals := tSet x.finals h true }) ∧
    (∀ b c n, ch.mirTake h 1 = some (b, c) → ch.log2b h = some n → fieldB b 0 4 < 4 * 2 ^ n →
      ch.guardLine h 0x101 true (ch.entAddr h (fieldB b 0 4)) = .pass → ch.lineBad (ch.entAddr h (fieldB b 0 4)) = false →
      let a := ch.entAddr h (fieldB b 0 4)
      let e := sliceB b 8 64
      ∃ g, exec (.peerFlowCommitApply h) s = .next { s with chip := g } ∧
        g.ram.rdN a 64 = (if fieldB b 4 4 = 0 then List.replicate 64 0
          else ch.mkEnt h (e.take 40) (bfSet (entCtl e) 38 16 (ch.tick v h))) ∧
        (∀ x, x < a ∨ a + 64 ≤ x → g.ram.rd x = ch.ram.rd x)) ∧
    (∀ b c, ch.mirTake h 2 = some (b, c) → (v.pair.role = 3 ∨ v.pair.role = 4) →
      exec (.peerMeterDeltaApply h) s = .next { s with
        vig := { v with shadow := addShadowDelta v.shadow ⟨h, fieldB b 0 2 % 4096, fieldB b 8 8,
          (List.range 16).map (fun i => fieldB b (16 + 6 * i) 6)⟩ }, chip := c }) ∧
    (∀ b c, ch.mirTake h 3 = some (b, c) → ∃ w g, exec (.peerLedgerBlockApply h) s = .next { s with vig := w, chip := g } ∧
      w.blocks.getLast? = some ⟨fieldB b 8 8, fieldB b 16 8, b.take (160 + 128 * fieldB b 24 4), true, true⟩ ∧
      w.shadow = v.shadow.filter (fun x => decide (x.minute ≠ fieldB b 16 8)) ∧
      w.pair.peerMinute = max v.pair.peerMinute (fieldB b 16 8) ∧ g.ram = ch.ram) ∧
    (∀ b c, ch.mirTake h 4 = some (b, c) →
      let x := Chip.xlateFresh v c h (fieldB b 2 2) (fieldB b 0 2) (fieldB b 8 8) 2
      (∀ pa attr mir, x = .ok pa attr mir → ch.ram.region (alignDown pa 64) = .dram →
        ch.ram.colour (alignDown pa 64) = fieldB b 16 1 → ∃ g, exec (.mirrorWriter h) s = .next { s with chip := g } ∧
        g.ram.rdN (alignDown pa 64) 64 = sliceB b 48 64 ∧
        (∀ a, a < alignDown pa 64 ∨ alignDown pa 64 + 64 ≤ a → g.ram.rd a = ch.ram.rd a)) ∧
      ((∃ f leaf, x = .bad f leaf) → ∃ w g, exec (.mirrorWriter h) s = .next { s with vig := w, chip := g } ∧ g.ram = ch.ram ∧
        tb w.pair.err 2 = true ∧ g.fld MIR_MEMDROP MIR_MEMDROP_COUNT h =
          min (2 ^ MIR_MEMDROP_COUNT.w - 1) (ch.fld MIR_MEMDROP MIR_MEMDROP_COUNT h + 1)))

/-- R418 to R456. -/
def Obligations.HostQueues : Prop :=
  ∀ (s : State) (h : Nat), h < 2 →
    let v := s.vig
    let ch := s.chip
    let a := tGet ch.adrus h
    (∀ q p x, mGet? a.pairs q = some p → q < 64 →
      (x % 65536 < p.size →
        (∃ g, exec (.sqDoorbell h q x) s = .next { s with chip := g } ∧
          mGet? (tGet g.adrus h).pairs q = some { p with sqTail := x % 65536 } ∧ g.ram = ch.ram ∧ (tGet g.adrus h).cmds = a.cmds) ∧
        (∃ g r, exec (.cqDoorbell h q x) s = .next { s with chip := g } ∧ mGet? (tGet g.adrus h).pairs q = some r ∧
          r.cqHead = x % 65536 ∧ r.posted = p.posted - (x % 65536 + p.size - p.cqHead) % p.size ∧ r.err = p.err)) ∧
      (p.size ≤ x % 65536 →
        (∃ g, exec (.sqDoorbell h q x) s = .next { s with chip := g } ∧ mGet? (tGet g.adrus h).pairs q = some { p with err := true } ∧
          tb (g.reg (if q < 32 then CMD_QERR_LO else CMD_QERR_HI) h []) (q % 32) = true) ∧
        (∃ g, exec (.cqDoorbell h q x) s = .next { s with chip := g } ∧ mGet? (tGet g.adrus h).pairs q = some { p with err := true }))) ∧
    (∀ k r x, mGet? a.rings k = some r → x % 65536 < r.size → ∃ g, exec (.ringDoorbell h k x) s = .next { s with chip := g } ∧
      mGet? (tGet g.adrus h).rings k = some { r with host := x % 65536, full := r.full && decide (x % 65536 = r.host) } ∧ g.ram = ch.ram) ∧
    (∀ x, ch.cmdReady h = true →
      (tb x 0 = true → mGet? a.pairs 0 = none → ∃ g p, exec (.q0EnableWrite h x) s = .next { s with chip := g } ∧
        mGet? (tGet g.adrus h).pairs 0 = some p ∧ p.size = max 1 (bf x 1 12) + 1 ∧ p.vector = bf x 13 6 ∧ p.sqHead = 0 ∧
        p.sqTail = 0 ∧ p.cqHead = 0 ∧ p.cqTail = 0 ∧ p.phase = true ∧ p.err = false ∧ p.buf = [] ∧
        p.sq = ch.reg CMD_Q0SQ_LO h [] + ch.reg CMD_Q0SQ_HI h [] * 2 ^ 32) ∧
      (∀ p, tb x 0 = false → mGet? a.pairs 0 = some p → (∀ c ∈ a.cmds, c.src ≠ .pair 0) → ∃ g,
        exec (.q0EnableWrite h x) s = .next { s with chip := g } ∧ mGet? (tGet g.adrus h).pairs 0 = none)) ∧
    (∀ q p entry, mGet? a.pairs q = some p → q < 64 → ch.hostLink h = true → p.err = false → p.del = none → p.sqRead ≠ p.sqTail →
      (∃ g, exec (.sqReadDone h q .good entry) s = .next { s with chip := g } ∧ mGet? (tGet g.adrus h).pairs q =
        some { p with sqRead := (p.sqRead + 1) % p.size, buf := p.buf ++ [sliceB entry 0 64] }) ∧
      (∃ g, exec (.sqReadDone h q .failed entry) s = .next { s with chip := g } ∧
        mGet? (tGet g.adrus h).pairs q = some { p with err := true }) ∧
      (∃ g, exec (.sqReadDone h q .poisoned entry) s = .next { s with chip := g } ∧
        mGet? (tGet g.adrus h).pairs q = some { p with err := true } ∧ g.fld PCIE_ERR PCIE_ERR_POISONED h = 1) ∧
      (∃ g, exec (.pcieCompletionTimeout h q none) s = .next { s with chip := g } ∧
        mGet? (tGet g.adrus h).pairs q = some { p with err := true } ∧ g.fld PCIE_ERR PCIE_ERR_CPL_TIMEOUT h = 1)) ∧
    (∀ q p e r, ch.hostLink h = true → ch.fld PCIE_STAT PCIE_STAT_D3 h = 0 → a.fetched < 1024 → a.resetting h = false →
      a.pairs.filter (fun k => ch.fetchable h k.1 k.2) = [(q, p)] → mGet? a.pairs q = some p → p.buf = e :: r →
      let c : Cmd := ⟨a.next, .pair q, 0, e, v.clk, (p.sqHead + 1) % p.size, false, false, false, false, 0, none⟩
      ∃ g, exec (.commandFetch h) s = .next { s with chip := g } ∧ (tGet g.adrus h).next = a.next + 1 ∧
        mGet? (tGet g.adrus h).pairs q = some { p with sqHead := (p.sqHead + 1) % p.size, buf := r } ∧
        (c.admission v ch = 0 → (tGet g.adrus h).cmds = a.cmds ++ [c] ∧ (tGet g.adrus h).compl = a.compl) ∧
        (c.admission v ch ≠ 0 → (∀ k ∈ a.cmds, k.id ≠ a.next) → (tGet g.adrus h).cmds = a.cmds ∧
          (tGet g.adrus h).compl = a.compl ++ [c.compl (c.admission v ch) [] []])) ∧
    (∀ n c q p, a.compl[n]? = some c → c.src = .pair q → mGet? a.pairs q = some p → (∀ e ∈ a.pairs, e.2.del = none) → c.noirq = true →
      ch.fld PCIE_STAT PCIE_STAT_LINKUP h = 1 → 0 < p.size → ∃ g, exec (.completionPost h n true) s = .next { s with chip := g } ∧
      mGet? (tGet g.adrus h).pairs q = some { p with
        cqTail := (p.cqTail + 1) % p.size, posted := p.posted + 1,
        phase := if (p.cqTail + 1) % p.size = 0 then !p.phase else p.phase } ∧
      (tGet g.adrus h).compl = a.compl.eraseIdx n ∧
      ∀ i, i < 32 → mGet? (tGet g.adrus h).host (p.cq + 32 * p.cqTail + i) = some ((c.bytes q p.phase).getD i 0)) ∧
    (∀ q p, mGet? a.pairs q = some p → p.coCount ≠ 0 → p.time ≠ 0 → p.coSince + p.time * 1000 ≤ v.clk → ∃ g,
      exec (.msixCoalesceTimer h q) s = .next { s with chip := g } ∧ (mGet? (tGet g.adrus h).pairs q).map (·.coCount) = some 0 ∧
      (tb (a.msixWord (4 * p.vector + 3)) 0 = true → tb (tGet g.adrus h).pba p.vector = true ∧ (tGet g.adrus h).irqs = a.irqs) ∧
      (tb (a.msixWord (4 * p.vector + 3)) 0 = false → (tGet g.adrus h).irqs = a.irqs + 1)) ∧
    (∀ id c q, ch.cmd h id = some c → c.src = .pair q → c.op ≠ 5 → c.timedOut = false →
      c.at_ + max (max 1 (ch.fld CMD_TIMEOUT CMD_TIMEOUT_LIMIT_MS h) * 1000000) c.bound ≤ v.clk →
      (c.started = true → ∃ g, exec (.commandTimeout h id) s = .next { s with chip := g } ∧
        g.cmd h id = some { c with timedOut := true } ∧ (tGet g.adrus h).compl = a.compl ++ [c.compl 0x104 (leBytes 8 1) []]) ∧
      (c.started = false → ∃ g, exec (.commandTimeout h id) s = .next { s with chip := g } ∧ g.cmd h id = none ∧
        (tGet g.adrus h).compl = a.compl ++ [c.compl 0x104 (leBytes 8 (b2n c.fwd)) []])) ∧
    (∀ id c q, ch.cmd h id = some c → ch.hostLink h = true → ((opInfo c.op).map (·.input)).getD false = true → c.started = false →
      c.fwd = false → c.src ≠ .far → c.timedOut = false → ch.canStart v h c = true → ∃ g,
      exec (.pcieCompletionTimeout h q (some id)) s = .next { s with chip := g } ∧ g.cmd h id = none ∧
      g.fld PCIE_ERR PCIE_ERR_CPL_TIMEOUT h = 1)

/-- R8, R267, R550 and R562, on registers of each access code. -/
def Obligations.RegisterAccess : Prop :=
  ∀ (s : State) (h : Nat), h < 2 →
    let v := s.vig
    let ch := s.chip
    let at_ := fun (d : RegD) (ix : List Nat) => d.at h ix
    ((tGet ch.half h).inReset = false → ∀ x mach,
      (∃ g, exec (.registerWrite (at_ WCK_TIMEOUT []) x mach) s = .next { s with chip := g } ∧
        g.fld WCK_TIMEOUT WCK_TIMEOUT_TIMEOUT_US h = x % 1024 ∧ g.ram = ch.ram ∧ g.tasks = ch.tasks ∧ g.wick = ch.wick) ∧
      (∃ g, exec (.registerWrite (at_ WCK_ERR []) x mach) s = .next { s with chip := g } ∧ g.ram = ch.ram ∧
        ∀ i, i < 4 → tb (g.reg WCK_ERR h []) i = (tb (ch.reg WCK_ERR h []) i && !tb x i)) ∧
      (∃ g, exec (.registerWrite (at_ WCK_PKT_DROPS []) x mach) s = .next { s with chip := g } ∧ g.ram = ch.ram ∧
        g.fld WCK_PKT_DROPS WCK_PKT_DROPS_COUNT h = ch.fld WCK_PKT_DROPS WCK_PKT_DROPS_COUNT h) ∧
      (∃ g, exec (.counterReadClear (at_ WCK_STATUS [])) s = .next { s with chip := g } ∧ g.ram = ch.ram ∧
        g.fld WCK_STATUS WCK_STATUS_LATE h = 0 ∧ g.fld WCK_STATUS WCK_STATUS_REPLAYS h = 0) ∧
      (∀ c, c < 16 → ∃ g, exec (.counterReadClear (at_ SCH_IDLE [c])) s = .next { s with chip := g } ∧
        g.fld SCH_IDLE SCH_IDLE_COUNT h [c] = 0 ∧ g.ram = ch.ram) ∧
      (∃ g, exec (.counterReadClear (at_ FLW_RX_DROP [])) s = .next { s with chip := g } ∧
        g.fld FLW_RX_DROP FLW_RX_DROP_COUNT h = 0 ∧ g.ram = ch.ram) ∧
      (v.compute h = true → exec (.ethQmodeWrite h x) s = .next s) ∧
      (v.compute h = false → ∃ g, exec (.ethQmodeWrite h x) s = .next { s with chip := g } ∧
        g.reg ETH_CFG h [] = x &&& 0xFFFF0F ∧ g.ram.cells = ch.ram.cells)) ∧
    ((tGet ch.half h).inReset = true → ∀ x mach,
      exec (.registerWrite (at_ WCK_TIMEOUT []) x mach) s = .next s ∧ exec (.counterReadClear (at_ FLW_RX_DROP [])) s = .next s ∧
      exec (.ethQmodeWrite h x) s = .next s) ∧
    ((tGet ch.half h).inReset = false → ∀ x mach,
      (v.pair.role ≠ 3 → exec (.registerWrite (at_ MIR_CFGTAG []) x mach) s = .next { s with
        vig := { v with pair := { v.pair with cfgTag := x % 2 ^ 32 } } }) ∧
      exec (.registerWrite (at_ MIR_TKTYPE []) x mach) s = .next { s with
        vig := { v with pair := { v.pair with tkType := bfSet v.pair.tkType 0 16 (x % 2 ^ 16) } } }) ∧
    (exec (.counterReadClear (at_ VIG_TSTAT [])) s = .next { s with vig := { v with toderr := 0 } }) ∧
    (∀ x mach pa, regHit (paLocal pa) = none → exec (.registerWrite pa x mach) s = .next s ∧ exec (.counterReadClear pa) s = .next s)

/-- R417, R458, R460, R547, R563, R566 and R567. -/
def Obligations.HostPortsAndScan : Prop :=
  ∀ (s : State),
    let v := s.vig
    let ch := s.chip
    (∀ h, h < 2 →
      (∃ g, exec (.pcieLinkReset h) s = .next { s with chip := g } ∧ g.reg PCIE_STAT h [] = 0 ∧ (tGet g.adrus h).pairs = [] ∧
        (tGet g.adrus h).msix = [] ∧ (tGet g.adrus h).pba = 0 ∧ g.ram = ch.ram ∧ g.tasks = ch.tasks ∧ g.flow = ch.flow ∧
        g.fld CMD_STAT CMD_STAT_READY h = ch.fld CMD_STAT CMD_STAT_READY h) ∧
      (∀ speed width, v.resetN = false → ch.fld PCIE_STAT PCIE_STAT_LINKUP h = 0 → 1 ≤ speed → speed ≤ 5 →
        (width = 1 ∨ width = 2 ∨ width = 4) → ∃ g, exec (.pcieLinkUp h speed width) s = .next { s with chip := g } ∧
        g.fld PCIE_STAT PCIE_STAT_LINKUP h = 1 ∧ g.fld PCIE_STAT PCIE_STAT_SPEED h = speed ∧ g.fld PCIE_STAT PCIE_STAT_WIDTH h = width) ∧
      (∀ pa n d, ch.hostLink h = true → n ≠ 0 → pa % 64 + n ≤ 64 → pa + n ≤ 2 ^ 41 → d.length = n →
        (ch.fld PCIE_STAT PCIE_STAT_D3 h = 1 → ∀ (r : Inbound) late, (r = .read n ∨ ∃ p, r = .write d p) → ∃ g,
          exec (.pcieInboundAccess h ⟨false, pa⟩ r late) s = .next { s with chip := g } ∧ g.fld PCIE_ERR PCIE_ERR_UR_RECEIVED h = 1 ∧ g.ram = ch.ram) ∧
        (ch.fld PCIE_STAT PCIE_STAT_D3 h = 0 → ch.inboundOut h = false → ch.unreachable h [(pa, n)] = false → ch.partsBad [(pa, n)] = false →
          (ch.ram.region pa).isCsr = false → hbPort pa = none →
          (paHalf pa = h → ch.guardLine h 0x102 true pa = .pass → ∃ g,
            exec (.pcieInboundAccess h ⟨false, pa⟩ (.write d false) false) s = .next { s with chip := g } ∧
            g.ram.rdN pa n = d ∧ (∀ a, a < pa ∨ pa + n ≤ a → g.ram.rd a = ch.ram.rd a)) ∧
          (paHalf pa = h → ch.guardLine h 0x102 false pa = .pass → ∃ g,
            exec (.pcieInboundAccess h ⟨false, pa⟩ (.read n) false) s = .next { s with chip := g } ∧
            (tGet g.adrus h).inb = ch.loadBytes [⟨pa, n, false, 0⟩] ∧ g.ram = ch.ram ∧ g.tasks = ch.tasks) ∧
          (paHalf pa ≠ h → ch.guardLine h 0x102 false pa = .pass → ∀ late, ∃ g,
            exec (.pcieInboundAccess h ⟨false, pa⟩ (.read n) late) s = .next { s with chip := g } ∧ g.ram = ch.ram ∧
            (let p := tGet ch.wick h
             (tGet g.wick h).reqs = p.reqs ++ [⟨p.nextTag, 1, v.clk, 65600 + h, p.nextTag⟩] ∧
             mGet? (tGet g.adrus h).inbOut p.nextTag = some n)) ∧
          (∀ r sl c, ch.guardLine h 0x102 false pa = .violation r sl c → ∃ g,
            exec (.pcieInboundAccess h ⟨false, pa⟩ (.read n) false) s = .next { s with chip := g } ∧
            (tGet g.adrus h).inb = List.replicate n 0 ∧
            g.ram = ch.ram))) ∧
      (∀ off r late, off + inbSize r ≤ 0x1000000 → exec (.pcieInboundAccess h ⟨true, off⟩ r late) s =
        exec (.pcieInboundAccess h ⟨false, h * 2 ^ 40 + 0xC008000000 + off⟩ r late) s) ∧
      (∀ x, ch.fld PCIE_STAT PCIE_STAT_LINKUP h = 1 →
        ((x = 0 ∨ x = 3) → ∃ g, exec (.pcieConfigWrite h true x) s = .next { s with chip := g } ∧
          g.fld PCIE_STAT PCIE_STAT_D3 h = x / 3 ∧ g.fld PCIE_STAT PCIE_STAT_LINKUP h = 1) ∧
        ((x = 0 ∨ x = 1 ∨ x = 2 ∨ x = 5 ∨ x = 6) → ∃ g, exec (.pcieConfigWrite h false x) s = .next { s with chip := g } ∧
          (tGet g.adrus h).cplTo = x ∧ g.csr = ch.csr)) ∧
      (∀ p up, ch.portUp h p = true → ∃ g, exec (.portLinkChange h p up) s = .next { s with chip := g } ∧
        g.fld ETH_PSTAT ETH_PSTAT_UP h [p] = b2n up ∧ g.ram = ch.ram ∧ g.flow = ch.flow)) ∧
    (∀ x, v.i3c.addr = 0 → exec (.i3cCcc .entdaa x) s = .next { s with vig := { v with i3c := { v.i3c with addr := x % 128 } } }) ∧
    (∀ x, v.i3c.addr ≠ 0 → exec (.i3cCcc .entdaa x) s = .next s ∧
      exec (.i3cCcc .setnewda x) s = .next { s with vig := { v with i3c := { v.i3c with addr := x % 128 } } } ∧
      exec (.i3cCcc .getmwl x) s = .next { s with vig := { v with i3c := { v.i3c with sent := beBytes 2 v.i3c.mwl } } } ∧
      exec .i3cHealthRead s = .next { s with vig := { v with i3c := { v.i3c with sent := healthRecord v ch } } }) ∧
    (∀ x, exec (.i3cCcc .rstdaa x) s = .next { s with vig := { v with i3c := { v.i3c with addr := 0 } } } ∧
      exec (.i3cCcc .setmrl x) s = .next { s with vig := { v with i3c := { v.i3c with mrl := x % 65536 } } }) ∧
    (∀ b, b.length = 64 → v.i3c.addr ≠ 0 → v.i3c.busy = false → ch.half.h0.inReset = false →
      let a := ch.adrus.h0
      let c : Cmd := ⟨a.next, .i3c, 0, b, v.clk, 0, false, false, false, false, 0, none⟩
      c.admission v ch = 0 → ∃ w g, exec (.i3cCommand b) s = .next { s with vig := w, chip := g } ∧ w.i3c.busy = true ∧
        g.adrus.h0.cmds = a.cmds ++ [c] ∧ g.adrus.h0.next = a.next + 1) ∧
    (∀ x balls,
      let bypass := fun (ir : Nat) (driven floating : Bool) => exec (if ir = 0 then .bypass x else if ir = 3 then .extest balls x
        else if ir = 4 then .clamp x else .highz x) s = .next { s with vig := { v with jtag :=
          { v.jtag with ir := ir, out := 2 * x, driven := driven, floating := floating } } }
      bypass 0 false false ∧ bypass 4 v.resetN false ∧ bypass 5 false v.resetN ∧ (v.resetN = false → bypass 3 false false) ∧
      (v.resetN = true → exec (.extest balls x) s = .next { s with vig := { v with jtag := ⟨3, balls, x, true, false⟩ } }) ∧
      exec (.samplePreload balls x) s = .next { s with vig := { v with jtag := ⟨2, balls, x, false, false⟩ } } ∧
      ∃ w, exec .idcode s = .next { s with vig := w } ∧ w.jtag.ir = 1 ∧ tb w.jtag.out 0 = true ∧ bf w.jtag.out 12 16 = 0x5120 ∧
        w = { v with jtag := w.jtag })

/-- R426 to R428, and R425 for the end. -/
def Obligations.CommandStart : Prop :=
  ∀ (s : State) (h id n a b e f : Nat) (data : HostRead) (op : Nat) (row : Nat → Nat → Instr), h < 2 →
    (op, row) ∈ ([(0x0, .adrusNop), (0x1, .identify), (0x2, .createQueue), (0x3, .deleteQueue), (0x4, .getHealth), (0x5, .getEvent),
      (0x6, fun h id => .reset h id n), (0x7, .csrRead), (0x8, .csrWrite), (0x100, fun h id => .tenantCreate h id a b e f),
      (0x101, .tenantDestroy), (0x102, .tenantSet), (0x103, fun h id => .compCreate h id data a b), (0x104, .compDestroy),
      (0x105, .compPause), (0x106, .compResume), (0x107, .compRestart), (0x108, .compMove), (0x109, .compSetfront),
      (0x10A, .compSet), (0x10B, .compQuery), (0x10C, .taskcfg), (0x200, fun h id => .memAlloc h id a), (0x201, .memFree),
      (0x202, .s1Set), (0x203, .xltInval), (0x204, .revoke), (0x205, .sweep), (0x206, .adResolve), (0x207, .memRead),
      (0x208, fun h id => .memWrite h id data), (0x300, .flowInsert), (0x301, .flowDelete), (0x302, .flowQuery), (0x304, .flowFlush),
      (0x305, fun h id => .templateSet h id data), (0x306, .slotSet), (0x307, fun h id => .ruleSet h id data),
      (0x308, fun h id => .parseLoad h id data), (0x309, .kprofSet), (0x30A, .ownmapSet), (0x30B, .portSet), (0x30C, .tableConfig),
      (0x30D, .ringSet), (0x30E, fun h id => .frameInject h id data.how data.bytes n), (0x400, .cntRead), (0x401, .policerSet), (0x402, .setTime),
      (0x403, .ledgerFetch), (0x404, .hostkeySet), (0x405, fun h id => .countersign h id data), (0x406, .ledgerStatus),
      (0x407, .anchorRead), (0x500, .pairBind), (0x501, .pairUnbind), (0x502, .pairTakeover), (0x503, .pairYield), (0x504, .pairResync),
      (0x505, .pairStatus), (0x506, .pairCfgtag), (0x600, .modeSet), (0x601, .modeGet), (0x602, .scrubSet), (0x603, .clockSet),
      (0x604, .retrainGrant), (0x605, .selftestSet), (0x606, .telemetryRead), (0x700, .lcStatus), (0x702, .identityRead),
      (0x703, .dbgkeySet), (0x704, .dbgRevoke)] : List (Nat × (Nat → Nat → Instr))) →
    (s.chip.cmd h id = none → exec (row h id) s = .next s) ∧
    (∀ c, s.chip.cmd h id = some c →
      (c.op ≠ op ∨ c.fwd = true ∨ (tGet s.chip.half h).inReset = true → exec (row h id) s = .next s) ∧
      (c.op = op → c.fwd = false → c.started = false → (tGet s.chip.half h).inReset = false →
        s.chip.cmdReady h = true ∨ c.fast = true →
        (s.chip.canStart s.vig h c = false → exec (row h id) s = .next s) ∧
        (s.chip.canStart s.vig h c = true → ∀ i, opInfo op = some i →
          (s.chip.cmdFar h c i = false → exec (row h id) s =
            exec (row h id) { s with chip := s.chip.updCmd h id (fun c => { c with started := true }) }) ∧
          (s.chip.cmdFar h c i = true → s.chip.wickUp h = true → ∃ g, exec (row h id) s = .next { s with chip := g } ∧
            g.cmd h id = some { c with fwd := true } ∧ g.ram = s.chip.ram) ∧
          (s.chip.cmdFar h c i = true → s.chip.wickUp h = false → c.timedOut = false →
            exec (row h id) s = .next (Fails s h c 0x106)))))

/-- R432 to R434 and R453. -/
def Obligations.DeviceOpcodes : Prop :=
  ∀ (s : State) (h id : Nat) (c : Cmd),
    let v := s.vig
    let ch := s.chip
    let a := tGet ch.adrus h
    let done := fun (res buf : List Byte) => Ended s h c 0 res buf v ch
    (Started s h id 0x0 c → exec (.adrusNop h id) s = .next (done [] [])) ∧
    (Started s h id 0x1 c →
      (c.bufOk 4096 = true → exec (.identify h id) s = .next (done [] (identifyPage v ch h))) ∧
      (c.bufOk 4096 = false → exec (.identify h id) s = .next (Fails s h c 0x105))) ∧
    (Started s h id 0x2 c →
      let q := c.par 16 1
      let n := c.par 18 2
      let ok := 1 ≤ q ∧ q ≤ 63 ∧ 1 ≤ n ∧ n ≤ 4095 ∧ c.par 20 1 ≤ 63 ∧ c.par 24 8 % 4096 = 0 ∧ c.par 32 8 % 4096 = 0
      ((mGet? a.pairs q).isSome = true → exec (.createQueue h id) s = .next (Fails s h c 0x106)) ∧
      (mGet? a.pairs q = none → ¬ok → exec (.createQueue h id) s = .next (Fails s h c 0x105)) ∧
      (mGet? a.pairs q = none → ok → ∃ g p, exec (.createQueue h id) s = .next (Ended s h c 0 [] [] v g) ∧
        mGet? (tGet g.adrus h).pairs q = some p ∧ p.sq = c.par 24 8 ∧ p.cq = c.par 32 8 ∧ p.size = n + 1 ∧
        p.vector = c.par 20 1 ∧ p.high = tb (c.par 17 1) 0 ∧ p.sqHead = 0 ∧ p.sqTail = 0 ∧ p.cqHead = 0 ∧ p.cqTail = 0 ∧
        p.phase = true ∧ p.err = false ∧ (tGet g.adrus h).cmds = a.cmds ∧ (tGet g.adrus h).compl = a.compl)) ∧
    (Started s h id 0x3 c →
      let q := c.par 16 1
      (mGet? a.pairs q = none → exec (.deleteQueue h id) s = .next (Fails s h c 0x105)) ∧
      (∀ p, mGet? a.pairs q = some p → p.del = none → 1 ≤ q → q ≤ 63 → c.src ≠ .pair q → (∀ e ∈ a.cmds, e.src ≠ .pair q) →
        (∀ e ∈ a.pairs, e.2.del = none) → (∀ k ∈ a.compl, k.src = .pair q → k.id ≠ c.id) → ∃ g,
        exec (.deleteQueue h id) s = .next { s with chip := g } ∧ mGet? (tGet g.adrus h).pairs q = none ∧ g.cmd h id = none) ∧
      (∀ p, mGet? a.pairs q = some p → p.del = none → 1 ≤ q → q ≤ 63 → c.src = .pair q →
        (∀ e ∈ a.cmds, e.src = .pair q → e.id = c.id) → (∀ e ∈ a.pairs, e.2.del = none) → ∃ g,
        exec (.deleteQueue h id) s = .next { s with chip := g } ∧ (mGet? (tGet g.adrus h).pairs q).map (·.del) = some (some (1 + c.id)) ∧
        g.cmd h id = none ∧ (tGet g.adrus h).compl.getLast? = some (c.compl 0 [] []))) ∧
    (Started s h id 0x4 c → exec (.getHealth h id) s = .next (done (healthRecord v ch) [])) ∧
    (Started s h id 0x5 c →
      let out := (a.cmds.filter (fun k => k.op = 5 && k.started && k.id ≠ c.id)).length
      (8 ≤ out → exec (.getEvent h id) s = .next (Fails s h c 0x106)) ∧
      (out < 8 → c.bufOk 4096 = false → exec (.getEvent h id) s = .next (Fails s h c 0x105)) ∧
      (out < 8 → c.bufOk 4096 = true → tGet ch.hev h = [] → exec (.getEvent h id) s = .next s) ∧
      (∀ e r, out < 8 → c.bufOk 4096 = true → tGet ch.hev h = e :: r → tGet ch.evLost h = 0 → ∃ g,
        exec (.getEvent h id) s = .next (Ended s h c 0 (leBytes 2 e.1 ++ leBytes 2 e.2.length ++ leBytes 4 r.length) e.2 v g) ∧
        tGet g.hev h = r ∧ g.adrus = ch.adrus)) ∧
    (∀ pick, Started s h id 0x6 c →
      let k := pathCore c.target
      let u := pathClu c.target
      let me := 2 * c.id + h
      let goes := fun (g : Chip) (n : Nat) => ({ s with chip := g.updCmd h id (fun c => { c with aux := n }) } : State)
      (pathLen c.target = 4 → (ch.core k).inReset = false → (ch.core k).due = none →
        (c.aux = 0 → exec (.reset h id pick) s = .next (goes (ch.updCore k (fun x => { x with drained := true })) 1)) ∧
        (c.aux = 1 → (∀ e ∈ ch.tasks, tCore e.1 = k → e.2.bound = none ∧ e.2.ops = []) → exec (.reset h id pick) s =
          .next (goes (ch.updCore k (fun x => { x with due := some (0, v.clk) })) 2)) ∧
        (1 < c.aux → exec (.reset h id pick) s = .next (done [] []))) ∧
      (pathLen c.target = 3 → (ch.clu u).inReset = false → (ch.clu u).due = none → ch.compsOf u = [] →
        (c.aux = 0 → exec (.reset h id pick) s = .next (goes ch 1)) ∧
        (c.aux = 1 → (∀ m ∈ ch.moves, m.2.2 ≠ 1 + me) → (∀ e ∈ ch.moveEnds, e.1 ≠ me) → exec (.reset h id pick) s =
          .next (goes ({ ch with moveEnds := ch.moveEnds.filter (fun e => e.1 ≠ me) }.updClu u
            (fun x => { x with due := some (0, v.clk) })) 2)) ∧
        (1 < c.aux → exec (.reset h id pick) s = .next (done [] []))) ∧
      (pathLen c.target = 2 → pathHalf c.target = h →
        (c.aux = 0 → exec (.reset h id pick) s = .next (goes ch (v.clk + 1))) ∧
        (c.aux ≠ 0 → (∀ e ∈ a.cmds, e.id = c.id) →
          let e := Ended s h c 0 [] [] v ch
          let p := completionsPosted h (tGet e.chip.adrus h).compl.length (e.vig, e.chip)
          exec (.reset h id pick) s = .next { s with vig := p.1, chip := p.2.updHalf h (fun x => { x with due := some 3 }) })) ∧
      (pathLen c.target = 2 → pathHalf c.target ≠ h →
        (c.aux = 0 → (tGet ch.half (1 - h)).inReset = false → exec (.reset h id pick) s =
          .next (goes (ch.updHalf (1 - h) (fun x => { x with due := some 3 })) 1)) ∧
        (c.aux ≠ 0 → (tGet ch.half (1 - h)).due = none → ch.bothReady h = true →
          exec (.reset h id pick) s = .next (done [] [])))) ∧
    (Started s h id 0x7 c →
      let pa := h * 2 ^ 40 + c.par 16 8
      (csrTarget ch h (c.par 16 8) 8 = false → exec (.csrRead h id) s = .next (Fails s h c 0x105)) ∧
      (csrTarget ch h (c.par 16 8) 8 = true → (ch.csrGuard h pa false).1 = true → ∃ t,
        exec (.csrRead h id) s = .next t ∧
        endCmd h c 0 (csrRead pa 8 (v, ch)).1 (csrRead pa 8 (v, ch)).2 = (t.vig, t.chip) ∧ t.pending = s.pending) ∧
      (csrTarget ch h (c.par 16 8) 8 = true → (ch.csrGuard h pa false).1 = false → ∃ g,
        exec (.csrRead h id) s = .next (Ended s h c 0x105 [] [] v g) ∧ g.ram = ch.ram)) ∧
    (Started s h id 0x8 c →
      let pa := h * 2 ^ 40 + c.par 16 8
      let n := if tb (c.par 32 1) 0 then 4 else 8
      (csrTarget ch h (c.par 16 8) n = false → exec (.csrWrite h id) s = .next (Fails s h c 0x105)) ∧
      (csrTarget ch h (c.par 16 8) n = true → (ch.csrGuard h pa true).1 = true → ∃ t,
        exec (.csrWrite h id) s = .next t ∧
        endCmd h c 0 [] (csrWrite false pa (leBytes n (c.par 24 8)) false (v, ch)) = (t.vig, t.chip) ∧ t.pending = s.pending)) ∧
    (Started s h id 0x700 c →
      exec (.lcStatus h id) s = .next (done (leBytes 4 (v.lc % 256) ++ leBytes 4 v.entries) [])) ∧
    (Started s h id 0x702 c →
      let b := identityBody v (sliceB c.entry 16 32)
      (c.bufOk 256 = true →
        exec (.identityRead h id) s = .next (done [] (sliceB (b ++ edSign (keyBytes 0) b) 0 256))) ∧
      (c.bufOk 256 = false → exec (.identityRead h id) s = .next (Fails s h c 0x105))) ∧
    (Started s h id 0x703 c →
      let n := c.par 16 2
      (4096 ≤ n → n ≠ 0xFFFF → exec (.dbgkeySet h id) s = .next (Fails s h c 0x105)) ∧
      (n = 0xFFFF → v.lc ≠ 1 → exec (.dbgkeySet h id) s = .next (Fails s h c 0x108)) ∧
      (n < 4096 ∨ (n = 0xFFFF ∧ v.lc = 1) → exec (.dbgkeySet h id) s =
        .next (Ended s h c 0 [] [] { v with dbgKeys := mSet v.dbgKeys n (sliceB c.entry 24 32) } ch))) ∧
    (Started s h id 0x704 c →
      let n := c.par 16 2
      (4096 ≤ n → n ≠ 0xFFFF → exec (.dbgRevoke h id) s = .next (Fails s h c 0x105)) ∧
      (n < 4096 ∨ n = 0xFFFF → (v.session.map (·.scope)) ≠ some n → exec (.dbgRevoke h id) s =
        .next (Ended s h c 0 [] [] { v with dbgKeys := mDel v.dbgKeys n } ch)) ∧
      (n < 4096 ∨ n = 0xFFFF → (v.session.map (·.scope)) = some n → ∃ t, exec (.dbgRevoke h id) s = .next t ∧
        t.vig.session = none ∧ mGet? t.vig.dbgKeys n = none)) ∧
    (Started s h id 0x701 c → v.lcNext = none →
      let t := c.par 16 1
      let ok := v.lc < 4 ∧ (t = v.lc + 1 ∨ t = 4) ∧ c.par 20 4 = 0x4C430000 + t
      (¬ok → exec (.lcAdvance h id) s = .next (Fails s h c 0x105)) ∧
      (ok → v.sealBusy = true → ∃ r, exec (.lcAdvance h id) s = .next r ∧ r.vig.lcNext = some t ∧ r.vig.lc = v.lc ∧
        r.chip.cmd h id = none) ∧
      (ok → v.sealBusy = false → ∃ r, exec (.lcAdvance h id) s = .next r ∧ r.vig.lcNext = some t ∧ r.vig.lc = v.lc ∧
        r.vig.session = none ∧ r.chip.lcHeld = true)) ∧
    (∀ t, v.lcNext = some t →
      (v.sealBusy = true → exec (.lcAdvance h id) s = .next s) ∧
      (v.sealBusy = false → ch.lcHeld = false ∨ v.session ≠ none → ∃ r, exec (.lcAdvance h id) s = .next r ∧ r.vig.lc = v.lc ∧
        r.vig.entries = v.entries ∧ r.vig.lcNext = some t ∧ r.vig.session = none ∧ r.chip.lcHeld = true) ∧
      (v.sealBusy = false → ch.lcHeld = true → v.session = none →
        (v.lc ≠ t → exec (.lcAdvance h id) s = .next { s with vig := { v with lc := t, entries := v.entries + 1 } }) ∧
        (v.lc = t → ∃ w g, exec (.lcAdvance h id) s = .next { s with vig := w, chip := g } ∧ w.lc = t ∧ w.entries = v.entries ∧
          w.lcNext = none ∧ w.hostKey = none ∧ w.dbgKeys = (if t = 2 then v.dbgKeys.filter (fun e => e.1 = 0xFFFF) else []) ∧
          w.restart = true ∧ w.firstKey = true ∧ w.pair.role = 0 ∧ w.pair.pos = 0 ∧ g.half.h0.inReset = true ∧
          g.half.h1.inReset = true ∧ g.half.h0.held = false ∧ g.half.h1.held = false ∧ g.ram = ch.ram)))

/-- R436 to R439. -/
def Obligations.CompartmentOpcodes : Prop :=
  ∀ (s : State) (h id : Nat) (c : Cmd),
    let v := s.vig
    let ch := s.chip
    let ok := fun (res : List Byte) (g : Chip) => Ended s h c 0 res [] v g
    let t := c.par 16 2
    (∀ rvBase rvLen rb0 rb1, Started s h id 0x100 c →
      let rb := if h = 0 then rb0 else rb1
      let bad := rvBase % 4096 ≠ 0 ∨ rvLen % 4096 ≠ 0 ∨ rb % 64 ≠ 0 ∨ ch.inDram h rb (rvLen / 128) = false
      let free := ch.bothReady h = true ∧ ch.tenantOk h t = false
      let par := t < 4096 ∧ rootOk (c.par 24 8) = true ∧ rootOk (c.par 32 8) = true
      let extra := leBytes 8 rvBase ++ leBytes 8 rvLen ++ leBytes 8 rb
      let run := exec (.tenantCreate h id rvBase rvLen rb0 rb1) s
      (c.aux = 0 → ¬free → run = .next (Fails s h c 0x106)) ∧
      (c.aux = 0 → free → ¬par → run = .next (Fails s h c 0x105)) ∧
      (c.aux = 0 → free → par → bad → run = .next (Fails s h c 0x107)) ∧
      (c.aux = 0 → free → par → ¬bad →
        run = .next (HalfDone s h c extra v (ch.updCmd h id (fun c => { c with entry := c.entry ++ extra })))) ∧
      (c.aux ≠ 0 → par →
        ((c.part = none ∨ c.part = some none) → run = .next s) ∧
        (∀ st r, c.part = some (some (st, r)) → st ≠ 0 → run = .next (Fails s h c st)) ∧
        (∀ r, c.part = some (some (0, r)) →
          let a := c.par 80 8
          let d := leBytes 8 (1 + bf (c.par 19 1) 0 1 * 2 + bf (c.root h) 12 29 * 2 ^ 12) ++ leBytes 16 0 ++ leBytes 8 (c.par 64 8) ++
            leBytes 8 (c.par 72 8) ++ leBytes 8 a ++ leBytes 16 0 ++ leBytes 8 (c.par 18 1) ++ leBytes 56 0
          run = .next (ok [] (((ch.paint (h * 2 ^ 40 + a) (alignUp (c.par 72 8 / 128) 64) 1).fwWrite (ch.tenantAddr h t) d).tenantFlush h t))))) ∧
    (Started s h id 0x101 c →
      (c.aux = 0 → ch.bothReady h = false → exec (.tenantDestroy h id) s = .next (Fails s h c 0x106)) ∧
      (c.aux = 0 → ch.bothReady h = true → ch.tenantOk h t = false → exec (.tenantDestroy h id) s = .next (Fails s h c 0x105)) ∧
      (c.aux = 0 → ch.bothReady h = true → ch.tenantOk h t = true → ch.tenantUsed h t = true →
        exec (.tenantDestroy h id) s = .next (Fails s h c 0x112)) ∧
      (c.aux = 0 → ch.bothReady h = true → ch.tenantOk h t = true → ch.tenantUsed h t = false →
        exec (.tenantDestroy h id) s = .next (HalfDone s h c [] v ch)) ∧
      (c.aux ≠ 0 → (Chip.tenantQuiet h t ch = false ∨ c.part = none ∨ c.part = some none → exec (.tenantDestroy h id) s = .next s) ∧
        (∀ st r, Chip.tenantQuiet h t ch = true → c.part = some (some (st, r)) → exec (.tenantDestroy h id) s =
          .next (if st = 0 then ok [] ((ch.fwWrite (ch.tenantAddr h t) (leBytes 128 0)).tenantFlush h t) else Fails s h c st)))) ∧
    (Started s h id 0x102 c →
      let what := c.par 20 1
      let bad := ch.tenantOk h t = false ∨ (tb what 1 = true ∧ (rootOk (c.par 24 8) = false ∨ rootOk (c.par 32 8) = false))
      let a := ch.tenantAddr h t
      let weighed := if tb what 0 = true then ch.fwWrite (a + 64) (leBytes 1 (c.par 18 1)) else ch
      (c.aux = 0 → ch.bothReady h = false → exec (.tenantSet h id) s = .next (Fails s h c 0x106)) ∧
      (c.aux = 0 → ch.bothReady h = true → bad → exec (.tenantSet h id) s = .next (Fails s h c 0x105)) ∧
      (c.aux = 0 → ch.bothReady h = true → ¬bad → exec (.tenantSet h id) s = .next (HalfDone s h c [] v (if tb what 1 = true then
        weighed.fwWrite a (leBytes 8 (1 + bf (c.par 19 1) 0 1 * 2 + bf (c.root h) 12 29 * 2 ^ 12)) else weighed))) ∧
      (c.aux ≠ 0 →
        (((tb what 1 = true ∧ Chip.tenantQuiet h t ch = false) ∨ c.part = none ∨ c.part = some none) → exec (.tenantSet h id) s = .next s) ∧
        (∀ st r, (tb what 1 = false ∨ Chip.tenantQuiet h t ch = true) → c.part = some (some (st, r)) → exec (.tenantSet h id) s =
          .next (if st = 0 then ok [] (if tb what 1 = true then ch.tenantFlush h t else ch) else Fails s h c st)))) ∧
    (∀ (data : HostRead) rsc save, Started s h id 0x103 c →
      let bad := c.bufOk 128 = false ∨ (ch.record c.target).isSome = true
      let run := exec (.compCreate h id data rsc save) s
      (bad → run = .next (Fails s h c 0x105)) ∧
      (¬bad → data.how = .failed → run = .next (Fails s h c 0x10A)) ∧
      (¬bad → data.how = .poisoned → run = .next (Ended s h c 0x10A [] [] v (ch.flag PCIE_ERR PCIE_ERR_POISONED h))) ∧
      (¬bad → data.how = .good →
        let b := sliceB data.bytes 0 128
        let good := cbFieldsOk b = true ∧ ch.tenantOk h (fieldB b 4 2) = true ∧ ch.parentOk c.target b = true ∧
          Chip.cbCapsOk v ch c.target b = true
        (¬good → run = .next (Fails s h c 0x105)) ∧
        (good → 8 < ch.newDepth b → run = .next (Fails s h c 0x111)) ∧
        (good → ch.newDepth b ≤ 8 → ch.makeComp c.target b rsc save (ch.newDepth b) = none → run = .next (Fails s h c 0x107)) ∧
        (∀ g, good → ch.newDepth b ≤ 8 → ch.makeComp c.target b rsc save (ch.newDepth b) = some g → run = .next (ok [] g)))) ∧
    (∀ k b, k < 2 →
      let fit := fun (i : Nat) => i < 16 ∧ ch.fits (k * 16 + i) (fieldB b 7 1) (fieldB b 8 1) = true
      (fit (fieldB b 10 1) → ch.newCluster k b = some (k * 16 + fieldB b 10 1)) ∧
      (∀ x, ch.newCluster k b = some x → ¬fit (fieldB b 10 1) → ∃ i, x = k * 16 + i ∧ fit i ∧
        ∀ j, fit j → mGet ch.loads x 0 ≤ mGet ch.loads (k * 16 + j) 0) ∧
      (ch.newCluster k b = none ↔ ∀ i, ¬fit i)) ∧
    (Started s h id 0x104 c →
      (ch.record c.target = none → exec (.compDestroy h id) s = .next (Fails s h c 0x105)) ∧
      (ch.record c.target ≠ none →
        let ids := ch.subtree c.target
        let gone := fun (g : Chip) => ids.reverse.foldl (fun ch i => ch.destroyOne i) g
        ((∃ i ∈ ids, ch.boundTo i ≠ none) →
          (c.aux = 0 → exec (.compDestroy h id) s = .next { s with chip := (ch.pauseAll ids).updCmd h id (fun c => { c with aux := 1 }) }) ∧
          (c.aux ≠ 0 → exec (.compDestroy h id) s = .next s)) ∧
        ((∀ i ∈ ids, ch.boundTo i = none) →
          (c.aux = 0 → exec (.compDestroy h id) s = .next (ok [] (gone ((ch.pauseAll ids).updCmd h id (fun c => { c with aux := 1 }))))) ∧
          (c.aux ≠ 0 → exec (.compDestroy h id) s = .next (ok [] (gone ch)))))) ∧
    (Started s h id 0x105 c →
      (c.tgtComp = true → ch.record c.target = none → exec (.compPause h id) s = .next (Fails s h c 0x105)) ∧
      (c.tgtComp = true → c.aux = 0 → ch.record c.target ≠ none → (∀ e ∈ ch.tasks, e.2.bound = none) → ∃ g,
        exec (.compPause h id) s = .next (ok (leBytes 4 (ch.subtree c.target).length) g) ∧ g.tasks = ch.tasks ∧
        ∀ i, (∀ e ∈ (g.clu i).pend, e ∈ (ch.clu i).pend)) ∧
      (∀ e r, c.aux = 0 → e ∈ ch.tasks → e.2.bound = some c.target → c.tgtComp = true → ch.record c.target = some r →
        r.flag fPaused = true → ch.subtree c.target = [c.target] → (ch.setFlag c.target fPaused true).ram = ch.ram → ∃ g,
        exec (.compPause h id) s = .next { s with chip := g } ∧ (g.cmd h id).map (·.aux) = some 2) ∧
      (c.wide = true → c.aux = 0 →
        (ch.bothReady h = false → exec (.compPause h id) s = .next (Fails s h c 0x106)) ∧
        (ch.bothReady h = true → ∃ g, exec (.compPause h id) s = .next { s with chip := g } ∧
          (g.cmd h id).map (fun c => (c.aux, c.part)) = some (1 + (ch.namedComps v h c).length, some none))) ∧
      (∀ st r, c.wide = true → c.aux ≠ 0 → c.part = some (some (st, r)) → (∀ e ∈ ch.tasks, e.2.bound = none) →
        exec (.compPause h id) s = .next (ok (leBytes 4 (c.aux - 1 + fieldB r 0 4)) ch))) ∧
    (Started s h id 0x106 c →
      (c.tgtComp = true → ch.record c.target = none → exec (.compResume h id) s = .next (Fails s h c 0x105)) ∧
      (¬(c.tgtComp = true ∧ ch.record c.target = none) → c.aux = 0 →
        let n := (ch.namedComps v h c).length
        let g := (ch.namedComps v h c).foldl (fun ch i => (ch.setFlag i fPaused false).repend i) ch
        (c.wide = false → exec (.compResume h id) s = .next (ok (leBytes 4 n) g)) ∧
        (c.wide = true → ch.bothReady h = false → exec (.compResume h id) s = .next (Fails s h c 0x106)) ∧
        (c.wide = true → ch.bothReady h = true → exec (.compResume h id) s = .next { s with
          chip := (g.updCmd h id (fun c => { c with aux := 1 + n })).sendPart v h c (c.farEntry h) })) ∧
      (∀ st r, c.wide = true → c.aux ≠ 0 → c.part = some (some (st, r)) →
        exec (.compResume h id) s = .next (ok (leBytes 4 (c.aux - 1 + fieldB r 0 4)) ch))) ∧
    (Started s h id 0x107 c →
      (ch.record c.target = none → exec (.compRestart h id) s = .next (Fails s h c 0x105)) ∧
      (ch.record c.target ≠ none → (∃ i ∈ ch.subtree c.target, ch.boundTo i ≠ none) →
        exec (.compRestart h id) s = .next (Fails s h c 0x106)) ∧
      (ch.record c.target ≠ none → (∀ i ∈ ch.subtree c.target, ch.boundTo i = none) → exec (.compRestart h id) s =
        .next (ok [] ((ch.subtree c.target).foldl (fun ch i =>
          (((ch.setFlag i fExtinguished false).setFlag i fSaved false).setFlag i fVsaved false).repend i) ch)))) ∧
    (Started s h id 0x108 c →
      let d := c.par 16 1
      let me := 2 * c.id + h
      (ch.record c.target = none → exec (.compMove h id) s = .next (Fails s h c 0x105)) ∧
      (∀ r, ch.record c.target = some r → c.aux = 0 →
        let own := ch.fld SCH_BAL SCH_BAL_MODE h = 0 ∧ r.flag fPinned = false
        (own → exec (.compMove h id) s = .next (Fails s h c 0x106)) ∧
        (¬own → 15 < d → exec (.compMove h id) s = .next (Fails s h c 0x105)) ∧
        (¬own → d ≤ 15 → ch.movers c.target = [] → exec (.compMove h id) s = .next (ok [] ch)) ∧
        (¬own → d ≤ 15 → ch.movers c.target ≠ [] → exec (.compMove h id) s = .next { s with
          chip := ((ch.movers c.target).foldl (fun g i => g.startMove i (h * 16 + d) (1 + me)) ch).updCmd h id (fun c => { c with aux := 1 }) })) ∧
      (ch.record c.target ≠ none → c.aux ≠ 0 →
        ((∃ m ∈ ch.moves, m.2.2 = 1 + me) → exec (.compMove h id) s = .next s) ∧
        ((∀ m ∈ ch.moves, m.2.2 ≠ 1 + me) → exec (.compMove h id) s =
          .next (Ended s h c (if (me, 0) ∈ ch.moveEnds then 0x113 else 0) [] [] v
            { ch with moveEnds := ch.moveEnds.filter (fun e => e.1 ≠ me) })))) ∧
    (Started s h id 0x109 c →
      let f := c.par 16 2
      let good := fun (r m : CompRec) => r.flag fCompound = true ∧ m.flag fHasParent = true ∧ m.parent = c.target
      (ch.record c.target = none ∨ ch.record f = none → exec (.compSetfront h id) s = .next (Fails s h c 0x105)) ∧
      (∀ r m, ch.record c.target = some r → ch.record f = some m →
        (¬good r m → exec (.compSetfront h id) s = .next (Fails s h c 0x105)) ∧
        (good r m → exec (.compSetfront h id) s =
          .next (ok [] ((ch.setRec c.target 102 2 f).copyGate 9 c.target m.gate))))) ∧
    (Started s h id 0x10A c →
      let b := c.par 16 4
      let what := c.par 21 1
      (ch.record c.target = none → exec (.compSet h id) s = .next (Fails s h c 0x105)) ∧
      (∀ r, ch.record c.target = some r →
        let ids := ch.subtree c.target
        let cap := if r.flag fHasParent = true then ((ch.record r.parent).map (·.budget)).getD 0 else 2 ^ 32
        let bad := tb what 0 = true ∧ (((∃ i ∈ ids, (ch.record i).map (·.priv) = some 0) ∧ b < 64) ∨ cap < b)
        let one := fun (ch : Chip) (i : Nat) =>
          let g := if tb what 0 = true then ch.setRec i 116 4 b else ch
          if tb what 1 = true then g.setFlag i fPinned (tb (c.par 20 1) 0) else g
        (bad → exec (.compSet h id) s = .next (Fails s h c 0x105)) ∧
        (¬bad → exec (.compSet h id) s = .next (ok [] (ids.foldl one ch))))) ∧
    (Started s h id 0x10B c →
      (ch.record c.target = none → exec (.compQuery h id) s = .next (Fails s h c 0x105)) ∧
      (∀ r, ch.record c.target = some r →
        let b := leBytes 4 r.flags ++ leBytes 1 r.cluster ++ leBytes 2 (ch.queued r).length
        (ch.boundTo c.target = none → exec (.compQuery h id) s = .next (ok b ch)) ∧
        (∀ x, ch.boundTo c.target = some x →
          exec (.compQuery h id) s = .next (ok (b ++ [1] ++ leBytes 2 (Chip.taskPath v ch x)) ch)))) ∧
    (Started s h id 0x10C c →
      (3 < c.par 16 1 → exec (.taskcfg h id) s = .next (Fails s h c 0x105)) ∧
      (c.par 16 1 ≤ 3 → ∃ g, exec (.taskcfg h id) s = .next (ok [] g) ∧
        bf (g.reg HALF_TASKCFG h []) (2 * (pathClu c.target % 16)) 2 = c.par 16 1 ∧ g.ram = ch.ram ∧ g.clusters = ch.clusters))

/-- R440 to R442. -/
def Obligations.MemoryOpcodes : Prop :=
  ∀ (s : State) (h id : Nat) (c : Cmd),
    let v := s.vig
    let ch := s.chip
    let ok := fun (res : List Byte) (g : Chip) => Ended s h c 0 res [] v g
    let t := c.par 16 2
    (∀ addr, Started s h id 0x200 c →
      let k := c.par 18 1
      let al := c.par 19 1
      let n := c.par 20 4
      let pa := h * 2 ^ 40 + addr
      let who := (t = 0xFFFF ∧ k = 2) ∨ (t ≠ 0xFFFF ∧ ch.tenantOk h t = true ∧ 5 ≤ k ∧ k ≤ 15)
      let par := who ∧ 12 ≤ al ∧ al ≤ 30 ∧ n ≠ 0
      let free := addr % 2 ^ al = 0 ∧ ch.inDram h addr (n * 4096) = true ∧ ∀ a ∈ lineList pa (n * 4096), ch.ram.colour a = 0
      (¬par → exec (.memAlloc h id addr) s = .next (Fails s h c 0x105)) ∧
      (par → ¬free → exec (.memAlloc h id addr) s = .next (Fails s h c 0x107)) ∧
      (par → free → t ≠ 0xFFFF → exec (.memAlloc h id addr) s = .next (ok (leBytes 8 addr)
        (((ch.paint pa (n * 4096) k).memPages h t true n).setOwner h (addr / 4096) n (2 ^ 15 + t)))) ∧
      (par → free → t = 0xFFFF → exec (.memAlloc h id addr) s = .next (ok (leBytes 8 addr) (ch.paint pa (n * 4096) k)))) ∧
    (Started s h id 0x201 c →
      let n := c.par 20 4
      let addr := c.par 24 8
      let pa := h * 2 ^ 40 + addr
      let par := n ≠ 0 ∧ addr % 4096 = 0 ∧ ch.inDram h addr (n * 4096) = true ∧ ch.pagesOf h t addr n = true
      (c.aux ≠ 1 → ch.s1Reaches h pa (n * 4096) = true → exec (.memFree h id) s = .next (Fails s h c 0x106)) ∧
      (c.aux ≠ 1 → ch.s1Reaches h pa (n * 4096) = false → ¬par → exec (.memFree h id) s = .next (Fails s h c 0x105)) ∧
      (c.aux ≠ 1 → ch.s1Reaches h pa (n * 4096) = false → par → t ≠ 0xFFFF → exec (.memFree h id) s = .next { s with
        chip := (((ch.paint pa (n * 4096) 0).memPages h t false n).setOwner h (addr / 4096) n 0).updCmd h id (fun c => { c with aux := 1 }) }) ∧
      (c.aux ≠ 1 → ch.s1Reaches h pa (n * 4096) = false → par → t = 0xFFFF →
        exec (.memFree h id) s = .next (ok [] (ch.paint pa (n * 4096) 0))) ∧
      (c.aux = 1 → Chip.tenantQuiet h t ch = true → exec (.memFree h id) s = .next (ok [] (ch.tlbiTag h t))) ∧
      (c.aux = 1 → Chip.tenantQuiet h t ch = false → exec (.memFree h id) s = .next s)) ∧
    (Started s h id 0x202 c →
      let i := c.par 16 1
      let img := sliceB c.entry 24 32
      let bad := fun (full : Bool) (who : Option Nat) => ∃ b, blkOf (sliceB img 0 256) full 0 = some b ∧ full = false ∧ ch.outputOk who b = false
      let big := fun (r : CompRec) => tb (ch.tenantFld h r.tenant 0 8) 1
      let all := (ch.subtree c.target).foldl (fun ch x => ch.fwWrite (ch.s1Addr x + 32 * i) img) ch
      (c.aux = 0 → 7 < i → exec (.s1Set h id) s = .next (Fails s h c 0x105)) ∧
      (c.aux = 0 → ch.record c.target = none → bad false none → exec (.s1Set h id) s = .next (Fails s h c 0x105)) ∧
      (∀ r, c.aux = 0 → ch.record c.target = some r → bad (big r) (some r.tenant) → exec (.s1Set h id) s = .next (Fails s h c 0x105)) ∧
      (c.aux = 0 → i ≤ 7 → (ch.record c.target = none ∧ ¬bad false none ∨
          ∃ r, ch.record c.target = some r ∧ ¬bad (big r) (some r.tenant)) →
        exec (.s1Set h id) s = .next { s with chip := all.updCmd h id (fun c => { c with aux := 1 }) }) ∧
      (c.aux ≠ 0 → ch.record c.target = none → exec (.s1Set h id) s = .next (ok [] ch)) ∧
      (∀ r, c.aux ≠ 0 → ch.record c.target = some r → exec (.s1Set h id) s =
        .next (if Chip.tenantQuiet h r.tenant ch then ok [] (ch.tlbiTag h r.tenant) else s))) ∧
    (Started s h id 0x203 c →
      let kind := c.par 18 1
      let w := c.par 19 1
      let one := fun (ch : Chip) => if kind = 0 then ch.tlbiVa h t (c.par 24 8) else if kind = 1 then ch.tlbiTag h t else ch.tlbiAll h
      let used := ch.usesTlb h (fun x => kind = 2 || x = t)
      (c.aux = 0 → ch.bothReady h = false → exec (.xltInval h id) s = .next (Fails s h c 0x106)) ∧
      (ch.bothReady h = true → 4096 ≤ t ∨ 2 < kind → exec (.xltInval h id) s = .next (Fails s h c 0x105)) ∧
      (t < 4096 → kind ≤ 2 →
        (c.aux = 0 → ch.bothReady h = true → exec (.xltInval h id) s = .next (HalfDone s h c [] v ch)) ∧
        (c.aux ≠ 0 → used = true ∨ c.part = none ∨ c.part = some none → exec (.xltInval h id) s = .next s) ∧
        (∀ st r, c.aux ≠ 0 → used = false → c.part = some (some (st, r)) →
          (st ≠ 0 → exec (.xltInval h id) s = .next (Fails s h c st)) ∧
          (st = 0 → tb w 0 = false → tb w 1 = false → exec (.xltInval h id) s = .next (ok [] (one ch))) ∧
          (st = 0 → tb w 0 = true → tb w 1 = false → exec (.xltInval h id) s = .next (ok [] (one (ch.wci h)))) ∧
          (st = 0 → tb w 0 = false → tb w 1 = true → exec (.xltInval h id) s = .next (ok [] (one (ch.wciIpa h (c.par 32 8)))))))) ∧
    (Started s h id 0x204 c →
      let base := c.par 24 8
      let n := c.par 32 8
      let lo := ch.tenantFld h t 24 8
      let par := ch.tenantOk h t = true ∧ base % 16 = 0 ∧ n % 16 = 0 ∧ lo ≤ base ∧ base + n ≤ lo + ch.tenantFld h t 32 8
      (c.aux = 0 → ch.bothReady h = false → exec (.revoke h id) s = .next (Fails s h c 0x106)) ∧
      (ch.bothReady h = true → ¬par → exec (.revoke h id) s = .next (Fails s h c 0x105)) ∧
      (c.aux = 0 → ch.bothReady h = true → par → exec (.revoke h id) s = .next (HalfDone s h c [] v (ch.revokeOn v h t base n))) ∧
      (c.aux ≠ 0 → par → c.part = none ∨ c.part = some none → exec (.revoke h id) s = .next s) ∧
      (∀ st r, c.aux ≠ 0 → par → c.part = some (some (st, r)) → exec (.revoke h id) s = .next (Ended s h c st [] [] v ch))) ∧
    (Started s h id 0x205 c →
      let g := (ch.sweepEnqueue t).sweepNext
      (c.aux = 1 → t ∈ ch.sweepQ → exec (.sweep h id) s = .next s) ∧
      (c.aux = 1 → t ∉ ch.sweepQ → exec (.sweep h id) s = .next (ok [] ch)) ∧
      (c.aux ≠ 1 → ch.sweepPending t = true → exec (.sweep h id) s = .next (Fails s h c 0x106)) ∧
      (c.aux ≠ 1 → ch.sweepPending t = false → ch.tenantOk h t = false → exec (.sweep h id) s = .next (Fails s h c 0x105)) ∧
      (c.aux ≠ 1 → ch.sweepPending t = false → ch.tenantOk h t = true → t ∈ g.sweepQ →
        exec (.sweep h id) s = .next { s with chip := g.updCmd h id (fun c => { c with aux := 1 }) }) ∧
      (c.aux ≠ 1 → ch.sweepPending t = false → ch.tenantOk h t = true → ch.sweepQ = [] → ch.sweepFree = true → ∃ g,
        exec (.sweep h id) s = .next (ok [] g) ∧ g.sweep = some ⟨t, ⟨0, false, false⟩, ⟨0, false, false⟩⟩ ∧ g.sweepQ = [])) ∧
    (Started s h id 0x206 c →
      let kind := c.par 16 1
      let x := c.par 18 2
      (kind = 0 → (∃ r ∈ tGet ch.adq h, r.id = x) → exec (.adResolve h id) s = .next (ok [] (ch.adAck h x))) ∧
      (kind = 0 → (∀ r ∈ tGet ch.adq h, r.id ≠ x) → exec (.adResolve h id) s = .next (Fails s h c 0x105)) ∧
      (∀ r, kind = 1 → compHalf x = h → ch.record x = some r → r.flag fPaused = true →
        exec (.adResolve h id) s = .next (ok [] ((ch.setFlag x fPaused false).repend x))) ∧
      (kind ≠ 0 → kind ≠ 1 ∨ compHalf x ≠ h ∨ ch.record x = none → exec (.adResolve h id) s = .next (Fails s h c 0x105))) ∧
    (∀ data : HostRead, Started s h id 0x207 c ∨ Started s h id 0x208 c →
      let a := c.par 24 8
      let pa := h * 2 ^ 40 + a
      let l := lineList pa c.dlen
      let form := c.bufOk 64 = true ∧ c.dlen % 64 = 0 ∧ c.dlen ≤ 4096 ∧ a % 64 = 0 ∧ a < 2 ^ 40 ∧ ∀ x ∈ l, ch.memLine x = true
      let good := form ∧ (v.lc = 3 → ∀ x ∈ l, ch.ram.colour x = 2) ∧ ∀ x ∈ l, ch.lineBad x = false
      (c.op = 0x207 →
        (v.lc ≠ 3 → ¬form → exec (.memRead h id) s = .next (Fails s h c 0x105)) ∧
        (form → v.lc = 3 → (∃ x ∈ l, ch.ram.colour x ≠ 2) → exec (.memRead h id) s = .next (Fails s h c 0x108)) ∧
        (form → v.lc ≠ 3 → (∃ x ∈ l, ch.lineBad x = true) → exec (.memRead h id) s = .next (Fails s h c 0x10A)) ∧
        (good → exec (.memRead h id) s =
          .next (Ended s h c 0 [] (ch.loadBytes [⟨pa, c.dlen, false, 0⟩]) v ch))) ∧
      (c.op = 0x208 →
        let dark := ∃ x ∈ l, ch.ram.colour x = 0
        (v.lc ≠ 3 → ¬form ∨ dark → exec (.memWrite h id data) s = .next (Fails s h c 0x105)) ∧
        (form → v.lc = 3 → (∃ x ∈ l, ch.ram.colour x ≠ 2) → exec (.memWrite h id data) s = .next (Fails s h c 0x108)) ∧
        (form → v.lc ≠ 3 → ¬dark → (∃ x ∈ l, ch.lineBad x = true) → exec (.memWrite h id data) s = .next (Fails s h c 0x10A)) ∧
        (good → ¬dark → data.how = .failed → exec (.memWrite h id data) s = .next (Fails s h c 0x10A)) ∧
        (good → ¬dark → data.how = .poisoned → exec (.memWrite h id data) s =
          .next (Ended s h c 0x10A [] [] v (ch.flag PCIE_ERR PCIE_ERR_POISONED h))) ∧
        (good → ¬dark → data.how = .good → (∀ x ∈ l, hbPort x = none) →
          exec (.memWrite h id data) s = .next (ok [] { ch with
            ram := l.foldl (fun m x => m.write x (sliceB (sliceB data.bytes 0 c.dlen) (x - pa) 64)) ch.ram }))))

/-- R443 to R446. -/
def Obligations.FlowOpcodes : Prop :=
  ∀ (s : State) (h id : Nat) (c : Cmd),
    let v := s.vig
    let ch := s.chip
    let fl := tGet ch.flow h
    let ok := fun (res : List Byte) (g : Chip) => Ended s h c 0 res [] v g
    let key := sliceB c.entry 16 40
    let ctl := c.par 56 8
    let kl := bf ctl 5 6
    let keyOk := kl ≤ 40 ∧ ∀ i, kl ≤ i → i < 40 → key.getD i 0 = 0
    let waits := fun (kind : Nat) => ({ s with chip :=
      (ch.updFlow h (fun f => { f with hostq := f.hostq ++ [⟨kind, key, ctl, c.replace, some c.id⟩] })).updCmd h id (fun c => { c with aux := 1 }) } : State)
    (Started s h id 0x300 c →
      (v.forwards = false → exec (.flowInsert h id) s = .next (Fails s h c 0x106)) ∧
      (v.forwards = true → ¬(keyOk ∧ tb ctl 0 = true) → exec (.flowInsert h id) s = .next (Fails s h c 0x105)) ∧
      (v.forwards = true → keyOk → tb ctl 0 = true → c.aux ≠ 1 → exec (.flowInsert h id) s = .next (waits 0)) ∧
      (v.forwards = true → keyOk → tb ctl 0 = true → c.aux = 1 → exec (.flowInsert h id) s = .next s)) ∧
    (Started s h id 0x301 c →
      (v.forwards = false → exec (.flowDelete h id) s = .next (Fails s h c 0x106)) ∧
      (v.forwards = true → ¬keyOk → exec (.flowDelete h id) s = .next (Fails s h c 0x105)) ∧
      (v.forwards = true → keyOk → c.aux ≠ 1 → exec (.flowDelete h id) s = .next (waits 1))) ∧
    (Started s h id 0x302 c →
      (¬keyOk → exec (.flowQuery h id) s = .next (Fails s h c 0x105)) ∧
      (keyOk → c.aux ≠ 1 → exec (.flowQuery h id) s = .next (waits 2))) ∧
    (Started s h id 0x304 c →
      let t := c.par 16 2
      (c.aux ≠ 1 → 4096 ≤ t → t ≠ 0xFFFF → exec (.flowFlush h id) s = .next (Fails s h c 0x105)) ∧
      (c.aux ≠ 1 → t < 4096 ∨ t = 0xFFFF → exec (.flowFlush h id) s = .next { s with
        chip := (ch.updFlow h (fun f => { f with hostq := f.hostq ++ [⟨3, [], t, tb (c.par 18 1) 0, some c.id⟩] })).updCmd h id
          (fun c => { c with aux := 1 }) }) ∧
      (c.aux = 1 → exec (.flowFlush h id) s = .next s)) ∧
    (∀ data : HostRead, Started s h id 0x305 c →
      let i := c.par 16 2
      (4096 ≤ i ∨ c.bufOk 64 = false → exec (.templateSet h id data) s = .next (Fails s h c 0x105)) ∧
      (i < 4096 → c.bufOk 64 = true → data.how = .failed → exec (.templateSet h id data) s = .next (Fails s h c 0x10A)) ∧
      (i < 4096 → c.bufOk 64 = true → data.how = .poisoned → exec (.templateSet h id data) s =
        .next (Ended s h c 0x10A [] [] v (ch.flag PCIE_ERR PCIE_ERR_POISONED h))) ∧
      (i < 4096 → c.bufOk 64 = true → data.how = .good →
        let new := sliceB data.bytes 0 64
        let used := tplTenant new ≠ tplTenant (ch.tpl h i) ∧ ch.tplNamed h i = true
        (used → exec (.templateSet h id data) s = .next (Fails s h c 0x106)) ∧
        (¬used → exec (.templateSet h id data) s =
          .next (ok [] (ch.updFlow h (fun f => { f with tpls := mSet f.tpls i new })))))) ∧
    (Started s h id 0x306 c →
      let i := c.par 16 2
      let x := c.par 18 2
      let clear := tb (c.par 20 1) 0
      (clear = true → x ≠ 0 → exec (.slotSet h id) s = .next (Fails s h c 0x102)) ∧
      (clear = true → x = 0 → 4096 ≤ i → exec (.slotSet h id) s = .next (Fails s h c 0x105)) ∧
      (clear = true → x = 0 → i < 4096 → ∃ g, exec (.slotSet h id) s = .next (ok [] g) ∧ g.capReg FLW_DTAB h [i] = Cap.null) ∧
      (clear = false → (ch.frontOf 9 x = none ∨ 4096 ≤ i) → exec (.slotSet h id) s = .next (Fails s h c 0x105)) ∧
      (∀ f r, clear = false → ch.frontOf 9 x = some f → ch.record f = some r → i < 4096 → r.qgen < 2 ^ 32 → r.id < 2 ^ 16 → ∃ g,
        exec (.slotSet h id) s = .next (ok [] g) ∧
        let q := g.capReg FLW_DTAB h [i]
        q.tag = true ∧ q.otype = 0xFFD ∧ q.addr = r.qgen * 2 ^ 16 + r.id)) ∧
    (∀ data : HostRead, Started s h id 0x307 c →
      let i := c.par 16 4
      (65536 ≤ i ∨ c.bufOk 128 = false → exec (.ruleSet h id data) s = .next (Fails s h c 0x105)) ∧
      (i < 65536 → c.bufOk 128 = true → data.how = .failed → exec (.ruleSet h id data) s = .next (Fails s h c 0x10A)) ∧
      (i < 65536 → c.bufOk 128 = true → data.how = .poisoned → exec (.ruleSet h id data) s =
        .next (Ended s h c 0x10A [] [] v (ch.flag PCIE_ERR PCIE_ERR_POISONED h))) ∧
      (i < 65536 → c.bufOk 128 = true → data.how = .good → exec (.ruleSet h id data) s =
        .next (ok [] (ch.updFlow h (fun f => { f with rules := mSet f.rules i (sliceB data.bytes 0 128) }))))) ∧
    (∀ data : HostRead, Started s h id 0x308 c →
      let i := c.par 16 1
      let n := c.par 17 1
      let par := n ≠ 0 ∧ i + n ≤ 64 ∧ c.bufOk (64 * n) = true
      (¬par → exec (.parseLoad h id data) s = .next (Fails s h c 0x105)) ∧
      (par → data.how = .failed → exec (.parseLoad h id data) s = .next (Fails s h c 0x10A)) ∧
      (par → data.how = .poisoned → exec (.parseLoad h id data) s =
        .next (Ended s h c 0x10A [] [] v (ch.flag PCIE_ERR PCIE_ERR_POISONED h))) ∧
      (par → data.how = .good → fl.bank < 2 → tb (c.par 18 1) 0 = false → ∃ g, exec (.parseLoad h id data) s = .next (ok [] g) ∧
        (tGet g.flow h).bank = fl.bank ∧
        (∀ k, k < n → mGet? (tGet g.flow h).nodes ((1 - fl.bank) * 64 + i + k) = some (sliceB (sliceB data.bytes 0 (64 * n)) (64 * k) 64)) ∧
        (∀ k, k / 64 = fl.bank → mGet? (tGet g.flow h).nodes k = mGet? fl.nodes k))) ∧
    (Started s h id 0x309 c →
      (15 < c.par 16 1 → exec (.kprofSet h id) s = .next (Fails s h c 0x105)) ∧
      (c.par 16 1 ≤ 15 → ∃ g, exec (.kprofSet h id) s = .next (ok [] g) ∧ g.reg FLW_KPROF h [c.par 16 1] = c.par 20 4)) ∧
    (Started s h id 0x30A c →
      (c.aux = 0 → ch.bothReady h = false → exec (.ownmapSet h id) s = .next (Fails s h c 0x106)) ∧
      (c.aux = 0 → ch.bothReady h = true → exec (.ownmapSet h id) s =
        .next (HalfDone s h c [] v (ch.setOwnmap h (sliceB c.entry 16 32))) ∧
        ∀ i, i < 8 → (ch.setOwnmap h (sliceB c.entry 16 32)).reg FLW_OWNMAP h [i] = c.par (16 + 4 * i) 4) ∧
      (c.aux ≠ 0 → c.part = none ∨ c.part = some none → exec (.ownmapSet h id) s = .next s) ∧
      (∀ st r, c.aux ≠ 0 → c.part = some (some (st, r)) → exec (.ownmapSet h id) s = .next (Ended s h c st [] [] v ch))) ∧
    (Started s h id 0x30B c →
      (7 < c.par 16 1 ∨ 63 < c.par 17 1 → exec (.portSet h id) s = .next (Fails s h c 0x105)) ∧
      (c.par 16 1 ≤ 7 → c.par 17 1 ≤ 63 → ∃ g, exec (.portSet h id) s = .next (ok [] g) ∧
        g.reg FLW_PORT h [c.par 16 1] = c.par 17 1)) ∧
    (Started s h id 0x30C c →
      let k := c.par 16 1
      let base := c.par 20 4 % 2 ^ 17 * 2 ^ 23
      let n := 256 * 2 ^ (min 21 k)
      let bad := 31 < k ∨ (10 ≤ k ∧ ch.inDram h base n = false)
      (ch.tableUsed h = true → exec (.tableConfig h id) s = .next (Fails s h c 0x106)) ∧
      (ch.tableUsed h = false → bad → exec (.tableConfig h id) s = .next (Fails s h c 0x105)) ∧
      (ch.tableUsed h = false → ¬bad → ∃ g, exec (.tableConfig h id) s = .next (ok [] g) ∧ g.reg FLW_TBL h [] = k ∧
        g.reg FLW_TBASE h [] = c.par 20 4 % 2 ^ 17 ∧ g.reg FLW_HASHSEED h [] = c.par 24 4 ∧ (k < 10 → g.ram = ch.ram))) ∧
    (Started s h id 0x30D c →
      let k := c.par 16 1
      let n := c.par 20 4
      let par := k ≤ 1 ∧ c.par 18 1 ≤ 63 ∧ (n = 0 ∨ (64 ≤ n ∧ n ≤ 65536 ∧ n &&& (n - 1) = 0))
      let slot := if k = 1 then 64 else if tb (c.par 17 1) 0 = true then 10240 else 2048
      (¬par → exec (.ringSet h id) s = .next (Fails s h c 0x105)) ∧
      (par → n ≠ 0 → exec (.ringSet h id) s = .next (ok [] (ch.updAdrus h (fun a =>
        { a with rings := mSet a.rings k ⟨c.par 24 8, n, slot, c.par 18 1, 0, 0, false, true⟩ })))) ∧
      (par → n = 0 → exec (.ringSet h id) s = .next (ok [] (ch.updAdrus h (fun a => { a with rings := mDel a.rings k }))))) ∧
    (∀ how data pick, Started s h id 0x30E c →
      let p := c.par 17 1
      let n := c.dlen
      let par := c.par 16 1 ≤ 1 ∧ p ≤ 7 ∧ 60 ≤ n ∧ n ≤ 9212 ∧ c.bufOk 60 = true
      let run := exec (.frameInject h id how data pick) s
      (v.forwards = false → run = .next (Fails s h c 0x106)) ∧
      (v.forwards = true → ¬par → run = .next (Fails s h c 0x105)) ∧
      (v.forwards = true → par → how = .failed → run = .next (Fails s h c 0x10A)) ∧
      (v.forwards = true → par → how = .poisoned → run = .next (Ended s h c 0x10A [] [] v (ch.flag PCIE_ERR PCIE_ERR_POISONED h))) ∧
      (v.forwards = true → par → how = .good →
        let b := sliceB data 0 n
        (c.par 16 1 = 0 → ch.allocRun h n (ch.fld FLW_PB FLW_PB_RX_RESERVE h) [pick] = none → run = .next (Fails s h c 0x107)) ∧
        (∀ first g, c.par 16 1 = 0 → ch.allocRun h n (ch.fld FLW_PB FLW_PB_RX_RESERVE h) [pick] = some (first, g) → run =
          .next { s with chip := ((g.frameWrite h (bufAt h first + 128) b).egQueue v h p b (some (h, first)) none false).complete h c.id 0 [] [] }) ∧
        (c.par 16 1 = 1 → ch.receive v h p b pick = none → run = .next (Fails s h c 0x107)) ∧
        (∀ g, c.par 16 1 = 1 → ch.receive v h p b pick = some g → run = .next { s with chip := g.complete h c.id 0 [] [] })))

/-- R447 to R449. -/
def Obligations.SystemOpcodes : Prop :=
  ∀ (s : State) (h id : Nat) (c : Cmd),
    let v := s.vig
    let ch := s.chip
    let p := v.pair
    let done := fun (res buf : List Byte) (w : Vig) => Ended s h c 0 res buf w ch
    let ends := fun (t : State) => t.chip.cmd h id = none ∧ t.pending = s.pending
    (Started s h id 0x400 c →
      let t := c.par 16 2
      (4096 ≤ t ∨ c.bufOk 200 = false → exec (.cntRead h id) s = .next (Fails s h c 0x105)) ∧
      (t < 4096 → c.bufOk 200 = true → exec (.cntRead h id) s = .next (done (leBytes 8 (v.dt / 60000000000 + 1))
        ((List.range 24).flatMap (fun i => leBytes 8 (v.bank h v.parity t i)) ++ leBytes 8 (ch.reg MTR_GAUGE h [t])) v))) ∧
    (Started s h id 0x401 c →
      let t := c.par 16 2
      let k := c.par 18 1
      (4096 ≤ t ∨ 7 < k → exec (.policerSet h id) s = .next (Fails s h c 0x105)) ∧
      (t < 4096 → k ≤ 7 → ∃ g, exec (.policerSet h id) s = .next (Ended s h c 0 [] [] v g) ∧
        g.reg MTR_POLBURST h [t, k] = c.par 24 4 ∧ bf (g.reg MTR_POLCFG h [t, k]) 0 25 = bf (c.par 20 4) 0 25 ∧ g.ram = ch.ram)) ∧
    (Started s h id 0x402 c →
      (v.tstate = 1 → exec (.setTime h id) s = .next (Fails s h c 0x106)) ∧
      (v.tstate ≠ 1 → ∃ w, exec (.setTime h id) s = .next (done [] [] w) ∧ w.tstate = 2 ∧ w.clk = v.clk ∧
        (v.dt + 1000000 < c.par 16 8 → w.dt = c.par 16 8 ∧ w.err = 0) ∧
        (c.par 16 8 ≤ v.dt + 1000000 → w.dt = v.dt ∧ w.err = (Int.ofNat (c.par 16 8) - Int.ofNat v.dt) * 100))) ∧
    (Started s h id 0x403 c →
      (c.dptr % 64 ≠ 0 → exec (.ledgerFetch h id) s = .next (Fails s h c 0x105)) ∧
      (c.dptr % 64 = 0 → v.blocks = [] → exec (.ledgerFetch h id) s = .next (Fails s h c 0x10B)) ∧
      (∀ b r, c.dptr % 64 = 0 → v.blocks = b :: r →
        (c.bufOk b.bytes.length = false → exec (.ledgerFetch h id) s =
          .next (Ended s h c 0x105 (leBytes 16 0 ++ leBytes 4 b.bytes.length) [] v ch)) ∧
        (c.bufOk b.bytes.length = true → exec (.ledgerFetch h id) s = .next (done
          (leBytes 8 b.seq ++ leBytes 8 b.minute ++ leBytes 4 b.bytes.length ++ [BitVec.ofNat 8 (b2n b.peer)]) b.bytes
          { v with blocks := r })))) ∧
    (Started s h id 0x404 c →
      (v.signMode = 1 → exec (.hostkeySet h id) s = .next (Fails s h c 0x106)) ∧
      (v.signMode ≠ 1 → exec (.hostkeySet h id) s = .next (done [] [] { v with hostKey := some (sliceB c.entry 16 32) }))) ∧
    (∀ data : HostRead, Started s h id 0x405 c →
      let q := c.par 16 8
      (v.cs.find? (fun e => e.1 = q + 1) = none → exec (.countersign h id data) s = .next (Fails s h c 0x106)) ∧
      (∀ e, v.cs.find? (fun e => e.1 = q + 1) = some e →
        (c.bufOk 64 = false → exec (.countersign h id data) s = .next (Fails s h c 0x105)) ∧
        (c.bufOk 64 = true → data.how = .failed → exec (.countersign h id data) s = .next (Fails s h c 0x10A)) ∧
        (c.bufOk 64 = true → data.how = .poisoned → exec (.countersign h id data) s =
          .next (Ended s h c 0x10A [] [] v (ch.flag PCIE_ERR PCIE_ERR_POISONED h))) ∧
        (c.bufOk 64 = true → data.how = .good →
          let sig := sliceB data.bytes 0 64
          let good := ∃ k, v.hostKey = some k ∧ edVerify k e.2.1 sig = true
          (¬good → exec (.countersign h id data) s = .next (Fails s h c 0x401)) ∧
          (good → exec (.countersign h id data) s = .next (done [] [] { v with
            cs := v.cs.filter (fun e => e.1 ≠ q + 1), progs := v.progs ++ [(q + 1, sig, false)] }))))) ∧
    (Started s h id 0x406 c → exec (.ledgerStatus h id) s = .next (done
      (leBytes 4 v.ldgStatus ++ leBytes 4 v.entries ++ leBytes 8 v.seq ++ leBytes 1 (v.tstat % 256)) [] v)) ∧
    (Started s h id 0x407 c →
      (v.anchor = none → exec (.anchorRead h id) s = .next (Fails s h c 0x105)) ∧
      (∀ b, v.anchor = some b →
        (fieldB b 4 4 ≠ c.par 16 4 ∨ c.bufOk 144 = false → exec (.anchorRead h id) s = .next (Fails s h c 0x105)) ∧
        (fieldB b 4 4 = c.par 16 4 → c.bufOk 144 = true → exec (.anchorRead h id) s = .next (done [] b v)))) ∧
    (Started s h id 0x500 c →
      let par := c.par 20 1 ≤ 1 ∧ c.par 21 1 ≤ 1
      (p.role ≠ 0 → exec (.pairBind h id) s = .next (Fails s h c 0x106)) ∧
      (p.role = 0 → ¬par → exec (.pairBind h id) s = .next (Fails s h c 0x105)) ∧
      (p.role = 0 → par → ∃ t, exec (.pairBind h id) s = .next t ∧ ends t ∧ t.vig.pair.role = (if c.par 21 1 = 0 then 2 else 4) ∧
        t.vig.pair.pairId = c.par 16 4 ∧ t.vig.pair.pos = c.par 20 1 ∧ t.vig.pair.epoch = 0 ∧ t.chip.ram = ch.ram)) ∧
    (Started s h id 0x501 c →
      (p.role = 0 ∨ p.role = 4 → exec (.pairUnbind h id) s = .next (Fails s h c 0x106)) ∧
      (p.role ≠ 0 → p.role ≠ 4 → ∃ t, exec (.pairUnbind h id) s = .next t ∧ ends t ∧ t.vig.pair.role = 0 ∧ t.vig.pair.pos = 0 ∧
        t.chip.ram = ch.ram)) ∧
    (Started s h id 0x502 c →
      let may := p.role = 3 ∨ (p.role = 4 ∧ c.force = true)
      (¬may → exec (.pairTakeover h id) s = .next (Fails s h c 0x106)) ∧
      (may → ∃ t, exec (.pairTakeover h id) s = .next t ∧ ends t ∧ t.vig.pair.role = 2 ∧
        t.vig.pair.epoch = (p.epoch + 1) % 2 ^ 32 ∧ t.vig.shadow = [] ∧ t.vig.pair.takeDue = none)) ∧
    (Started s h id 0x503 c →
      (p.role ≠ 1 → p.role ≠ 2 → exec (.pairYield h id) s = .next (Fails s h c 0x106)) ∧
      (p.role = 1 ∨ p.role = 2 → ∃ t, exec (.pairYield h id) s = .next t ∧ ends t ∧ t.vig.pair.role = 5 ∧
        t.vig.pair.aliveOut = true ∧ t.vig.forwards = false ∧ t.chip.ram = ch.ram)) ∧
    (Started s h id 0x504 c →
      let may := p.role = 2 ∧ (p.peerRole = 4 ∨ p.peerRole = 5)
      (¬may → exec (.pairResync h id) s = .next (Fails s h c 0x106)) ∧
      (may → p.step = 0 → ∃ t, exec (.pairResync h id) s = .next t ∧ ends t ∧ t.vig.pair.step = 1 ∧ t.vig.pair.helloSent = true ∧
        t.vig.pair.role = 2) ∧
      (may → p.step ≠ 0 → exec (.pairResync h id) s = .next (done [] [] v))) ∧
    (Started s h id 0x505 c → exec (.pairStatus h id) s = .next (done
      (leBytes 4 (mirStat v ch h) ++ leBytes 4 p.epoch ++ leBytes 4 p.err ++ leBytes 4 p.pairId) [] v)) ∧
    (Started s h id 0x506 c →
      (p.role = 4 → exec (.pairCfgtag h id) s = .next (Fails s h c 0x106)) ∧
      (p.role ≠ 4 → p.role ≠ 3 ∨ p.cfgTag = c.par 16 4 → exec (.pairCfgtag h id) s =
        .next (done [] [] { v with pair := { p with cfgTag := c.par 16 4 } })) ∧
      (p.role = 3 → p.cfgTag ≠ c.par 16 4 → ∃ t, exec (.pairCfgtag h id) s = .next t ∧ ends t ∧ t.vig.pair.role = 4 ∧
        t.vig.pair.cfgTag = c.par 16 4 ∧ t.vig.pair.step = 0))

/-- R450 to R452. -/
def Obligations.ModeOpcodes : Prop :=
  ∀ (s : State) (h id : Nat) (c : Cmd),
    let v := s.vig
    let ch := s.chip
    let ok := fun (g : Chip) => Ended s h c 0 [] [] v g
    let g := c.par 16 1
    (Started s h id 0x600 c →
      let mask := c.par 16 2
      let val := c.par 18 2
      let alt := tb (c.par 20 1) 0
      let own := fun (w : Vig) => w.signMode = (if tb mask 4 = true then b2n (tb val 4) else v.signMode) ∧
        w.pair.failMode = (if tb mask 8 = true then b2n (tb val 8) else v.pair.failMode)
      (mask = 0x100 → ∃ t, exec (.modeSet h id) s = .next t ∧ t.chip.cmd h id = none ∧ own t.vig) ∧
      (mask ≠ 0x100 → c.aux = 0 → ch.otherHalf h = false → exec (.modeSet h id) s = .next (Fails s h c 0x106)) ∧
      (mask ≠ 0x100 → c.aux = 0 → ch.otherHalf h = true → ∃ w x,
        exec (.modeSet h id) s = .next (HalfDone s h c [] w (modesOn h mask val alt x)) ∧ own w ∧ (tb mask 8 = false → x = ch)) ∧
      (mask ≠ 0x100 → c.aux ≠ 0 → c.part = none ∨ c.part = some none → exec (.modeSet h id) s = .next s) ∧
      (∀ st r, mask ≠ 0x100 → c.aux ≠ 0 → c.part = some (some (st, r)) → exec (.modeSet h id) s = .next (Ended s h c st [] [] v ch)) ∧
      (∀ x : Chip, let y := modesOn h mask val alt x
        y.fld FLW_MODE FLW_MODE_AGE h = (if tb mask 1 = true then b2n (tb val 1) else x.fld FLW_MODE FLW_MODE_AGE h) ∧
        y.fld FLW_MODE FLW_MODE_MISS h = (if tb mask 0 = true then
          (if tb val 0 = true then (if alt = true then 2 else 1) else 0) else x.fld FLW_MODE FLW_MODE_MISS h) ∧
        y.fld XLT_CTRL XLT_CTRL_ADMODE h = (if tb mask 2 = true then b2n (tb val 2) else x.fld XLT_CTRL XLT_CTRL_ADMODE h) ∧
        y.fld BG_MODE BG_MODE_SWEEP h = (if tb mask 3 = true then b2n (tb val 3) else x.fld BG_MODE BG_MODE_SWEEP h) ∧
        y.fld SCH_BAL SCH_BAL_MODE h = (if tb mask 5 = true then b2n (tb val 5) else x.fld SCH_BAL SCH_BAL_MODE h) ∧
        y.fld BG_MODE BG_MODE_CLOCK h = (if tb mask 6 = true then b2n (tb val 6) else x.fld BG_MODE BG_MODE_CLOCK h) ∧
        y.fld BG_MODE BG_MODE_SCRUB h = (if tb mask 7 = true then b2n (tb val 7) else x.fld BG_MODE BG_MODE_SCRUB h) ∧
        y.fld BG_MODE BG_MODE_RETRAIN h = (if tb mask 9 = true then b2n (tb val 9) else x.fld BG_MODE BG_MODE_RETRAIN h))) ∧
    (Started s h id 0x601 c → exec (.modeGet h id) s = .next
      (Ended s h c 0 (leBytes 2 (modeValue v ch h) ++ leBytes 1 (b2n (ch.fld FLW_MODE FLW_MODE_MISS h = 2))) [] v ch)) ∧
    (Started s h id 0x602 c →
      (g < 2 → ch.fld BG_MODE BG_MODE_SCRUB g = 0 → exec (.scrubSet h id) s = .next (Fails s h c 0x106)) ∧
      (2 ≤ g → exec (.scrubSet h id) s = .next (Fails s h c 0x105)) ∧
      (g < 2 → ch.fld BG_MODE BG_MODE_SCRUB g ≠ 0 → ∃ x, exec (.scrubSet h id) s = .next (ok x) ∧
        x.fld BG_TRIM BG_TRIM_HOSTRATE g = min 2048 (c.par 20 4) ∧
        x.fld BG_TRIM BG_TRIM_LEVEL g = scrubLevel (min 2048 (max 2 (c.par 20 4))))) ∧
    (Started s h id 0x603 c →
      let m := c.par 16 2
      let par := m % 16 = 0 ∧ 1008 ≤ m ∧ m ≤ Config.ceilingMHz
      (ch.fld BG_MODE BG_MODE_CLOCK h = 0 → exec (.clockSet h id) s = .next (Fails s h c 0x106)) ∧
      (ch.fld BG_MODE BG_MODE_CLOCK h ≠ 0 → ¬par → exec (.clockSet h id) s = .next (Fails s h c 0x105)) ∧
      (ch.fld BG_MODE BG_MODE_CLOCK h ≠ 0 → par → ∃ x, exec (.clockSet h id) s = .next (ok x) ∧
        x.fld BG_CLKC BG_CLKC_CAP_MHZ h [pathClu c.target % 16] = m ∧ x.ram = ch.ram ∧ x.clusters = ch.clusters)) ∧
    (Started s h id 0x604 c →
      let k := c.par 17 1
      (1 < g ∨ 3 < k → exec (.retrainGrant h id) s = .next (Fails s h c 0x105)) ∧
      (g ≤ 1 → k ≤ 3 →
        (((tGet ch.bg g).chan k).due = none → exec (.retrainGrant h id) s = .next (ok ch)) ∧
        (((tGet ch.bg g).chan k).due ≠ none → ∃ x, exec (.retrainGrant h id) s = .next (ok x) ∧
          ((tGet x.bg g).chan k).grant = v.clk + c.par 20 4 * 1000))) ∧
    (Started s h id 0x605 c →
      (65535 < c.par 20 4 → exec (.selftestSet h id) s = .next (Fails s h c 0x105)) ∧
      (c.par 20 4 ≤ 65535 → ∃ x, exec (.selftestSet h id) s = .next (ok x) ∧
        x.fld BG_ST BG_ST_ENABLE h = g % 2 ∧ x.fld BG_ST BG_ST_PERIOD_MS h = c.par 20 4)) ∧
    (Started s h id 0x606 c →
      (1 < g ∨ c.bufOk 4096 = false → exec (.telemetryRead h id) s = .next (Fails s h c 0x105)) ∧
      (g ≤ 1 → c.bufOk 4096 = true →
        ((tGet ch.bg g).page = [] → exec (.telemetryRead h id) s = .next (Fails s h c 0x10B)) ∧
        ((tGet ch.bg g).page ≠ [] → exec (.telemetryRead h id) s =
          .next (Ended s h c 0 [] (sliceB (tGet ch.bg g).page 0 4096) v ch))))

/-- R31, R32, R462 to R474, R553 and R557. -/
def Obligations.BackgroundServices : Prop :=
  ∀ (s : State) (h k : Nat), h < 2 → (tGet s.chip.half h).inReset = false →
    let v := s.vig
    let ch := s.chip
    let b := tGet ch.bg h
    let x := b.chan k
    let d := tGet ch.ram.fitted h
    let a := h * 2 ^ 40 + b.trim
    let top := ch.ram.dramTop h
    (d ≠ 0 →
      let at_ := fun (g : Chip) => (tGet g.bg h).trim = (if b.trim + 64 < d then b.trim + 64 else 0)
      let due := b.trimPs ≤ 1000 * v.clk ∧ ch.chanHeld v a = false
      let blank := paLocal a < top ∧ ch.ram.summarised a = true
      (due → ∃ g, exec (.trimmerPatrol h 0) s = .next { s with chip := g } ∧ at_ g ∧ g.ram = ch.ram ∧ g.csr = ch.csr ∧
        (tGet g.bg h).trimPs = (if blank then b.trimPs else pacePs b.trimPs v.clk (ch.patrolRate h))) ∧
      (¬due → ¬blank → ∀ err, err < 8 → exec (.trimmerPatrol h err) s = .next s) ∧
      (∀ c, c < 4 → ∃ g, exec (.trimmerPatrol h (8 + c)) s = .next { s with chip := g } ∧ g.ram = ch.ram ∧
        (tGet g.bg h).trim = b.trim ∧ (tGet g.bg h).ceWin = b.ceWin + 1 ∧
        g.fld BG_TRIM_CE BG_TRIM_CE_COUNT h = min (2 ^ 32 - 1) (ch.fld BG_TRIM_CE BG_TRIM_CE_COUNT h + 1)) ∧
      (due → b.trim < top → top < 2 ^ 40 → ch.ram.summarised a = false →
        (∃ g, exec (.trimmerPatrol h 1) s = .next { s with chip := g } ∧ at_ g ∧ g.ram = ch.ram ∧ (tGet g.bg h).ceWin = b.ceWin + 1 ∧
          g.fld BG_TRIM_CE BG_TRIM_CE_COUNT h = min (2 ^ 32 - 1) (ch.fld BG_TRIM_CE BG_TRIM_CE_COUNT h + 1)) ∧
        (∃ g, exec (.trimmerPatrol h 2) s = .next { s with chip := g } ∧ at_ g ∧ g.ram = ch.ram.poisonLine a ∧
          g.fld DDR_ERR DDR_ERR_UE_SEEN h = 1))) ∧
    (b.ceAt < v.dt / 60000000000 → ∃ g, exec (.scrubLevelAdjust h) s = .next { s with chip := g } ∧ g.ram = ch.ram ∧
      (tGet g.bg h).ceWin = 0 ∧ (tGet g.bg h).ceAt = v.dt / 60000000000 ∧
      g.fld BG_TRIM BG_TRIM_LEVEL h =
        (let l := ch.fld BG_TRIM BG_TRIM_LEVEL h
         if ch.fld BG_MODE BG_MODE_SCRUB h = 1 then l
         else if ch.fld BG_TRIM BG_TRIM_CE_HI h < b.ceWin then l - 1
         else if b.ceWin = 0 ∧ b.fullPass = true then min 5 (l + 1)
         else l)) ∧
    (∀ e reg err,
      let cached := ch.ram.region e = .dram ∧ (mGet ch.tagc (tagKey e) []).any (fun l => decide (l.page = e / 4096)) = true
      (err = 0 → exec (.sramScrub reg e err) s = .next s) ∧
      (¬cached → exec (.sramScrub false e 1) s = .next s) ∧ (exec (.sramScrub true e 1) s = .next s) ∧
      (cached → ∃ g, exec (.sramScrub false e 1) s = .next { s with chip := g } ∧ g.ram = ch.ram ∧
        g.fld HALF_TAGC_ERR HALF_TAGC_ERR_CE_SEEN (paHalf e) = 1) ∧
      (e < 514 * 4096 → ∃ g, exec (.sramScrub true e 2) s = .next { s with chip := g } ∧ mGet? g.rsBad e = some () ∧ g.ram = ch.ram) ∧
      (ch.ram.region e = .pbuf → ∃ g, exec (.sramScrub false e 2) s = .next { s with chip := g } ∧ g.ram = ch.ram.poisonLine e)) ∧
    (k ≤ 3 → d ≠ 0 → x.due = none → x.fails < 3 →
      (∃ g, exec (.retrainDue h k true) s = .next { s with chip := g } ∧ ((tGet g.bg h).chan k).due = some v.clk) ∧
      (v.clk < x.last + max 1 (ch.fld BG_CAL BG_CAL_RETRAIN_S h) * 1000000000 → exec (.retrainDue h k false) s = .next s)) ∧
    (k ≤ 3 → x.due ≠ none → x.steps < 20 → (x.steps = 0 ∨ x.stepEnd + 20000 ≤ v.clk) →
      let may := ch.fld BG_MODE BG_MODE_RETRAIN h = 0 ∨ x.forced = true ∨ v.clk + 20000 ≤ x.grant
      let alone := ∀ e ∈ b.chans, e.1 ≠ k → e.2.running = false
      (may → alone → ∃ g, exec (.retrainStep h k) s = .next { s with chip := g } ∧
        (tGet g.bg h).chan k = { x with running := true, steps := x.steps + 1, stepEnd := v.clk + 20000 }) ∧
      (¬may ∨ ¬alone → exec (.retrainStep h k) s = .next s)) ∧
    (∀ t, k ≤ 3 → x.due = some t → ch.fld BG_CAL BG_CAL_FORCE_S h ≠ 0 →
      (t + ch.fld BG_CAL BG_CAL_FORCE_S h * 1000000000 ≤ v.clk → ∃ g, exec (.retrainForce h k) s = .next { s with chip := g } ∧
        (tGet g.bg h).chan k = { x with forced := true }) ∧
      (v.clk < t + ch.fld BG_CAL BG_CAL_FORCE_S h * 1000000000 → exec (.retrainForce h k) s = .next s)) ∧
    (k ≤ 3 → x.running = true → x.stepEnd ≤ v.clk →
      (∃ g, exec (.retrainComplete h k true) s = .next { s with chip := g } ∧ ((tGet g.bg h).chan k).due = none ∧
        ((tGet g.bg h).chan k).running = false ∧ ((tGet g.bg h).chan k).last = v.clk ∧ ((tGet g.bg h).chan k).fails = 0) ∧
      (x.fails < 2 → ∃ g, exec (.retrainComplete h k false) s = .next { s with chip := g } ∧
        (tGet g.bg h).chan k = { x with steps := 0, fails := x.fails + 1 }) ∧
      (2 ≤ x.fails → ∃ g, exec (.retrainComplete h k false) s = .next { s with chip := g } ∧ ((tGet g.bg h).chan k).fails = 3 ∧
        ((tGet g.bg h).chan k).running = false)) ∧
    (k < 16 →
      let c := h * 16 + k
      let n := gridStep (ch.clu c).freq
      let i := ch.isl c
      ((ch.clu c).inReset = false → (ch.clu c).calib = false → i.lastStep + 10000 ≤ v.clk →
        let margin := fun (given : Bool) => given = true ∨ ((∀ t, b.hottest = some t → t ≤ ch.twarn h) ∧ b.avsFault = false)
        let goes := fun (up here : Bool) (f : Nat) => ∃ g, exec (.islandClockStep c up here) s = .next { s with chip := g } ∧ (g.clu c).freq = f
        (∀ up here, n ≠ 0 → ¬margin here ∨ ch.capStep c < n → goes up here (gridMHz (n - 1))) ∧
        (∀ up here, margin here → margin up → n < ch.capStep c → i.hold ≤ v.clk → b.avsFault = false → needMv (n + 1) ≤ b.vdd →
          goes up here (gridMHz (n + 1))) ∧
        (∀ up here, margin here → n ≤ ch.capStep c → ¬margin up ∨ b.vdd < needMv (n + 1) → goes up here (ch.clu c).freq)) ∧
      ((ch.clu c).inReset = false → ∀ m, ∃ g, exec (.droop c m) s = .next { s with chip := g } ∧
        (g.clu c).freq = gridMHz (n - max 1 m) ∧ (g.isl c).hold = v.clk + 1000000) ∧
      ((ch.clu c).inReset = false → (ch.clu c).calib = true →
        (i.calibEnd ≤ v.clk → ∃ g, exec (.clockCalibrationEnd c) s = .next { s with chip := g } ∧ (g.clu c).calib = false) ∧
        (v.clk < i.calibEnd → exec (.clockCalibrationEnd c) s = .next s))) ∧
    (b.capAt + 100000 ≤ v.clk → ∀ t, b.hottest = some t →
      (ch.twarn h < t → ∃ g, exec (.thermalCapStep h) s = .next { s with chip := g } ∧
        ∀ i, i < 16 → (g.isl (h * 16 + i)).cool = min topStep ((ch.isl (h * 16 + i)).cool + 1)) ∧
      (t < ch.twarn h - 40 → ∃ g, exec (.thermalCapStep h) s = .next { s with chip := g } ∧
        ∀ i, i < 16 → (g.isl (h * 16 + i)).cool = (ch.isl (h * 16 + i)).cool - 1)) ∧
    (∀ up, b.avsFault = false →
      let y := if up = true then b.vdd + 5 else b.vdd - 5
      let wanted := if up = true then b.vdd < ch.demandMv v h else ch.demandMv v h ≤ y
      (700 ≤ y → y ≤ 850 → wanted →
        (∃ g, exec (.voltageStep h up true) s = .next { s with chip := g } ∧ (tGet g.bg h).vdd = y ∧ (tGet g.bg h).avsFault = false) ∧
        (∃ g, exec (.voltageStep h up false) s = .next { s with chip := g } ∧ (tGet g.bg h).vdd = b.vdd ∧
          (tGet g.bg h).avsFault = true ∧ (tGet g.bg h).avsAt = v.clk)) ∧
      (y < 700 ∨ 850 < y ∨ ¬wanted → ∀ ok, exec (.voltageStep h up ok) s = .next s)) ∧
    (∀ ok, b.avsFault = true →
      (b.avsAt + 1000000 ≤ v.clk → ∃ g, exec (.avsbusRetry h ok) s = .next { s with chip := g } ∧ (tGet g.bg h).avsFault = !ok ∧
        (tGet g.bg h).avsAt = v.clk) ∧
      (v.clk < b.avsAt + 1000000 → exec (.avsbusRetry h ok) s = .next s)) ∧
    (∀ t, t.length = 8 → ∃ g, exec (.junctionSensorRead h t) s = .next { s with chip := g } ∧ (tGet g.bg h).temps = t ∧
      ((tGet g.bg h).hot = none ↔ ∀ y ∈ t, y < 1024) ∧ (tGet g.bg h).warm = t.any (fun y => decide (ch.twarn h < y)))

/-- R73, R475 to R490. -/
def Obligations.SweepsAndSlices : Prop :=
  ∀ (s : State) (h t : Nat), h < 2 → (tGet s.chip.half h).inReset = false →
    let v := s.vig
    let ch := s.chip
    let b := tGet ch.bg h
    (let p := ch.tenantFld 0 t 48 8
     let f := ch.tenantFld 0 t 56 8
     let due := max 1 (ch.fld BG_SNF BG_SNF_THRESH_MB 0) * 2 ^ 20 ≤ p ∨
       (f ≠ 0 ∧ f + max 1 (ch.fld BG_SNF BG_SNF_DELAY_S 0) * 1000000000 ≤ v.dt)
     let may := ch.tenantOk 0 t = true ∧ ch.fld BG_MODE BG_MODE_SWEEP 0 = 0 ∧ ch.sweepPending t = false
     (due → may → ∃ g, exec (.sweepQueue t) s = .next { s with chip := g } ∧ g.sweepQ = ch.sweepQ ++ [t] ∧ g.sweep = ch.sweep) ∧
     (¬due ∨ ch.sweepPending t = true ∨ ch.fld BG_MODE BG_MODE_SWEEP 0 = 1 → exec (.sweepQueue t) s = .next s)) ∧
    (∀ r, ch.sweepQ = t :: r →
      (ch.sweep = none → ch.wick.h0.up = true → ch.wickUp 0 = true → ∃ g, exec .sweepStart s = .next { s with chip := g } ∧
        g.sweepQ = r ∧ g.sweep = some ⟨t, ⟨0, false, false⟩, ⟨0, false, false⟩⟩ ∧ g.csr = ch.csr ∧ g.store = ch.store) ∧
      (ch.sweep ≠ none → exec .sweepStart s = .next s)) ∧
    (∀ w, ch.sweep = some w → (w.visit h).done = false →
      let at_ := (w.visit h).page
      let can := fun (x : Nat) => (at_ ≠ 0 ∧ (at_ - 1) / 64 = paLocal x / 64) ∨ (b.snuffPs ≤ 1000 * v.clk ∧ ch.chanHeld v x = false)
      ((w.visit h).page < 2 ^ 41 →
        (∀ x, leastFrom (h * 2 ^ 40 + (w.visit h).page) (ch.tagged h (fun a => ch.pageOwner a = some w.tenant)) = some x → ¬can x →
          exec (.snufferGranule h) s = .next s) ∧
        (∀ x, leastFrom (h * 2 ^ 40 + (w.visit h).page) (ch.tagged h (fun a => ch.pageOwner a = some w.tenant)) = some x → can x → ∃ g,
          exec (.snufferGranule h) s = .next { s with chip := g } ∧
          g.ram = (if ch.revoked h w.tenant (ch.ram.rdCap x) = true then ch.ram.setTag x false else ch.ram) ∧
          g.sweep.map (fun y => (y.visit h).page) = some (paLocal x + 16)) ∧
        (leastFrom (h * 2 ^ 40 + (w.visit h).page) (ch.tagged h (fun a => ch.pageOwner a = some w.tenant)) = none → ∃ g,
          exec (.snufferGranule h) s = .next { s with chip := g } ∧ g.ram = ch.ram ∧
          g.sweep.map (fun y => (y.visit h).page) = some (2 ^ 41))) ∧
      (2 ^ 41 ≤ (w.visit h).page → leastFrom (h * 2 ^ 40 + ((w.visit h).page - 2 ^ 41)) (ch.tagged h (fun a =>
          (ch.areasOf h w.tenant).any (fun r => r.1 ≤ a && decide (a < r.2)))) = none → ∃ g,
        exec (.snufferGranule h) s = .next { s with chip := g } ∧ g.ram = ch.ram ∧
        g.sweep.map (fun y => (y.visit h).done) = some true)) ∧
    (∀ w, ch.sweep = some w →
      (w.v0.done = false ∨ w.v1.done = false → exec .sweepComplete s = .next s) ∧
      let mid := fun (e : Nat × Task) => (((List.range 32).filter (fun c => !(ch.clu c).inReset && ch.hostsTenant w.tenant c)).contains (tClu e.1) &&
        !coreSvc (tCore e.1) && e.2.busy)
      let may := ch.wickUp 0 = true ∨ w.v0.abandoned = true ∨ w.v1.abandoned = true
      (w.v0.done = true → w.v1.done = true → may → ch.tasks.any mid = true → exec .sweepComplete s = .next s) ∧
      (w.v0.done = true → w.v1.done = true → may → ch.tasks.any mid = false → ∃ g, exec .sweepComplete s = .next { s with chip := g } ∧
        g.sweep = none ∧ g.sweepQ = ch.sweepQ)) ∧
    (b.pageMin < v.boundary → v.boundary * 60000000000 + 1000000 ≤ v.dt → ∃ g,
      exec (.telemetryPage h) s = .next { s with chip := g } ∧ (tGet g.bg h).page = ch.pageBytes v h ∧
      (tGet g.bg h).pageMin = v.boundary ∧ (tGet g.bg h).sumCe = 0 ∧ (tGet g.bg h).sumUe = 0 ∧ (tGet g.bg h).sumPass = 0 ∧
      (tGet g.bg h).vmin = b.vdd ∧ (tGet g.bg h).vmax = b.vdd) ∧
    (v.boundary ≤ b.pageMin ∨ v.dt < v.boundary * 60000000000 + 1000000 → exec (.telemetryPage h) s = .next s) ∧
    (let n := b.upcoming
     b.slice = none → ch.fld BG_ST BG_ST_ENABLE h = 1 → ch.fld DDR_STAT DDR_STAT_INIT_DONE h = 1 → n ≠ 0 →
     let due := b.sliceAt + max 1 (ch.fld BG_ST BG_ST_PERIOD_MS h) * 1000000 ≤ v.clk
     (¬due → ∀ cond, exec (.sliceStart h cond) s = .next s) ∧
     (due → n < 256 → ch.sliceBlocked h n = false → ∃ g, exec (.sliceStart h true) s = .next { s with chip := g } ∧
       (g.core (h * 256 + n)).drained = true ∧ (tGet g.bg h).slice = some ⟨n, v.clk, false⟩ ∧ (tGet g.bg h).sliceAt = v.clk) ∧
     (due → 256 ≤ n → ch.sliceBlocked h n = false → ∃ g, exec (.sliceStart h true) s = .next { s with chip := g } ∧
       (tGet g.bg h).slice = some ⟨n, v.clk, true⟩) ∧
     (∀ cond, due → cond = false ∨ ch.sliceBlocked h n = true → ∃ g, exec (.sliceStart h cond) s = .next { s with chip := g } ∧
       (tGet g.bg h).slice = none ∧ (tGet g.bg h).again = some n ∧ (tGet g.bg h).sumDef = b.sumDef + 1)) ∧
    (∀ x, b.slice = some x →
      (x.testing = false → ch.sliceDrained h x.num = true → x.num < 256 → ∃ g,
        exec (.sliceStart h true) s = .next { s with chip := g } ∧ (g.core (h * 256 + x.num)).testing = true ∧
        (tGet g.bg h).slice = some ⟨x.num, v.clk, true⟩) ∧
      (x.testing = false → ch.sliceDrained h x.num = false →
        (x.since + 50000 ≤ v.clk → ∃ g, exec (.sliceDrainTimeout h) s = .next { s with chip := g } ∧ (tGet g.bg h).slice = none) ∧
        (v.clk < x.since + 50000 → exec (.sliceDrainTimeout h) s = .next s)) ∧
      (x.testing = true → 256 ≤ x.num → ch.bandWritten h x.num = true → ∀ pass, ∃ g,
        exec (.sliceTestEnd h pass) s = .next { s with chip := g } ∧ (tGet g.bg h).slice = none ∧
        (tGet g.bg h).again = some x.num ∧ (tGet g.bg h).sumDef = b.sumDef + 1) ∧
      (x.testing = true → 256 ≤ x.num ∨ x.since + 40000 ≤ v.clk → ch.bandWritten h x.num = false →
        (∃ g, exec (.sliceTestEnd h true) s = .next { s with chip := g } ∧ (tGet g.bg h).slice = none ∧
          (tGet g.bg h).sumPass = b.sumPass + 1 ∧ (tGet g.bg h).nextSlice = (x.num + 1) % 2560 ∧
          (tGet g.bg h).again = none ∧ (tGet g.bg h).bad = b.bad ∧
          (x.num < 256 → (g.core (h * 256 + x.num)).due = some (0, v.clk))) ∧
        (b.lastFail ≠ some x.num → ∃ g, exec (.sliceTestEnd h false) s = .next { s with chip := g } ∧
          (tGet g.bg h).slice = none ∧ (tGet g.bg h).sumFail = b.sumFail + 1 ∧ (tGet g.bg h).again = some x.num ∧
          (tGet g.bg h).lastFail = some x.num ∧ (tGet g.bg h).bad = b.bad) ∧
        (b.lastFail = some x.num → ∃ g, exec (.sliceTestEnd h false) s = .next { s with chip := g } ∧
          (tGet g.bg h).slice = none ∧ (tGet g.bg h).bad = x.num :: b.bad ∧ (tGet g.bg h).nextSlice = (x.num + 1) % 2560 ∧
          g.fld BG_STFAIL BG_STFAIL_VALID h = 1 ∧ (x.num < 256 → (g.core (h * 256 + x.num)).due = some (2, v.clk)))) ∧
      (x.testing = true → ∃ g, exec (.sliceAbandon h) s = .next { s with chip := g } ∧ (tGet g.bg h).slice = none ∧
        (x.num < 256 → (g.core (h * 256 + x.num)).due = some (0, v.clk))))

/-- R32, R80, R495 to R501, R505, R510 and R523. -/
def Obligations.Resets : Prop :=
  ∀ (s : State) (h : Nat), h < 2 →
    let v := s.vig
    let ch := s.chip
    let half := tGet ch.half h
    (∀ (por : Bool) (torn : Option Nat), ∃ t, exec (if por = true then .powerOnReset torn else .resetN torn) s = .next t ∧
      t.pending = s.pending ∧ t.vig.lc = v.lc ∧ t.vig.entries = v.entries ∧ t.vig.dbgKeys = v.dbgKeys ∧ t.vig.hostKey = v.hostKey ∧
      (torn = none → t.vig.flash = v.flash) ∧ t.vig.resetN = true ∧ t.vig.dt = 0 ∧ t.vig.clk = 0 ∧ t.vig.banks = [] ∧
      t.vig.session = none ∧ t.vig.pair = Pair.reset ∧ t.chip.store = [] ∧ t.chip.tasks = [] ∧
      t.chip.cores = Chip.reset.cores ∧ t.chip.clusters = Chip.reset.clusters ∧ t.chip.half = Chip.reset.half ∧
      t.chip.wick = Chip.reset.wick ∧ t.chip.sweep = none ∧ t.chip.reg HALF_RSTSTAT h [] = (if por = true then 0 else 1) ∧
      t.chip.ram.dramTop h = 0) ∧
    (half.due = none → exec (.halfReset h) s = .next s) ∧
    (∀ cause, half.due = some cause → v.resetN = false → cause < 8 →
      (half.inReset = true → ∃ g, exec (.halfReset h) s = .next { s with chip := g } ∧ (tGet g.half h).due = none ∧
        (tGet g.half h).inReset = true ∧ g.ram = ch.ram ∧ g.csr = ch.csr) ∧
      (half.inReset = false → (tGet ch.wick (1 - h)).replay = [] → (tGet ch.wick (1 - h)).txq = [] → ∃ t, exec (.halfReset h) s = .next t ∧ (tGet t.chip.half h).inReset = true ∧
        (tGet t.chip.half h).due = none ∧ t.chip.reg HALF_RSTSTAT h [] = cause ∧ (tGet t.chip.hev h) = [] ∧
        (∀ k, k < 256 → (t.chip.core (h * 256 + k)).inReset = true ∨ (t.chip.clu (h * 16 + k / 16)).inReset = true) ∧
        (∀ e, h * 256 * 4096 ≤ e → e < (h + 1) * 256 * 4096 → mGet? t.chip.store e = none) ∧
        (tGet t.chip.adrus h).cmds = [] ∧ (tGet t.chip.adrus h).pairs = [] ∧ (tGet t.chip.runs h) = [] ∧
        (∀ e, (1 - h) * 256 * 4096 ≤ e → e < (2 - h) * 256 * 4096 → mGet? t.chip.store e = mGet? ch.store e) ∧
        t.vig.banks = v.banks ∧ t.vig.dt = v.dt ∧ t.vig.lc = v.lc)) ∧
    (half.svcDue = true → half.inReset = false → ∃ g, exec (.serviceCoreReset h) s = .next { s with chip := g } ∧
      (tGet g.half h).svcReset = true ∧ (tGet g.half h).svcDue = false ∧ g.fld CMD_STAT CMD_STAT_READY h = 0 ∧
      g.reg HALF_RSTSTAT h [] = 6 ∧ (g.core (512 + h)).inReset = true ∧ g.ram = ch.ram ∧
      (∀ e, (512 + h) * 4096 ≤ e → e < (513 + h) * 4096 → mGet? g.store e = none)) ∧
    (∀ i since, i < 16 → (ch.clu (h * 16 + i)).due = some (0, since) → (ch.clu (h * 16 + i)).inReset = false →
      let c := h * 16 + i
      (ch.cluIdle c = false → exec (.clusterReset c []) s = .next s) ∧
      (ch.cluIdle c = true → ch.moves = [] → ∃ g, exec (.clusterReset c []) s = .next { s with chip := g } ∧ (g.clu c).inReset = true ∧
        (g.clu c).slots = [] ∧ (g.clu c).tlb = [] ∧ (g.clu c).due = none ∧ (g.clu c).tcfg = (ch.clu c).tcfg ∧
        (∀ a, h * 2 ^ 40 + 0x8040000000 + i * 0x1000000 ≤ a → a < h * 2 ^ 40 + 0x8040000000 + i * 0x1000000 + 0x100000 →
          g.ram.vis a = 0) ∧
        (∀ e, c * 16 * 4096 ≤ e → e < (c * 16 + 16) * 4096 → mGet? g.store e = none) ∧
        (∀ e, e < c * 16 * 4096 ∨ (c * 16 + 16) * 4096 ≤ e → mGet? g.store e = mGet? ch.store e))) ∧
    (∀ k cause since, k < 512 → (ch.core k).due = some (cause, since) → (ch.core k).inReset = false →
      (ch.clu (coreClu k)).inReset = false →
      ((ch.core k).sb ≠ [] → cause ≠ 1 ∨ v.clk < since + 2000 → exec (.coreReset k) s = .next s) ∧
      ((ch.core k).sb = [] → ∃ g, exec (.coreReset k) s = .next { s with chip := g } ∧ (g.core k).inReset = true ∧
        (g.core k).due = none ∧ g.ram = ch.ram ∧ (∀ e, k * 4096 ≤ e → e < (k + 1) * 4096 → mGet? g.store e = none) ∧
        (∀ e, e < k * 4096 ∨ (k + 1) * 4096 ≤ e → mGet? g.store e = mGet? ch.store e) ∧
        (∀ j, j ≠ k → g.core j = ch.core j) ∧ (cause = 2 → (g.core k).failed = true))) ∧
    (∀ i straps, (v.resetN = true → ∃ w, exec (.resetRelease 0 i straps) s = .next { s with vig := w } ∧ w.resetN = false ∧
        w.straps = straps % 8 ∧ w.dt = v.dt ∧ w.lc = v.lc)) ∧
    (∀ straps, v.resetN = false → v.trip = false → half.inReset = true → half.held = false →
      (v.keyLate = true → exec (.resetRelease 1 h straps) s = .next s) ∧ (v.keyLate = false → ∃ g,
      exec (.resetRelease 1 h straps) s = .next { s with chip := g } ∧ (tGet g.half h).inReset = false ∧
      (tGet g.half h).boot = 0 ∧ (g.task (bootTask h)).pcc = romCap h ∧ (g.core (512 + h)).inReset = false ∧
      ∀ i, i < 16 → (g.clu (h * 16 + i)).inReset = false ∧ (g.clu (h * 16 + i)).freq = 1000 ∧ (g.clu (h * 16 + i)).calib = true ∧
        (g.clu (h * 16 + i)).tcfg = bf (ch.reg HALF_TASKCFG h []) (2 * i) 2)) ∧
    (∀ i straps, i < 16 → (ch.clu (h * 16 + i)).inReset = true → half.inReset = false → ∃ g,
      exec (.resetRelease 2 (h * 16 + i) straps) s = .next { s with chip := g } ∧ (g.clu (h * 16 + i)).inReset = false ∧
      (g.clu (h * 16 + i)).freq = 1000 ∧ (g.clu (h * 16 + i)).calib = true ∧ (g.isl (h * 16 + i)).calibEnd = v.clk + 2000000 ∧
      (half.boot ≠ 0 → g.capReg CLU_XVEC_MCH h [i] = ch.capReg HALF_SCXVEC_MCH h) ∧ g.ram = ch.ram) ∧
    (∀ k straps, k < 512 → (ch.core k).inReset = true → (ch.clu (coreClu k)).inReset = false → ∃ g,
      exec (.resetRelease 3 k straps) s = .next { s with chip := g } ∧ g.core k = { ch.core k with inReset := false } ∧ g.ram = ch.ram) ∧
    (∀ straps, half.svcReset = true → half.inReset = false → ∃ g, exec (.resetRelease 4 h straps) s = .next { s with chip := g } ∧
      (tGet g.half h).svcReset = false ∧ (g.core (512 + h)).inReset = false ∧ (g.task (bootTask h)).pcc = romCap h ∧ g.ram = ch.ram)

/-- R502 to R508, R518 to R524 and R559. -/
def Obligations.BootAndWatchdogs : Prop :=
  ∀ (s : State) (h : Nat), h < 2 →
    let v := s.vig
    let ch := s.chip
    let half := tGet ch.half h
    (∀ dens fail, half.inReset = false → ch.fld DDR_STAT DDR_STAT_INIT_DONE h = 0 → ch.fld DDR_STAT DDR_STAT_CHFAIL h = 0 →
      (fail % 16 = 0 → dens = 1 ∨ dens = 2 → ∃ g, exec (.ddrInitDone h dens fail) s = .next { s with chip := g } ∧
        g.fld DDR_STAT DDR_STAT_INIT_DONE h = 1 ∧ tGet g.ram.fitted h = dens * 2 ^ 36 ∧ tGet g.ram.sumOn h = true ∧
        (∀ a, paHalf a = h → paDram a = true → a < 2 ^ 41 → g.ram.summarised a = true ∧ g.ram.colour a = 0) ∧
        g.reg HALF_TAG_BASE h [] = (dens * 2 ^ 36 - dens * 2 ^ 30) / 4096) ∧
      (fail % 16 ≠ 0 → ∃ g, exec (.ddrInitDone h dens fail) s = .next { s with chip := g } ∧
        g.fld DDR_STAT DDR_STAT_CHFAIL h = fail % 16 ∧ g.ram = ch.ram) ∧
      (fail % 16 = 0 → dens ≠ 1 → dens ≠ 2 → ∃ g, exec (.ddrInitDone h dens fail) s = .next { s with chip := g } ∧
        g.fld DDR_STAT DDR_STAT_CHFAIL h = 15 ∧ g.ram = ch.ram)) ∧
    (ch.fld DDR_STAT DDR_STAT_INIT_DONE h = 1 → ch.fld HALF_WIPE HALF_WIPE_TAGDONE h = 0 → ∃ g,
      exec (.tagRegionZeroed h) s = .next { s with chip := g } ∧ g.fld HALF_WIPE HALF_WIPE_TAGDONE h = 1 ∧
      g.ram.cells = ch.ram.cells ∧ ∀ a, g.ram.tagByte a = ch.ram.tagByte a) ∧
    (ch.fld HALF_WIPE HALF_WIPE_TAGDONE h = 1 → half.zeroNext < ch.ram.dramTop h →
      let a := h * 2 ^ 40 + half.zeroNext
      ch.chanHeld v a = false → ∃ g, exec (.zeroPassLine h) s = .next { s with chip := g } ∧ (tGet g.half h).zeroNext = half.zeroNext + 64 ∧
        g.ram.tags = ch.ram.tags ∧
        (ch.ram.colour a = 0 → ∀ x, g.ram.rd x = if x / 64 = a / 64 then 0 else ch.ram.rd x) ∧
        (ch.ram.colour a ≠ 0 → g.ram = ch.ram)) ∧
    (0 < ch.ram.dramTop h → ch.ram.dramTop h ≤ half.zeroNext → ∃ g, exec (.zeroPassDone h) s = .next { s with chip := g } ∧
      g.fld HALF_WIPE HALF_WIPE_ZERODONE h = 1 ∧ g.ram = ch.ram) ∧
    (∀ a, ∃ g, exec (.summaryBlockFirstWrite a) s = .next { s with chip := g } ∧ g.ram.summarised a = false ∧
      g.ram.cells = ch.ram.cells ∧ ∀ x, g.ram.tagByte x = ch.ram.tagByte x) ∧
    (half.inReset = false → half.svcReset = false → half.boot = 0 → ∃ g, exec (.bootTaskStart h) s = .next { s with chip := g } ∧
      (∀ c, c < 16 → g.capReg CLU_XVEC_MCH h [c] = machineTrap h) ∧ g.capReg HALF_SCXVEC_MCH h = machineTrap h ∧
      (tGet g.half h).boot = 1 ∧ g.ram = ch.ram) ∧
    (∀ img sig, half.inReset = false → half.svcReset = false → half.boot = 1 → ch.fld DDR_STAT DDR_STAT_INIT_DONE h = 1 →
      half.lcReset = false →
      (v.imageOk img sig = false → ∃ g, exec (.imageVerify h img sig) s = .next { s with chip := g } ∧
        g.fld HALF_RSTSTAT HALF_RSTSTAT_BOOTFAIL h = 1 ∧ (tGet g.half h).boot = 3 ∧ g.ram = ch.ram ∧ g.tasks = ch.tasks) ∧
      (v.imageOk img sig = true → ∃ g, exec (.imageVerify h img sig) s = .next { s with chip := g } ∧ g.cmdReady h = true ∧
        (tGet g.half h).boot = 2 ∧ (g.task (bootTask h + 1)).svc = true ∧ (g.task (bootTask h + 1)).priv = 1)) ∧
    (∀ (w : CoreView) t0, let k := w.core
      k < 512 → mGet? ch.readyAt k = some t0 → (ch.core k).inReset = false → (ch.core k).due = none →
      (ch.clu (coreClu k)).inReset = false →
      let us := max 1 (ch.fld CLU_WDOG CLU_WDOG_CORE_US (k / 256) [k / 16 % 16])
      (v.clk < max t0 (ch.core k).lastIssue + us * 1000 → exec (.coreWatchdog w) s = .next s) ∧
      (ch.readyTasks k w.stalled = [] → exec (.coreWatchdog w) s = .next s) ∧
      (max t0 (ch.core k).lastIssue + us * 1000 ≤ v.clk → ch.readyTasks k w.stalled ≠ [] → ∃ g,
        exec (.coreWatchdog w) s = .next { s with chip := g } ∧ (g.core k).due = some (1, v.clk) ∧ (g.core k).faultAt = some v.clk ∧
        g.fld HALF_FAULTS HALF_FAULTS_CORE (k / 256) =
          min (2 ^ HALF_FAULTS_CORE.w - 1) (ch.fld HALF_FAULTS HALF_FAULTS_CORE (k / 256) + 1))) ∧
    (∀ i, i < 16 → half.inReset = false → (ch.clu (h * 16 + i)).inReset = false →
      let c := h * 16 + i
      let k := ch.clu c
      let lim := 1000 * max 20 (ch.fld HALF_WDOG HALF_WDOG_CLU_US h)
      (k.probeAt + 10000 ≤ v.clk →
        (∃ g, exec (.clusterProbe c true) s = .next { s with chip := g } ∧ (g.clu c).noAns = none ∧ (g.clu c).probeAt = v.clk) ∧
        (∃ g, exec (.clusterProbe c false) s = .next { s with chip := g } ∧ (g.clu c).noAns = some (k.noAns.getD v.clk) ∧
          (g.clu c).probeAt = v.clk)) ∧
      (v.clk < k.probeAt + 10000 → ∀ ok, exec (.clusterProbe c ok) s = .next s) ∧
      (∀ ans pick, (∀ t, k.noAns = some t → v.clk < t + lim) → (∀ e ∈ k.stuck, v.clk < e.2.2 + lim) →
        exec (.clusterWatchdog c ans pick) s = .next s) ∧
      (∀ ans pick t, k.noAns = some t → t + lim ≤ v.clk → k.due = none → ∃ g,
        exec (.clusterWatchdog c ans pick) s = .next { s with chip := g } ∧ (g.clu c).due = some (1, v.clk) ∧ (g.clu c).slots = [] ∧
        (g.clu c).pend = [])) ∧
    (let ms := max 1 (ch.fld HALF_SWDOG HALF_SWDOG_PERIOD_MS h)
     half.inReset = false → half.svcDue = false → half.due = none →
     (v.clk < half.kick + ms * 1000000 → exec (.swdogExpiry h) s = .next s) ∧
     (half.kick + ms * 1000000 ≤ v.clk →
       (half.swFirst = none → ∃ g, exec (.swdogExpiry h) s = .next { s with chip := g } ∧ (tGet g.half h).svcDue = true ∧
         (tGet g.half h).due = none ∧ (tGet g.half h).swFirst = some v.clk ∧ (tGet g.half h).kick = v.clk) ∧
       (∀ f, half.swFirst = some f → v.clk ≤ f + 1000000000 → ∃ g, exec (.swdogExpiry h) s = .next { s with chip := g } ∧
         (tGet g.half h).due = some 4 ∧ (tGet g.half h).svcDue = false))) ∧
    (half.inReset = false → ∃ g, exec (.swdogKick h) s = .next { s with chip := g } ∧
      tGet g.half h = { half with kick := v.clk } ∧ g.ram = ch.ram) ∧
    (∀ t, v.trip = false → v.resetN = false → (tGet ch.bg h).hot = some t → t + 10000 ≤ v.clk → ∃ r, exec .thermalTrip s = .next r ∧
      r.vig.trip = true ∧ r.chip.half.h0.inReset = true ∧ r.chip.half.h1.inReset = true ∧ r.chip.half.h0.held = true ∧
      r.chip.half.h1.held = true ∧ r.vig.lc = v.lc ∧ r.vig.dt = v.dt)

/-- R530 to R541. -/
def Obligations.TaperSessions : Prop :=
  ∀ (s : State) (seq : Nat) (p : List Byte),
    let v := s.vig
    let ch := s.chip
    let rows : List (Nat × (Nat → List Byte → Instr)) := [(0x01, .taperStatus), (0x02, .taperAttn), (0x03, .taperChallenge),
      (0x04, .sessionOpen), (0x05, .sessionClose), (0x10, .taperHalt), (0x11, .taperResume), (0x12, .taperStep), (0x13, .taperDrain),
      (0x14, .regRead), (0x15, .regWrite), (0x16, .regSetaddr), (0x20, .dbgWrite), (0x21, .dbgRead), (0x30, .taperMemRead),
      (0x31, .taperMemWrite)]
    (∀ op row, (op, row) ∈ rows → v.resetN = false → v.held = none →
      (taperFits op p = false → exec (row seq p) s = .next (Replied s 3 seq [] v ch)) ∧
      (taperFits op p = true → taperMay op v = false → exec (row seq p) s = .next (Replied s 2 seq [] v ch))) ∧
    (Asked s 0x01 seq p → exec (.taperStatus seq p) s = .next (Replied s 0 seq (taperStatus v ch) v ch)) ∧
    (Asked s 0x02 seq p → exec (.taperAttn seq p) s = .next (Replied s 0 seq (leBytes 2 ch.attn) v { ch with attn := 0 })) ∧
    (Asked s 0x03 seq p → ∃ b g, exec (.taperChallenge seq p) s = .next (Replied s 0 seq b { v with challenge := some b } g) ∧
      b.length = 16 ∧ g = { ch with free := ch.free + 1 }) ∧
    (Asked s 0x04 seq p →
      (tokenOk v p = false → exec (.sessionOpen seq p) s = .next (Replied s 2 seq [] { v with challenge := none } ch)) ∧
      (tokenOk v p = true → v.session = none →
        let kind := if v.lc = 3 then 2 else 1
        exec (.sessionOpen seq p) s = .next (Replied s 0 seq [BitVec.ofNat 8 kind] { v with
          challenge := none, session := some ⟨kind, fieldB p 4 2, fieldB p 6 1, fieldB p 8 8⟩ } ch))) ∧
    (tokenOk v p = true → 1 ≤ v.lc ∧ v.lc ≤ 3 ∧ v.dt < fieldB p 8 8 ∧ v.challenge = some (sliceB p 48 16) ∧
      ¬(v.lc = 3 ∧ fieldB p 4 2 = 0xFFFF) ∧ ∃ k, mGet? v.dbgKeys (fieldB p 4 2) = some k ∧
        edVerify k (sliceB p 0 64) (sliceB p 64 64) = true) ∧
    (Asked s 0x05 seq p → v.session ≠ none → ∃ g, exec (.sessionClose seq p) s =
      .next (Replied s 0 seq [] { v with session := none } g) ∧ tb g.attn 4 = true ∧ g.ram = ch.ram ∧
      ∀ t, (g.task t).halted = (mGet? ch.tasks t).any (·.dead) ∧ (g.task t).haltReq = false) ∧
    (∀ x, v.session = some x →
      (x.notafter ≤ v.dt → ∃ g, exec .sessionExpiry s = .next { s with vig := { v with session := none }, chip := g } ∧ tb g.attn 4 = true) ∧
      (v.dt < x.notafter → exec .sessionExpiry s = .next s)) ∧
    ((taperPath v ch p 4 5 = none → Asked s 0x10 seq p → exec (.taperHalt seq p) s = .next (Replied s 4 seq [] v ch)) ∧
      ∀ t, taperPath v ch p 4 5 = some t →
        (Asked s 0x10 seq p → ch.coreBusy (pathCore t) = true →
          exec (.taperHalt seq p) s = .next { s with vig := { v with held := some (0x10, seq, p) } }) ∧
        (Asked s 0x10 seq p → ch.coreBusy (pathCore t) = false → ∃ g, exec (.taperHalt seq p) s = .next (Replied s 0 seq [] v g) ∧
          (∀ k ∈ ch.pathTasks t, (g.task k).haltReq = (!(ch.task k).halted || (ch.task k).haltReq)) ∧
          (∀ k, k ∉ ch.pathTasks t → g.task k = ch.task k) ∧ g.ram = ch.ram ∧ g.store = ch.store) ∧
        (Asked s 0x11 seq p → ch.coreBusy (pathCore t) = false → ∃ g, exec (.taperResume seq p) s = .next (Replied s 0 seq [] v g) ∧
          (∀ k ∈ ch.pathTasks t, (ch.task k).dead = false → (ch.task k).halted = false ∨ v.rights (ch.task k) = true →
            (g.task k).halted = false ∧ (g.task k).haltReq = false ∧ (g.task k).pcc = (ch.task k).pcc) ∧
          (∀ k, k ∉ ch.pathTasks t ∨ (ch.task k).dead = true → g.task k = ch.task k) ∧ g.ram = ch.ram ∧ g.store = ch.store)) ∧
    (∀ t, taperPath v ch p 5 5 = some t → ch.coreBusy (pathCore t) = false →
      let x := ch.task (pathTask t)
      (Asked s 0x12 seq p → x.halted = false → exec (.taperStep seq p) s = .next (Replied s 7 seq [] v ch)) ∧
      (Asked s 0x12 seq p → x.halted = true → v.rights x = false → exec (.taperStep seq p) s = .next (Replied s 2 seq [] v ch)) ∧
      (Asked s 0x12 seq p → x.halted = true → v.rights x = true → exec (.taperStep seq p) s =
        .next (Replied s 0 seq [] v (ch.updTask (pathTask t) (fun x => if x.dead then x else { x with stepping := true, noBp := true })))) ∧
      (Asked s 0x13 seq p → x.halted = true → v.rights x = true →
        (ch.opsDone (pathTask t) = true →
          exec (.taperDrain seq p) s = .next (Replied s 0 seq [BitVec.ofNat 8 (min 8 x.fails.length)] v ch)) ∧
        (ch.opsDone (pathTask t) = false →
          exec (.taperDrain seq p) s = .next { s with vig := { v with held := some (0x13, seq, p) } }))) ∧
    (∀ t, let x := ch.task t
      let runs := x.bound ≠ none ∨ (coreSvc (tCore t) = true ∧ x.pcc ≠ Cap.null)
      (x.haltReq = false ∨ ¬runs ∨ x.dead = true ∨ x.halted = true ∨ v.rights x = false ∨ ch.midPair t = true → exec (.haltTaken t) s = .next s) ∧
      (x.haltReq = true → runs → x.dead = false → x.halted = false → v.rights x = true → ch.midPair t = false → ∃ g,
        exec (.haltTaken t) s = .next { s with chip := g } ∧ (g.task t).halted = true ∧ (g.task t).haltReq = false ∧
        (g.task t).pcc = x.pcc ∧ g.ram = ch.ram)) ∧
    (∀ x, v.held = some x → exec .taperResponseTimeout s = .next (Replied s 6 x.2.1 [] v ch)) ∧
    (v.held = none → exec .taperResponseTimeout s = .next s) ∧
    (∀ b, v.resetN = false → v.held = none →
      (b.take 1 ≠ [0xA5] → exec (.badPacket b) s = .next (Replied s 3 (fieldB b 4 1) [] v ch)) ∧
      (b.length = fieldB b 2 2 + 7 → fieldB b 2 2 ≤ 512 → b.take 1 = [0xA5] →
        crcTod (b.take (fieldB b 2 2 + 5)) = fieldB b (fieldB b 2 2 + 5) 2 → fieldB b 1 1 ∉ taperOps →
        exec (.badPacket b) s = .next (Replied s 4 (fieldB b 4 1) [] v ch)))

/-- R312 to R322, R532, R535, R540 and R543. -/
def Obligations.TaperAccess : Prop :=
  ∀ (s : State) (seq : Nat) (p : List Byte),
    let v := s.vig
    let ch := s.chip
    let sel := fieldB p 8 2
    (∀ t, taperPath v ch p 5 5 = some t → ch.coreBusy (pathCore t) = false →
      let k := pathTask t
      let x := ch.task k
      let g := ch.flush k
      let e := g.base k + sel
      let may := x.halted = true ∧ v.rights x = true
      (x.halted = false →
        (Asked s 0x14 seq p → exec (.regRead seq p) s = .next (Replied s 7 seq [] v ch)) ∧
        (Asked s 0x15 seq p → exec (.regWrite seq p) s = .next (Replied s 7 seq [] v ch)) ∧
        (Asked s 0x16 seq p → exec (.regSetaddr seq p) s = .next (Replied s 7 seq [] v ch))) ∧
      (may → sel < g.perTask (tCore k) →
        (Asked s 0x14 seq p → mGet? g.rsBad e = none →
          exec (.regRead seq p) s = .next (Replied s 0 seq (leBytes 16 (g.rdEntry e).bits.toNat ++ [BitVec.ofNat 8 (b2n (g.rdEntry e).tag)]) v g)) ∧
        (Asked s 0x14 seq p → mGet? g.rsBad e ≠ none → exec (.regRead seq p) s = .next (Replied s 5 seq [0x30] v g)) ∧
        (Asked s 0x15 seq p → exec (.regWrite seq p) s =
          .next (Replied s 0 seq [] v (g.wrEntry e ⟨false, BitVec.ofNat 128 (fieldB p 10 16)⟩))) ∧
        (Asked s 0x16 seq p → mGet? g.rsBad e = none →
          let c := cpos (g.rdEntry e) (fieldB p 10 8)
          exec (.regSetaddr seq p) s = .next (Replied s 0 seq [BitVec.ofNat 8 (b2n c.tag)] v (g.wrEntry e c)))) ∧
      (∀ n, may → 0x1000 ≤ sel → sel ≤ 0x1014 → n = sel - 0x1000 → g.perTask (tCore k) ≤ sel →
        (Asked s 0x14 seq p → exec (.regRead seq p) s = .next (Replied s 0 seq (capPay (g.rdSpecial v k n)) v g)) ∧
        (Asked s 0x15 seq p → n ≠ 19 → writePermitted (g.task k) n = false →
          exec (.regWrite seq p) s = .next (Replied s 5 seq [0x02] v ch)) ∧
        (Asked s 0x15 seq p → n ≠ 19 → writePermitted (g.task k) n = true → exec (.regWrite seq p) s =
          .next (Replied s 0 seq [] v (g.updTask k (fun x => x.wrSpecial n ⟨false, BitVec.ofNat 128 (fieldB p 10 16)⟩)))) ∧
        (Asked s 0x16 seq p → n = 0 → ∃ r, exec (.regSetaddr seq p) s = .next (Replied s 0 seq
            [BitVec.ofNat 8 (b2n (cpos (g.task k).pcc (fieldB p 10 8)).tag)] v r) ∧
          (r.task k).pcc = cpos (g.task k).pcc (fieldB p 10 8) ∧ r.ram = g.ram ∧ r.store = g.store))) ∧
    (∀ t, taperPath v ch p 4 4 = some t → ch.coreBusy (pathCore t) = false →
      let h := pathHalf t
      let m := pathCore t % 256
      (dbgReg sel = none →
        (Asked s 0x20 seq p → exec (.dbgWrite seq p) s = .next (Replied s 4 seq [] v ch)) ∧
        (Asked s 0x21 seq p → exec (.dbgRead seq p) s = .next (Replied s 4 seq [] v ch))) ∧
      (∀ d i, dbgReg sel = some (d, i) →
        (Asked s 0x21 seq p → exec (.dbgRead seq p) s = .next (Replied s 0 seq (leBytes 8 (regRead (v, ch) h d (m :: i.toList))) v ch)) ∧
        (Asked s 0x20 seq p → dbgMay v ch h m d (i.getD 0) (fieldB p 10 8) = false →
          exec (.dbgWrite seq p) s = .next (Replied s 2 seq [] v ch)) ∧
        (Asked s 0x20 seq p → dbgMay v ch h m d (i.getD 0) (fieldB p 10 8) = true →
          let r := regWrite h d (m :: i.toList) (fieldB p 10 8) (2 ^ 64 - 1) (v, ch)
          exec (.dbgWrite seq p) s = .next (Replied s 0 seq [] r.1 r.2)))) ∧
    (let a := fieldB p 0 8
     let n := sel
     let ps := lineParts ⟨a, n, false, 0⟩
     let form := 8 ≤ n ∧ n ≤ 256 ∧ n % 8 = 0 ∧ a % 8 = 0
     let full := (v.session.map (·.kind)) ≠ some 2
     let live := ∀ q ∈ ps, (tGet ch.half (paHalf q.1)).inReset = false
     (¬form →
       (Asked s 0x30 seq p → exec (.taperMemRead seq p) s = .next (Replied s 4 seq [] v ch)) ∧
       (Asked s 0x31 seq p → exec (.taperMemWrite seq p) s = .next (Replied s 4 seq [] v ch))) ∧
     (form → full → ¬live → Asked s 0x30 seq p →
       exec (.taperMemRead seq p) s = .next { s with vig := { v with held := some (0x30, seq, p) } }) ∧
     (form → full → live → ch.taperGuard false ps = none → Asked s 0x30 seq p →
       (taperLines v ch n ps = none →
         let r := busGet ps (v, ch)
         exec (.taperMemRead seq p) s = .next (Replied s 0 seq r.1 r.2.1 r.2.2)) ∧
       (v.lc = 3 → (∃ q ∈ ps, (ch.ram.region q.1).isCsr = false ∧ 5 ≤ ch.ram.lineCol q.1) → ∃ g,
         exec (.taperMemRead seq p) s = .next (Replied s 1 seq (List.replicate n 0) v g) ∧ g.ram = ch.ram) ∧
       (v.lc ≠ 3 → (∃ q ∈ ps, (ch.ram.region q.1).isCsr = false ∧ ch.lineBad q.1 = true) →
         exec (.taperMemRead seq p) s = .next (Replied s 5 seq [0x30] v ch))) ∧
     (form → full → live → ch.taperGuard true ps = none → taperLines v ch 0 ps = none → Asked s 0x31 seq p →
       let r := busPut ps (p.drop 12) (v, ch)
       exec (.taperMemWrite seq p) s = .next (Replied s 0 seq [] r.1 r.2)) ∧
     (∀ g, form → full → live → ch.taperGuard false ps = some g → Asked s 0x30 seq p →
       exec (.taperMemRead seq p) s = .next (Replied s 0 seq (List.replicate n 0) v g)))

/-- The invariant of R373, R374, R377, R399, R405, R450 and R512. -/
def Obligations.IslandStaysLegal : Prop := ∀ s t : State, s.vig.Legal → step s = .next t → t.vig.Legal

/-- The invariant holds at reset. -/
def Obligations.IslandLegalAtReset : Prop := State.reset.vig.Legal ∧ State.reset.chip.ram.wf = true ∧ State.reset.chip.ram = Ram.empty

/-- R373 and R376; R495 for the two resets that begin time again. -/
def Obligations.DeviceTimeNeverDecreases : Prop :=
  ∀ s t : State, (∀ n r, s.pending ≠ .powerOnReset n :: r ∧ s.pending ≠ .resetN n :: r) → step s = .next t →
    s.vig.dt ≤ t.vig.dt ∧ s.vig.clk ≤ t.vig.clk

/-- R459. -/
def Obligations.I3cSubset : Prop :=
  (∀ c : Cmd, i3cAllows c = true ↔
    c.op = 0x0 ∨ c.op = 0x4 ∨ (c.op = 0x6 ∧ pathLen c.target = 2) ∨ c.op = 0x406 ∨ c.op = 0x505 ∨ c.op = 0x503 ∨ c.op = 0x601 ∨
      c.op = 0x700) ∧
  ∀ (s : State) (b : List Byte) (i : OpInfo),
    let v := s.vig
    let ch := s.chip
    let h := if ch.half.h0.inReset = true then 1 else 0
    let a := tGet ch.adrus h
    let c : Cmd := ⟨a.next, .i3c, 0, b, v.clk, 0, false, false, false, false, 0, none⟩
    b.length = 64 → v.i3c.addr ≠ 0 → v.i3c.busy = false → (tGet ch.half h).inReset = false → opInfo c.op = some i →
      c.resOk i = true → c.targetOk v ch i = true → (∀ k ∈ a.cmds, k.id ≠ a.next) →
      (i3cAllows c = false → ∃ t, exec (.i3cCommand b) s = .next t ∧ t.vig.i3c.busy = true ∧
        (tGet t.chip.adrus h).cmds = a.cmds ∧ (tGet t.chip.adrus h).compl = a.compl ++ [c.compl 0x108 [] []]) ∧
      (i3cAllows c = true → 1 ≤ v.lc → v.lc ≤ 3 → ∃ t, exec (.i3cCommand b) s = .next t ∧ t.vig.i3c.busy = true ∧
        (tGet t.chip.adrus h).cmds = a.cmds ++ [c] ∧ (tGet t.chip.adrus h).compl = a.compl)
end

