-- ==== Sys2Proof/Laws/Insn.lean ====
section
/-! SUPPORT. What issuing an instruction does once its checks have passed: its body's answer, and nothing else. -/

namespace Sys2Proof.Machine

/-- An instruction whose body touches only the chip ends with its body's answer. -/
theorem insn_reaches {s : State} {t : Nat} {w : IWord} {row : Row} {i : Issue} (h : Reaches s t w none row i)
    (body : Vig → Chip → Nat → Nat → Res) :
    insn t w row body s = .next (Answers s t w i (body s.vig i.ch t w.toNat)) := by
  obtain ⟨h1, h2⟩ := h
  unfold insn chipStep Chip.issueRow Chip.issueBody Answers Ends
  have e : ((s.chip.task t).halted && (s.chip.task t).stepping) = stepped s t := rfl
  simp only [h1, e, Bool.false_eq_true, if_false]
  cases hs : stepped s t
  all_goals rw [hs] at h2; simp [Chip.issue, h2]

/-- An instruction of two words ends with its body's answer. -/
theorem issueRow_reaches {s : State} {t : Nat} {w : IWord} {w2 : Option IWord} {row : Row} {i : Issue}
    (h : Reaches s t w w2 row i) (body : Vig → Chip → Nat → Nat → Res) :
    chipStep (fun v ch => ch.issueRow v t w w2 row body) s = .next (Answers s t w i (body s.vig i.ch t w.toNat)) := by
  obtain ⟨h1, h2⟩ := h
  unfold chipStep Chip.issueRow Chip.issueBody Answers Ends
  have e : ((s.chip.task t).halted && (s.chip.task t).stepping) = stepped s t := rfl
  simp only [h1, e, Bool.false_eq_true, if_false]
  cases hs : stepped s t
  all_goals rw [hs] at h2; simp [Chip.issue, h2]

/-- An instruction whose accesses may reach control blocks ends with its body's answer, and its island. -/
theorem insnBoth_reaches {s : State} {t : Nat} {w : IWord} {row : Row} {i : Issue} (h : Reaches s t w none row i)
    (body : Body) :
    insnBoth t w row body s = .next { Answers s t w i (body s.vig i.ch t w.toNat).2 with
      vig := (body s.vig i.ch t w.toNat).1 } := by
  obtain ⟨h1, h2⟩ := h
  unfold insnBoth bothStep Chip.issueBody Answers Ends
  have e : ((s.chip.task t).halted && (s.chip.task t).stepping) = stepped s t := rfl
  simp only [h1, e, Bool.false_eq_true, if_false]
  cases hs : stepped s t
  all_goals rw [hs] at h2; simp [Chip.issue, h2]

end Sys2Proof.Machine
end

