-- ==== Sys2Proof/Laws/State.lean ====
section
/-! SUPPORT. What each update of the state leaves of every field: one small lemma per update and field, and what reading a
part gives after it has been replaced. -/

namespace Sys2Proof.Machine

/-- Reading a map where it was just written. -/
@[simp] theorem mGet?_mSet_self {α : Type} (m : NMap α) (i : Nat) (v : α) : mGet? (mSet m i v) i = some v := by
  induction m with
  | nil => simp [mSet, mGet?]
  | cons e r ih =>
    simp only [mSet]
    split
    · simp [mGet?]
    · split <;> simp_all [mGet?]

/-- Reading a map elsewhere than where it was written. -/
theorem mGet?_mSet_ne {α : Type} (m : NMap α) (i j : Nat) (v : α) (h : j ≠ i) : mGet? (mSet m i v) j = mGet? m j := by
  induction m with
  | nil => simp [mSet, mGet?, h]
  | cons e r ih =>
    simp only [mSet]
    split
    · simp [mGet?, h]
    · split
      · subst_vars; simp [mGet?, h]
      · simp [mGet?, ih]

/-- Reading a map where a key was removed. -/
@[simp] theorem mGet?_mDel_self {α : Type} (m : NMap α) (i : Nat) : mGet? (mDel m i) i = none := by
  induction m with
  | nil => rfl
  | cons e r ih =>
    simp only [mDel]
    split
    · exact ih
    · simp_all [mGet?]

/-- Reading a map elsewhere than where a key was removed. -/
theorem mGet?_mDel_ne {α : Type} (m : NMap α) (i j : Nat) (h : j ≠ i) : mGet? (mDel m i) j = mGet? m j := by
  induction m with
  | nil => rfl
  | cons e r ih =>
    simp only [mDel]
    split
    · subst_vars; simp [mGet?, h, ih]
    · simp [mGet?, ih]

/-- Reading a map with a default where it was just written. -/
@[simp] theorem mGet_mPut_self {α : Type} [DecidableEq α] (m : NMap α) (i : Nat) (v d : α) : mGet (mPut m i v d) i d = v := by
  unfold mPut; split <;> simp_all [mGet]

/-- What a map lists where it was just written. -/
theorem mGet?_mPut_self {α : Type} [DecidableEq α] (m : NMap α) (i : Nat) (v d : α) :
    mGet? (mPut m i v d) i = if v = d then none else some v := by
  unfold mPut; split <;> simp

/-- Reading a map with a default elsewhere. -/
theorem mGet_mPut_ne {α : Type} [DecidableEq α] (m : NMap α) (i j : Nat) (v d e : α) (h : j ≠ i) :
    mGet (mPut m i v d) j e = mGet m j e := by
  unfold mPut; split <;> simp [mGet, mGet?_mDel_ne _ _ _ h, mGet?_mSet_ne _ _ _ _ h]

/-- Reading the half that was replaced. -/
@[simp] theorem tGet_tSet_self {α : Type} (p : Two α) (h : Nat) (v : α) : tGet (tSet p h v) h = v := by
  unfold tGet tSet; split <;> simp_all

/-- Reading the other half. -/
theorem tGet_tSet_ne {α : Type} (p : Two α) (h g : Nat) (v : α) (n : (g = 0) ≠ (h = 0)) : tGet (tSet p h v) g = tGet p g := by
  unfold tGet tSet; by_cases a : g = 0 <;> by_cases b : h = 0 <;> simp_all

@[simp] theorem Chip.setTask_ram (ch : Chip) (t : Nat) (x : Task) : (ch.setTask t x).ram = ch.ram := rfl
@[simp] theorem Chip.setTask_tagc (ch : Chip) (t : Nat) (x : Task) : (ch.setTask t x).tagc = ch.tagc := rfl
@[simp] theorem Chip.setTask_carry (ch : Chip) (t : Nat) (x : Task) : (ch.setTask t x).carry = ch.carry := rfl
@[simp] theorem Chip.setTask_clmTen (ch : Chip) (t : Nat) (x : Task) : (ch.setTask t x).clmTen = ch.clmTen := rfl
@[simp] theorem Chip.setTask_walkX (ch : Chip) (t : Nat) (x : Task) : (ch.setTask t x).walkX = ch.walkX := rfl
@[simp] theorem Chip.setTask_csr (ch : Chip) (t : Nat) (x : Task) : (ch.setTask t x).csr = ch.csr := rfl
@[simp] theorem Chip.setTask_csrCap (ch : Chip) (t : Nat) (x : Task) : (ch.setTask t x).csrCap = ch.csrCap := rfl
@[simp] theorem Chip.setTask_free (ch : Chip) (t : Nat) (x : Task) : (ch.setTask t x).free = ch.free := rfl
@[simp] theorem Chip.setTask_store (ch : Chip) (t : Nat) (x : Task) : (ch.setTask t x).store = ch.store := rfl
@[simp] theorem Chip.setTask_dirty (ch : Chip) (t : Nat) (x : Task) : (ch.setTask t x).dirty = ch.dirty := rfl
@[simp] theorem Chip.setTask_zero (ch : Chip) (t : Nat) (x : Task) : (ch.setTask t x).zero = ch.zero := rfl
@[simp] theorem Chip.setTask_rsBad (ch : Chip) (t : Nat) (x : Task) : (ch.setTask t x).rsBad = ch.rsBad := rfl
@[simp] theorem Chip.setTask_cores (ch : Chip) (t : Nat) (x : Task) : (ch.setTask t x).cores = ch.cores := rfl
@[simp] theorem Chip.setTask_clusters (ch : Chip) (t : Nat) (x : Task) : (ch.setTask t x).clusters = ch.clusters := rfl
@[simp] theorem Chip.setTask_hev (ch : Chip) (t : Nat) (x : Task) : (ch.setTask t x).hev = ch.hev := rfl
@[simp] theorem Chip.setTask_evLost (ch : Chip) (t : Nat) (x : Task) : (ch.setTask t x).evLost = ch.evLost := rfl
@[simp] theorem Chip.setTask_epochs (ch : Chip) (t : Nat) (x : Task) : (ch.setTask t x).epochs = ch.epochs := rfl
@[simp] theorem Chip.setTask_loads (ch : Chip) (t : Nat) (x : Task) : (ch.setTask t x).loads = ch.loads := rfl
@[simp] theorem Chip.setTask_readyAt (ch : Chip) (t : Nat) (x : Task) : (ch.setTask t x).readyAt = ch.readyAt := rfl
@[simp] theorem Chip.setTask_moves (ch : Chip) (t : Nat) (x : Task) : (ch.setTask t x).moves = ch.moves := rfl
@[simp] theorem Chip.setTask_moveFrom (ch : Chip) (t : Nat) (x : Task) : (ch.setTask t x).moveFrom = ch.moveFrom := rfl
@[simp] theorem Chip.setTask_moveEnds (ch : Chip) (t : Nat) (x : Task) : (ch.setTask t x).moveEnds = ch.moveEnds := rfl
@[simp] theorem Chip.setTask_wick (ch : Chip) (t : Nat) (x : Task) : (ch.setTask t x).wick = ch.wick := rfl
@[simp] theorem Chip.setTask_inc (ch : Chip) (t : Nat) (x : Task) : (ch.setTask t x).inc = ch.inc := rfl
@[simp] theorem Chip.setTask_adq (ch : Chip) (t : Nat) (x : Task) : (ch.setTask t x).adq = ch.adq := rfl
@[simp] theorem Chip.setTask_dma (ch : Chip) (t : Nat) (x : Task) : (ch.setTask t x).dma = ch.dma := rfl
@[simp] theorem Chip.setTask_runs (ch : Chip) (t : Nat) (x : Task) : (ch.setTask t x).runs = ch.runs := rfl
@[simp] theorem Chip.setTask_hbq (ch : Chip) (t : Nat) (x : Task) : (ch.setTask t x).hbq = ch.hbq := rfl
@[simp] theorem Chip.setTask_mirq (ch : Chip) (t : Nat) (x : Task) : (ch.setTask t x).mirq = ch.mirq := rfl
@[simp] theorem Chip.setTask_compLoad (ch : Chip) (t : Nat) (x : Task) : (ch.setTask t x).compLoad = ch.compLoad := rfl
@[simp] theorem Chip.setTask_attn (ch : Chip) (t : Nat) (x : Task) : (ch.setTask t x).attn = ch.attn := rfl
@[simp] theorem Chip.setTask_flow (ch : Chip) (t : Nat) (x : Task) : (ch.setTask t x).flow = ch.flow := rfl
@[simp] theorem Chip.setTask_mir (ch : Chip) (t : Nat) (x : Task) : (ch.setTask t x).mir = ch.mir := rfl
@[simp] theorem Chip.setTask_adrus (ch : Chip) (t : Nat) (x : Task) : (ch.setTask t x).adrus = ch.adrus := rfl
@[simp] theorem Chip.setTask_bg (ch : Chip) (t : Nat) (x : Task) : (ch.setTask t x).bg = ch.bg := rfl
@[simp] theorem Chip.setTask_half (ch : Chip) (t : Nat) (x : Task) : (ch.setTask t x).half = ch.half := rfl
@[simp] theorem Chip.setTask_sweepQ (ch : Chip) (t : Nat) (x : Task) : (ch.setTask t x).sweepQ = ch.sweepQ := rfl
@[simp] theorem Chip.setTask_sweep (ch : Chip) (t : Nat) (x : Task) : (ch.setTask t x).sweep = ch.sweep := rfl

@[simp] theorem Chip.updTask_ram (ch : Chip) (t : Nat) (f : Task → Task) : (ch.updTask t f).ram = ch.ram := rfl
@[simp] theorem Chip.updTask_tagc (ch : Chip) (t : Nat) (f : Task → Task) : (ch.updTask t f).tagc = ch.tagc := rfl
@[simp] theorem Chip.updTask_carry (ch : Chip) (t : Nat) (f : Task → Task) : (ch.updTask t f).carry = ch.carry := rfl
@[simp] theorem Chip.updTask_clmTen (ch : Chip) (t : Nat) (f : Task → Task) : (ch.updTask t f).clmTen = ch.clmTen := rfl
@[simp] theorem Chip.updTask_walkX (ch : Chip) (t : Nat) (f : Task → Task) : (ch.updTask t f).walkX = ch.walkX := rfl
@[simp] theorem Chip.updTask_csr (ch : Chip) (t : Nat) (f : Task → Task) : (ch.updTask t f).csr = ch.csr := rfl
@[simp] theorem Chip.updTask_csrCap (ch : Chip) (t : Nat) (f : Task → Task) : (ch.updTask t f).csrCap = ch.csrCap := rfl
@[simp] theorem Chip.updTask_free (ch : Chip) (t : Nat) (f : Task → Task) : (ch.updTask t f).free = ch.free := rfl
@[simp] theorem Chip.updTask_store (ch : Chip) (t : Nat) (f : Task → Task) : (ch.updTask t f).store = ch.store := rfl
@[simp] theorem Chip.updTask_dirty (ch : Chip) (t : Nat) (f : Task → Task) : (ch.updTask t f).dirty = ch.dirty := rfl
@[simp] theorem Chip.updTask_zero (ch : Chip) (t : Nat) (f : Task → Task) : (ch.updTask t f).zero = ch.zero := rfl
@[simp] theorem Chip.updTask_rsBad (ch : Chip) (t : Nat) (f : Task → Task) : (ch.updTask t f).rsBad = ch.rsBad := rfl
@[simp] theorem Chip.updTask_cores (ch : Chip) (t : Nat) (f : Task → Task) : (ch.updTask t f).cores = ch.cores := rfl
@[simp] theorem Chip.updTask_clusters (ch : Chip) (t : Nat) (f : Task → Task) : (ch.updTask t f).clusters = ch.clusters := rfl
@[simp] theorem Chip.updTask_hev (ch : Chip) (t : Nat) (f : Task → Task) : (ch.updTask t f).hev = ch.hev := rfl
@[simp] theorem Chip.updTask_evLost (ch : Chip) (t : Nat) (f : Task → Task) : (ch.updTask t f).evLost = ch.evLost := rfl
@[simp] theorem Chip.updTask_epochs (ch : Chip) (t : Nat) (f : Task → Task) : (ch.updTask t f).epochs = ch.epochs := rfl
@[simp] theorem Chip.updTask_loads (ch : Chip) (t : Nat) (f : Task → Task) : (ch.updTask t f).loads = ch.loads := rfl
@[simp] theorem Chip.updTask_readyAt (ch : Chip) (t : Nat) (f : Task → Task) : (ch.updTask t f).readyAt = ch.readyAt := rfl
@[simp] theorem Chip.updTask_moves (ch : Chip) (t : Nat) (f : Task → Task) : (ch.updTask t f).moves = ch.moves := rfl
@[simp] theorem Chip.updTask_moveFrom (ch : Chip) (t : Nat) (f : Task → Task) : (ch.updTask t f).moveFrom = ch.moveFrom := rfl
@[simp] theorem Chip.updTask_moveEnds (ch : Chip) (t : Nat) (f : Task → Task) : (ch.updTask t f).moveEnds = ch.moveEnds := rfl
@[simp] theorem Chip.updTask_wick (ch : Chip) (t : Nat) (f : Task → Task) : (ch.updTask t f).wick = ch.wick := rfl
@[simp] theorem Chip.updTask_inc (ch : Chip) (t : Nat) (f : Task → Task) : (ch.updTask t f).inc = ch.inc := rfl
@[simp] theorem Chip.updTask_adq (ch : Chip) (t : Nat) (f : Task → Task) : (ch.updTask t f).adq = ch.adq := rfl
@[simp] theorem Chip.updTask_dma (ch : Chip) (t : Nat) (f : Task → Task) : (ch.updTask t f).dma = ch.dma := rfl
@[simp] theorem Chip.updTask_runs (ch : Chip) (t : Nat) (f : Task → Task) : (ch.updTask t f).runs = ch.runs := rfl
@[simp] theorem Chip.updTask_hbq (ch : Chip) (t : Nat) (f : Task → Task) : (ch.updTask t f).hbq = ch.hbq := rfl
@[simp] theorem Chip.updTask_mirq (ch : Chip) (t : Nat) (f : Task → Task) : (ch.updTask t f).mirq = ch.mirq := rfl
@[simp] theorem Chip.updTask_compLoad (ch : Chip) (t : Nat) (f : Task → Task) : (ch.updTask t f).compLoad = ch.compLoad := rfl
@[simp] theorem Chip.updTask_attn (ch : Chip) (t : Nat) (f : Task → Task) : (ch.updTask t f).attn = ch.attn := rfl
@[simp] theorem Chip.updTask_flow (ch : Chip) (t : Nat) (f : Task → Task) : (ch.updTask t f).flow = ch.flow := rfl
@[simp] theorem Chip.updTask_mir (ch : Chip) (t : Nat) (f : Task → Task) : (ch.updTask t f).mir = ch.mir := rfl
@[simp] theorem Chip.updTask_adrus (ch : Chip) (t : Nat) (f : Task → Task) : (ch.updTask t f).adrus = ch.adrus := rfl
@[simp] theorem Chip.updTask_bg (ch : Chip) (t : Nat) (f : Task → Task) : (ch.updTask t f).bg = ch.bg := rfl
@[simp] theorem Chip.updTask_half (ch : Chip) (t : Nat) (f : Task → Task) : (ch.updTask t f).half = ch.half := rfl
@[simp] theorem Chip.updTask_sweepQ (ch : Chip) (t : Nat) (f : Task → Task) : (ch.updTask t f).sweepQ = ch.sweepQ := rfl
@[simp] theorem Chip.updTask_sweep (ch : Chip) (t : Nat) (f : Task → Task) : (ch.updTask t f).sweep = ch.sweep := rfl

@[simp] theorem Chip.updCore_ram (ch : Chip) (k : Nat) (f : CoreSt → CoreSt) : (ch.updCore k f).ram = ch.ram := rfl
@[simp] theorem Chip.updCore_tagc (ch : Chip) (k : Nat) (f : CoreSt → CoreSt) : (ch.updCore k f).tagc = ch.tagc := rfl
@[simp] theorem Chip.updCore_carry (ch : Chip) (k : Nat) (f : CoreSt → CoreSt) : (ch.updCore k f).carry = ch.carry := rfl
@[simp] theorem Chip.updCore_clmTen (ch : Chip) (k : Nat) (f : CoreSt → CoreSt) : (ch.updCore k f).clmTen = ch.clmTen := rfl
@[simp] theorem Chip.updCore_walkX (ch : Chip) (k : Nat) (f : CoreSt → CoreSt) : (ch.updCore k f).walkX = ch.walkX := rfl
@[simp] theorem Chip.updCore_csr (ch : Chip) (k : Nat) (f : CoreSt → CoreSt) : (ch.updCore k f).csr = ch.csr := rfl
@[simp] theorem Chip.updCore_csrCap (ch : Chip) (k : Nat) (f : CoreSt → CoreSt) : (ch.updCore k f).csrCap = ch.csrCap := rfl
@[simp] theorem Chip.updCore_free (ch : Chip) (k : Nat) (f : CoreSt → CoreSt) : (ch.updCore k f).free = ch.free := rfl
@[simp] theorem Chip.updCore_store (ch : Chip) (k : Nat) (f : CoreSt → CoreSt) : (ch.updCore k f).store = ch.store := rfl
@[simp] theorem Chip.updCore_dirty (ch : Chip) (k : Nat) (f : CoreSt → CoreSt) : (ch.updCore k f).dirty = ch.dirty := rfl
@[simp] theorem Chip.updCore_zero (ch : Chip) (k : Nat) (f : CoreSt → CoreSt) : (ch.updCore k f).zero = ch.zero := rfl
@[simp] theorem Chip.updCore_rsBad (ch : Chip) (k : Nat) (f : CoreSt → CoreSt) : (ch.updCore k f).rsBad = ch.rsBad := rfl
@[simp] theorem Chip.updCore_tasks (ch : Chip) (k : Nat) (f : CoreSt → CoreSt) : (ch.updCore k f).tasks = ch.tasks := rfl
@[simp] theorem Chip.updCore_clusters (ch : Chip) (k : Nat) (f : CoreSt → CoreSt) : (ch.updCore k f).clusters = ch.clusters := rfl
@[simp] theorem Chip.updCore_hev (ch : Chip) (k : Nat) (f : CoreSt → CoreSt) : (ch.updCore k f).hev = ch.hev := rfl
@[simp] theorem Chip.updCore_evLost (ch : Chip) (k : Nat) (f : CoreSt → CoreSt) : (ch.updCore k f).evLost = ch.evLost := rfl
@[simp] theorem Chip.updCore_epochs (ch : Chip) (k : Nat) (f : CoreSt → CoreSt) : (ch.updCore k f).epochs = ch.epochs := rfl
@[simp] theorem Chip.updCore_loads (ch : Chip) (k : Nat) (f : CoreSt → CoreSt) : (ch.updCore k f).loads = ch.loads := rfl
@[simp] theorem Chip.updCore_readyAt (ch : Chip) (k : Nat) (f : CoreSt → CoreSt) : (ch.updCore k f).readyAt = ch.readyAt := rfl
@[simp] theorem Chip.updCore_moves (ch : Chip) (k : Nat) (f : CoreSt → CoreSt) : (ch.updCore k f).moves = ch.moves := rfl
@[simp] theorem Chip.updCore_moveFrom (ch : Chip) (k : Nat) (f : CoreSt → CoreSt) : (ch.updCore k f).moveFrom = ch.moveFrom := rfl
@[simp] theorem Chip.updCore_moveEnds (ch : Chip) (k : Nat) (f : CoreSt → CoreSt) : (ch.updCore k f).moveEnds = ch.moveEnds := rfl
@[simp] theorem Chip.updCore_wick (ch : Chip) (k : Nat) (f : CoreSt → CoreSt) : (ch.updCore k f).wick = ch.wick := rfl
@[simp] theorem Chip.updCore_inc (ch : Chip) (k : Nat) (f : CoreSt → CoreSt) : (ch.updCore k f).inc = ch.inc := rfl
@[simp] theorem Chip.updCore_adq (ch : Chip) (k : Nat) (f : CoreSt → CoreSt) : (ch.updCore k f).adq = ch.adq := rfl
@[simp] theorem Chip.updCore_dma (ch : Chip) (k : Nat) (f : CoreSt → CoreSt) : (ch.updCore k f).dma = ch.dma := rfl
@[simp] theorem Chip.updCore_runs (ch : Chip) (k : Nat) (f : CoreSt → CoreSt) : (ch.updCore k f).runs = ch.runs := rfl
@[simp] theorem Chip.updCore_hbq (ch : Chip) (k : Nat) (f : CoreSt → CoreSt) : (ch.updCore k f).hbq = ch.hbq := rfl
@[simp] theorem Chip.updCore_mirq (ch : Chip) (k : Nat) (f : CoreSt → CoreSt) : (ch.updCore k f).mirq = ch.mirq := rfl
@[simp] theorem Chip.updCore_compLoad (ch : Chip) (k : Nat) (f : CoreSt → CoreSt) : (ch.updCore k f).compLoad = ch.compLoad := rfl
@[simp] theorem Chip.updCore_attn (ch : Chip) (k : Nat) (f : CoreSt → CoreSt) : (ch.updCore k f).attn = ch.attn := rfl
@[simp] theorem Chip.updCore_flow (ch : Chip) (k : Nat) (f : CoreSt → CoreSt) : (ch.updCore k f).flow = ch.flow := rfl
@[simp] theorem Chip.updCore_mir (ch : Chip) (k : Nat) (f : CoreSt → CoreSt) : (ch.updCore k f).mir = ch.mir := rfl
@[simp] theorem Chip.updCore_adrus (ch : Chip) (k : Nat) (f : CoreSt → CoreSt) : (ch.updCore k f).adrus = ch.adrus := rfl
@[simp] theorem Chip.updCore_bg (ch : Chip) (k : Nat) (f : CoreSt → CoreSt) : (ch.updCore k f).bg = ch.bg := rfl
@[simp] theorem Chip.updCore_half (ch : Chip) (k : Nat) (f : CoreSt → CoreSt) : (ch.updCore k f).half = ch.half := rfl
@[simp] theorem Chip.updCore_sweepQ (ch : Chip) (k : Nat) (f : CoreSt → CoreSt) : (ch.updCore k f).sweepQ = ch.sweepQ := rfl
@[simp] theorem Chip.updCore_sweep (ch : Chip) (k : Nat) (f : CoreSt → CoreSt) : (ch.updCore k f).sweep = ch.sweep := rfl

@[simp] theorem Chip.updClu_ram (ch : Chip) (c : Nat) (f : Cluster → Cluster) : (ch.updClu c f).ram = ch.ram := rfl
@[simp] theorem Chip.updClu_tagc (ch : Chip) (c : Nat) (f : Cluster → Cluster) : (ch.updClu c f).tagc = ch.tagc := rfl
@[simp] theorem Chip.updClu_carry (ch : Chip) (c : Nat) (f : Cluster → Cluster) : (ch.updClu c f).carry = ch.carry := rfl
@[simp] theorem Chip.updClu_clmTen (ch : Chip) (c : Nat) (f : Cluster → Cluster) : (ch.updClu c f).clmTen = ch.clmTen := rfl
@[simp] theorem Chip.updClu_walkX (ch : Chip) (c : Nat) (f : Cluster → Cluster) : (ch.updClu c f).walkX = ch.walkX := rfl
@[simp] theorem Chip.updClu_csr (ch : Chip) (c : Nat) (f : Cluster → Cluster) : (ch.updClu c f).csr = ch.csr := rfl
@[simp] theorem Chip.updClu_csrCap (ch : Chip) (c : Nat) (f : Cluster → Cluster) : (ch.updClu c f).csrCap = ch.csrCap := rfl
@[simp] theorem Chip.updClu_free (ch : Chip) (c : Nat) (f : Cluster → Cluster) : (ch.updClu c f).free = ch.free := rfl
@[simp] theorem Chip.updClu_store (ch : Chip) (c : Nat) (f : Cluster → Cluster) : (ch.updClu c f).store = ch.store := rfl
@[simp] theorem Chip.updClu_dirty (ch : Chip) (c : Nat) (f : Cluster → Cluster) : (ch.updClu c f).dirty = ch.dirty := rfl
@[simp] theorem Chip.updClu_zero (ch : Chip) (c : Nat) (f : Cluster → Cluster) : (ch.updClu c f).zero = ch.zero := rfl
@[simp] theorem Chip.updClu_rsBad (ch : Chip) (c : Nat) (f : Cluster → Cluster) : (ch.updClu c f).rsBad = ch.rsBad := rfl
@[simp] theorem Chip.updClu_tasks (ch : Chip) (c : Nat) (f : Cluster → Cluster) : (ch.updClu c f).tasks = ch.tasks := rfl
@[simp] theorem Chip.updClu_cores (ch : Chip) (c : Nat) (f : Cluster → Cluster) : (ch.updClu c f).cores = ch.cores := rfl
@[simp] theorem Chip.updClu_hev (ch : Chip) (c : Nat) (f : Cluster → Cluster) : (ch.updClu c f).hev = ch.hev := rfl
@[simp] theorem Chip.updClu_evLost (ch : Chip) (c : Nat) (f : Cluster → Cluster) : (ch.updClu c f).evLost = ch.evLost := rfl
@[simp] theorem Chip.updClu_epochs (ch : Chip) (c : Nat) (f : Cluster → Cluster) : (ch.updClu c f).epochs = ch.epochs := rfl
@[simp] theorem Chip.updClu_loads (ch : Chip) (c : Nat) (f : Cluster → Cluster) : (ch.updClu c f).loads = ch.loads := rfl
@[simp] theorem Chip.updClu_readyAt (ch : Chip) (c : Nat) (f : Cluster → Cluster) : (ch.updClu c f).readyAt = ch.readyAt := rfl
@[simp] theorem Chip.updClu_moves (ch : Chip) (c : Nat) (f : Cluster → Cluster) : (ch.updClu c f).moves = ch.moves := rfl
@[simp] theorem Chip.updClu_moveFrom (ch : Chip) (c : Nat) (f : Cluster → Cluster) : (ch.updClu c f).moveFrom = ch.moveFrom := rfl
@[simp] theorem Chip.updClu_moveEnds (ch : Chip) (c : Nat) (f : Cluster → Cluster) : (ch.updClu c f).moveEnds = ch.moveEnds := rfl
@[simp] theorem Chip.updClu_wick (ch : Chip) (c : Nat) (f : Cluster → Cluster) : (ch.updClu c f).wick = ch.wick := rfl
@[simp] theorem Chip.updClu_inc (ch : Chip) (c : Nat) (f : Cluster → Cluster) : (ch.updClu c f).inc = ch.inc := rfl
@[simp] theorem Chip.updClu_adq (ch : Chip) (c : Nat) (f : Cluster → Cluster) : (ch.updClu c f).adq = ch.adq := rfl
@[simp] theorem Chip.updClu_dma (ch : Chip) (c : Nat) (f : Cluster → Cluster) : (ch.updClu c f).dma = ch.dma := rfl
@[simp] theorem Chip.updClu_runs (ch : Chip) (c : Nat) (f : Cluster → Cluster) : (ch.updClu c f).runs = ch.runs := rfl
@[simp] theorem Chip.updClu_hbq (ch : Chip) (c : Nat) (f : Cluster → Cluster) : (ch.updClu c f).hbq = ch.hbq := rfl
@[simp] theorem Chip.updClu_mirq (ch : Chip) (c : Nat) (f : Cluster → Cluster) : (ch.updClu c f).mirq = ch.mirq := rfl
@[simp] theorem Chip.updClu_compLoad (ch : Chip) (c : Nat) (f : Cluster → Cluster) : (ch.updClu c f).compLoad = ch.compLoad := rfl
@[simp] theorem Chip.updClu_attn (ch : Chip) (c : Nat) (f : Cluster → Cluster) : (ch.updClu c f).attn = ch.attn := rfl
@[simp] theorem Chip.updClu_flow (ch : Chip) (c : Nat) (f : Cluster → Cluster) : (ch.updClu c f).flow = ch.flow := rfl
@[simp] theorem Chip.updClu_mir (ch : Chip) (c : Nat) (f : Cluster → Cluster) : (ch.updClu c f).mir = ch.mir := rfl
@[simp] theorem Chip.updClu_adrus (ch : Chip) (c : Nat) (f : Cluster → Cluster) : (ch.updClu c f).adrus = ch.adrus := rfl
@[simp] theorem Chip.updClu_bg (ch : Chip) (c : Nat) (f : Cluster → Cluster) : (ch.updClu c f).bg = ch.bg := rfl
@[simp] theorem Chip.updClu_half (ch : Chip) (c : Nat) (f : Cluster → Cluster) : (ch.updClu c f).half = ch.half := rfl
@[simp] theorem Chip.updClu_sweepQ (ch : Chip) (c : Nat) (f : Cluster → Cluster) : (ch.updClu c f).sweepQ = ch.sweepQ := rfl
@[simp] theorem Chip.updClu_sweep (ch : Chip) (c : Nat) (f : Cluster → Cluster) : (ch.updClu c f).sweep = ch.sweep := rfl

@[simp] theorem Chip.updWick_ram (ch : Chip) (h : Nat) (f : WickPort → WickPort) : (ch.updWick h f).ram = ch.ram := rfl
@[simp] theorem Chip.updWick_tagc (ch : Chip) (h : Nat) (f : WickPort → WickPort) : (ch.updWick h f).tagc = ch.tagc := rfl
@[simp] theorem Chip.updWick_carry (ch : Chip) (h : Nat) (f : WickPort → WickPort) : (ch.updWick h f).carry = ch.carry := rfl
@[simp] theorem Chip.updWick_clmTen (ch : Chip) (h : Nat) (f : WickPort → WickPort) : (ch.updWick h f).clmTen = ch.clmTen := rfl
@[simp] theorem Chip.updWick_walkX (ch : Chip) (h : Nat) (f : WickPort → WickPort) : (ch.updWick h f).walkX = ch.walkX := rfl
@[simp] theorem Chip.updWick_csr (ch : Chip) (h : Nat) (f : WickPort → WickPort) : (ch.updWick h f).csr = ch.csr := rfl
@[simp] theorem Chip.updWick_csrCap (ch : Chip) (h : Nat) (f : WickPort → WickPort) : (ch.updWick h f).csrCap = ch.csrCap := rfl
@[simp] theorem Chip.updWick_free (ch : Chip) (h : Nat) (f : WickPort → WickPort) : (ch.updWick h f).free = ch.free := rfl
@[simp] theorem Chip.updWick_store (ch : Chip) (h : Nat) (f : WickPort → WickPort) : (ch.updWick h f).store = ch.store := rfl
@[simp] theorem Chip.updWick_dirty (ch : Chip) (h : Nat) (f : WickPort → WickPort) : (ch.updWick h f).dirty = ch.dirty := rfl
@[simp] theorem Chip.updWick_zero (ch : Chip) (h : Nat) (f : WickPort → WickPort) : (ch.updWick h f).zero = ch.zero := rfl
@[simp] theorem Chip.updWick_rsBad (ch : Chip) (h : Nat) (f : WickPort → WickPort) : (ch.updWick h f).rsBad = ch.rsBad := rfl
@[simp] theorem Chip.updWick_tasks (ch : Chip) (h : Nat) (f : WickPort → WickPort) : (ch.updWick h f).tasks = ch.tasks := rfl
@[simp] theorem Chip.updWick_cores (ch : Chip) (h : Nat) (f : WickPort → WickPort) : (ch.updWick h f).cores = ch.cores := rfl
@[simp] theorem Chip.updWick_clusters (ch : Chip) (h : Nat) (f : WickPort → WickPort) : (ch.updWick h f).clusters = ch.clusters := rfl
@[simp] theorem Chip.updWick_hev (ch : Chip) (h : Nat) (f : WickPort → WickPort) : (ch.updWick h f).hev = ch.hev := rfl
@[simp] theorem Chip.updWick_evLost (ch : Chip) (h : Nat) (f : WickPort → WickPort) : (ch.updWick h f).evLost = ch.evLost := rfl
@[simp] theorem Chip.updWick_epochs (ch : Chip) (h : Nat) (f : WickPort → WickPort) : (ch.updWick h f).epochs = ch.epochs := rfl
@[simp] theorem Chip.updWick_loads (ch : Chip) (h : Nat) (f : WickPort → WickPort) : (ch.updWick h f).loads = ch.loads := rfl
@[simp] theorem Chip.updWick_readyAt (ch : Chip) (h : Nat) (f : WickPort → WickPort) : (ch.updWick h f).readyAt = ch.readyAt := rfl
@[simp] theorem Chip.updWick_moves (ch : Chip) (h : Nat) (f : WickPort → WickPort) : (ch.updWick h f).moves = ch.moves := rfl
@[simp] theorem Chip.updWick_moveFrom (ch : Chip) (h : Nat) (f : WickPort → WickPort) : (ch.updWick h f).moveFrom = ch.moveFrom := rfl
@[simp] theorem Chip.updWick_moveEnds (ch : Chip) (h : Nat) (f : WickPort → WickPort) : (ch.updWick h f).moveEnds = ch.moveEnds := rfl
@[simp] theorem Chip.updWick_inc (ch : Chip) (h : Nat) (f : WickPort → WickPort) : (ch.updWick h f).inc = ch.inc := rfl
@[simp] theorem Chip.updWick_adq (ch : Chip) (h : Nat) (f : WickPort → WickPort) : (ch.updWick h f).adq = ch.adq := rfl
@[simp] theorem Chip.updWick_dma (ch : Chip) (h : Nat) (f : WickPort → WickPort) : (ch.updWick h f).dma = ch.dma := rfl
@[simp] theorem Chip.updWick_runs (ch : Chip) (h : Nat) (f : WickPort → WickPort) : (ch.updWick h f).runs = ch.runs := rfl
@[simp] theorem Chip.updWick_hbq (ch : Chip) (h : Nat) (f : WickPort → WickPort) : (ch.updWick h f).hbq = ch.hbq := rfl
@[simp] theorem Chip.updWick_mirq (ch : Chip) (h : Nat) (f : WickPort → WickPort) : (ch.updWick h f).mirq = ch.mirq := rfl
@[simp] theorem Chip.updWick_compLoad (ch : Chip) (h : Nat) (f : WickPort → WickPort) : (ch.updWick h f).compLoad = ch.compLoad := rfl
@[simp] theorem Chip.updWick_attn (ch : Chip) (h : Nat) (f : WickPort → WickPort) : (ch.updWick h f).attn = ch.attn := rfl
@[simp] theorem Chip.updWick_flow (ch : Chip) (h : Nat) (f : WickPort → WickPort) : (ch.updWick h f).flow = ch.flow := rfl
@[simp] theorem Chip.updWick_mir (ch : Chip) (h : Nat) (f : WickPort → WickPort) : (ch.updWick h f).mir = ch.mir := rfl
@[simp] theorem Chip.updWick_adrus (ch : Chip) (h : Nat) (f : WickPort → WickPort) : (ch.updWick h f).adrus = ch.adrus := rfl
@[simp] theorem Chip.updWick_bg (ch : Chip) (h : Nat) (f : WickPort → WickPort) : (ch.updWick h f).bg = ch.bg := rfl
@[simp] theorem Chip.updWick_half (ch : Chip) (h : Nat) (f : WickPort → WickPort) : (ch.updWick h f).half = ch.half := rfl
@[simp] theorem Chip.updWick_sweepQ (ch : Chip) (h : Nat) (f : WickPort → WickPort) : (ch.updWick h f).sweepQ = ch.sweepQ := rfl
@[simp] theorem Chip.updWick_sweep (ch : Chip) (h : Nat) (f : WickPort → WickPort) : (ch.updWick h f).sweep = ch.sweep := rfl

@[simp] theorem Chip.updFlow_ram (ch : Chip) (h : Nat) (f : Flow → Flow) : (ch.updFlow h f).ram = ch.ram := rfl
@[simp] theorem Chip.updFlow_tagc (ch : Chip) (h : Nat) (f : Flow → Flow) : (ch.updFlow h f).tagc = ch.tagc := rfl
@[simp] theorem Chip.updFlow_carry (ch : Chip) (h : Nat) (f : Flow → Flow) : (ch.updFlow h f).carry = ch.carry := rfl
@[simp] theorem Chip.updFlow_clmTen (ch : Chip) (h : Nat) (f : Flow → Flow) : (ch.updFlow h f).clmTen = ch.clmTen := rfl
@[simp] theorem Chip.updFlow_walkX (ch : Chip) (h : Nat) (f : Flow → Flow) : (ch.updFlow h f).walkX = ch.walkX := rfl
@[simp] theorem Chip.updFlow_csr (ch : Chip) (h : Nat) (f : Flow → Flow) : (ch.updFlow h f).csr = ch.csr := rfl
@[simp] theorem Chip.updFlow_csrCap (ch : Chip) (h : Nat) (f : Flow → Flow) : (ch.updFlow h f).csrCap = ch.csrCap := rfl
@[simp] theorem Chip.updFlow_free (ch : Chip) (h : Nat) (f : Flow → Flow) : (ch.updFlow h f).free = ch.free := rfl
@[simp] theorem Chip.updFlow_store (ch : Chip) (h : Nat) (f : Flow → Flow) : (ch.updFlow h f).store = ch.store := rfl
@[simp] theorem Chip.updFlow_dirty (ch : Chip) (h : Nat) (f : Flow → Flow) : (ch.updFlow h f).dirty = ch.dirty := rfl
@[simp] theorem Chip.updFlow_zero (ch : Chip) (h : Nat) (f : Flow → Flow) : (ch.updFlow h f).zero = ch.zero := rfl
@[simp] theorem Chip.updFlow_rsBad (ch : Chip) (h : Nat) (f : Flow → Flow) : (ch.updFlow h f).rsBad = ch.rsBad := rfl
@[simp] theorem Chip.updFlow_tasks (ch : Chip) (h : Nat) (f : Flow → Flow) : (ch.updFlow h f).tasks = ch.tasks := rfl
@[simp] theorem Chip.updFlow_cores (ch : Chip) (h : Nat) (f : Flow → Flow) : (ch.updFlow h f).cores = ch.cores := rfl
@[simp] theorem Chip.updFlow_clusters (ch : Chip) (h : Nat) (f : Flow → Flow) : (ch.updFlow h f).clusters = ch.clusters := rfl
@[simp] theorem Chip.updFlow_hev (ch : Chip) (h : Nat) (f : Flow → Flow) : (ch.updFlow h f).hev = ch.hev := rfl
@[simp] theorem Chip.updFlow_evLost (ch : Chip) (h : Nat) (f : Flow → Flow) : (ch.updFlow h f).evLost = ch.evLost := rfl
@[simp] theorem Chip.updFlow_epochs (ch : Chip) (h : Nat) (f : Flow → Flow) : (ch.updFlow h f).epochs = ch.epochs := rfl
@[simp] theorem Chip.updFlow_loads (ch : Chip) (h : Nat) (f : Flow → Flow) : (ch.updFlow h f).loads = ch.loads := rfl
@[simp] theorem Chip.updFlow_readyAt (ch : Chip) (h : Nat) (f : Flow → Flow) : (ch.updFlow h f).readyAt = ch.readyAt := rfl
@[simp] theorem Chip.updFlow_moves (ch : Chip) (h : Nat) (f : Flow → Flow) : (ch.updFlow h f).moves = ch.moves := rfl
@[simp] theorem Chip.updFlow_moveFrom (ch : Chip) (h : Nat) (f : Flow → Flow) : (ch.updFlow h f).moveFrom = ch.moveFrom := rfl
@[simp] theorem Chip.updFlow_moveEnds (ch : Chip) (h : Nat) (f : Flow → Flow) : (ch.updFlow h f).moveEnds = ch.moveEnds := rfl
@[simp] theorem Chip.updFlow_wick (ch : Chip) (h : Nat) (f : Flow → Flow) : (ch.updFlow h f).wick = ch.wick := rfl
@[simp] theorem Chip.updFlow_inc (ch : Chip) (h : Nat) (f : Flow → Flow) : (ch.updFlow h f).inc = ch.inc := rfl
@[simp] theorem Chip.updFlow_adq (ch : Chip) (h : Nat) (f : Flow → Flow) : (ch.updFlow h f).adq = ch.adq := rfl
@[simp] theorem Chip.updFlow_dma (ch : Chip) (h : Nat) (f : Flow → Flow) : (ch.updFlow h f).dma = ch.dma := rfl
@[simp] theorem Chip.updFlow_runs (ch : Chip) (h : Nat) (f : Flow → Flow) : (ch.updFlow h f).runs = ch.runs := rfl
@[simp] theorem Chip.updFlow_hbq (ch : Chip) (h : Nat) (f : Flow → Flow) : (ch.updFlow h f).hbq = ch.hbq := rfl
@[simp] theorem Chip.updFlow_mirq (ch : Chip) (h : Nat) (f : Flow → Flow) : (ch.updFlow h f).mirq = ch.mirq := rfl
@[simp] theorem Chip.updFlow_compLoad (ch : Chip) (h : Nat) (f : Flow → Flow) : (ch.updFlow h f).compLoad = ch.compLoad := rfl
@[simp] theorem Chip.updFlow_attn (ch : Chip) (h : Nat) (f : Flow → Flow) : (ch.updFlow h f).attn = ch.attn := rfl
@[simp] theorem Chip.updFlow_mir (ch : Chip) (h : Nat) (f : Flow → Flow) : (ch.updFlow h f).mir = ch.mir := rfl
@[simp] theorem Chip.updFlow_adrus (ch : Chip) (h : Nat) (f : Flow → Flow) : (ch.updFlow h f).adrus = ch.adrus := rfl
@[simp] theorem Chip.updFlow_bg (ch : Chip) (h : Nat) (f : Flow → Flow) : (ch.updFlow h f).bg = ch.bg := rfl
@[simp] theorem Chip.updFlow_half (ch : Chip) (h : Nat) (f : Flow → Flow) : (ch.updFlow h f).half = ch.half := rfl
@[simp] theorem Chip.updFlow_sweepQ (ch : Chip) (h : Nat) (f : Flow → Flow) : (ch.updFlow h f).sweepQ = ch.sweepQ := rfl
@[simp] theorem Chip.updFlow_sweep (ch : Chip) (h : Nat) (f : Flow → Flow) : (ch.updFlow h f).sweep = ch.sweep := rfl

@[simp] theorem Chip.updMir_ram (ch : Chip) (h : Nat) (f : MirLink → MirLink) : (ch.updMir h f).ram = ch.ram := rfl
@[simp] theorem Chip.updMir_tagc (ch : Chip) (h : Nat) (f : MirLink → MirLink) : (ch.updMir h f).tagc = ch.tagc := rfl
@[simp] theorem Chip.updMir_carry (ch : Chip) (h : Nat) (f : MirLink → MirLink) : (ch.updMir h f).carry = ch.carry := rfl
@[simp] theorem Chip.updMir_clmTen (ch : Chip) (h : Nat) (f : MirLink → MirLink) : (ch.updMir h f).clmTen = ch.clmTen := rfl
@[simp] theorem Chip.updMir_walkX (ch : Chip) (h : Nat) (f : MirLink → MirLink) : (ch.updMir h f).walkX = ch.walkX := rfl
@[simp] theorem Chip.updMir_csr (ch : Chip) (h : Nat) (f : MirLink → MirLink) : (ch.updMir h f).csr = ch.csr := rfl
@[simp] theorem Chip.updMir_csrCap (ch : Chip) (h : Nat) (f : MirLink → MirLink) : (ch.updMir h f).csrCap = ch.csrCap := rfl
@[simp] theorem Chip.updMir_free (ch : Chip) (h : Nat) (f : MirLink → MirLink) : (ch.updMir h f).free = ch.free := rfl
@[simp] theorem Chip.updMir_store (ch : Chip) (h : Nat) (f : MirLink → MirLink) : (ch.updMir h f).store = ch.store := rfl
@[simp] theorem Chip.updMir_dirty (ch : Chip) (h : Nat) (f : MirLink → MirLink) : (ch.updMir h f).dirty = ch.dirty := rfl
@[simp] theorem Chip.updMir_zero (ch : Chip) (h : Nat) (f : MirLink → MirLink) : (ch.updMir h f).zero = ch.zero := rfl
@[simp] theorem Chip.updMir_rsBad (ch : Chip) (h : Nat) (f : MirLink → MirLink) : (ch.updMir h f).rsBad = ch.rsBad := rfl
@[simp] theorem Chip.updMir_tasks (ch : Chip) (h : Nat) (f : MirLink → MirLink) : (ch.updMir h f).tasks = ch.tasks := rfl
@[simp] theorem Chip.updMir_cores (ch : Chip) (h : Nat) (f : MirLink → MirLink) : (ch.updMir h f).cores = ch.cores := rfl
@[simp] theorem Chip.updMir_clusters (ch : Chip) (h : Nat) (f : MirLink → MirLink) : (ch.updMir h f).clusters = ch.clusters := rfl
@[simp] theorem Chip.updMir_hev (ch : Chip) (h : Nat) (f : MirLink → MirLink) : (ch.updMir h f).hev = ch.hev := rfl
@[simp] theorem Chip.updMir_evLost (ch : Chip) (h : Nat) (f : MirLink → MirLink) : (ch.updMir h f).evLost = ch.evLost := rfl
@[simp] theorem Chip.updMir_epochs (ch : Chip) (h : Nat) (f : MirLink → MirLink) : (ch.updMir h f).epochs = ch.epochs := rfl
@[simp] theorem Chip.updMir_loads (ch : Chip) (h : Nat) (f : MirLink → MirLink) : (ch.updMir h f).loads = ch.loads := rfl
@[simp] theorem Chip.updMir_readyAt (ch : Chip) (h : Nat) (f : MirLink → MirLink) : (ch.updMir h f).readyAt = ch.readyAt := rfl
@[simp] theorem Chip.updMir_moves (ch : Chip) (h : Nat) (f : MirLink → MirLink) : (ch.updMir h f).moves = ch.moves := rfl
@[simp] theorem Chip.updMir_moveFrom (ch : Chip) (h : Nat) (f : MirLink → MirLink) : (ch.updMir h f).moveFrom = ch.moveFrom := rfl
@[simp] theorem Chip.updMir_moveEnds (ch : Chip) (h : Nat) (f : MirLink → MirLink) : (ch.updMir h f).moveEnds = ch.moveEnds := rfl
@[simp] theorem Chip.updMir_wick (ch : Chip) (h : Nat) (f : MirLink → MirLink) : (ch.updMir h f).wick = ch.wick := rfl
@[simp] theorem Chip.updMir_inc (ch : Chip) (h : Nat) (f : MirLink → MirLink) : (ch.updMir h f).inc = ch.inc := rfl
@[simp] theorem Chip.updMir_adq (ch : Chip) (h : Nat) (f : MirLink → MirLink) : (ch.updMir h f).adq = ch.adq := rfl
@[simp] theorem Chip.updMir_dma (ch : Chip) (h : Nat) (f : MirLink → MirLink) : (ch.updMir h f).dma = ch.dma := rfl
@[simp] theorem Chip.updMir_runs (ch : Chip) (h : Nat) (f : MirLink → MirLink) : (ch.updMir h f).runs = ch.runs := rfl
@[simp] theorem Chip.updMir_hbq (ch : Chip) (h : Nat) (f : MirLink → MirLink) : (ch.updMir h f).hbq = ch.hbq := rfl
@[simp] theorem Chip.updMir_mirq (ch : Chip) (h : Nat) (f : MirLink → MirLink) : (ch.updMir h f).mirq = ch.mirq := rfl
@[simp] theorem Chip.updMir_compLoad (ch : Chip) (h : Nat) (f : MirLink → MirLink) : (ch.updMir h f).compLoad = ch.compLoad := rfl
@[simp] theorem Chip.updMir_attn (ch : Chip) (h : Nat) (f : MirLink → MirLink) : (ch.updMir h f).attn = ch.attn := rfl
@[simp] theorem Chip.updMir_flow (ch : Chip) (h : Nat) (f : MirLink → MirLink) : (ch.updMir h f).flow = ch.flow := rfl
@[simp] theorem Chip.updMir_adrus (ch : Chip) (h : Nat) (f : MirLink → MirLink) : (ch.updMir h f).adrus = ch.adrus := rfl
@[simp] theorem Chip.updMir_bg (ch : Chip) (h : Nat) (f : MirLink → MirLink) : (ch.updMir h f).bg = ch.bg := rfl
@[simp] theorem Chip.updMir_half (ch : Chip) (h : Nat) (f : MirLink → MirLink) : (ch.updMir h f).half = ch.half := rfl
@[simp] theorem Chip.updMir_sweepQ (ch : Chip) (h : Nat) (f : MirLink → MirLink) : (ch.updMir h f).sweepQ = ch.sweepQ := rfl
@[simp] theorem Chip.updMir_sweep (ch : Chip) (h : Nat) (f : MirLink → MirLink) : (ch.updMir h f).sweep = ch.sweep := rfl

@[simp] theorem Chip.updAdrus_ram (ch : Chip) (h : Nat) (f : Adrus → Adrus) : (ch.updAdrus h f).ram = ch.ram := rfl
@[simp] theorem Chip.updAdrus_tagc (ch : Chip) (h : Nat) (f : Adrus → Adrus) : (ch.updAdrus h f).tagc = ch.tagc := rfl
@[simp] theorem Chip.updAdrus_carry (ch : Chip) (h : Nat) (f : Adrus → Adrus) : (ch.updAdrus h f).carry = ch.carry := rfl
@[simp] theorem Chip.updAdrus_clmTen (ch : Chip) (h : Nat) (f : Adrus → Adrus) : (ch.updAdrus h f).clmTen = ch.clmTen := rfl
@[simp] theorem Chip.updAdrus_walkX (ch : Chip) (h : Nat) (f : Adrus → Adrus) : (ch.updAdrus h f).walkX = ch.walkX := rfl
@[simp] theorem Chip.updAdrus_csr (ch : Chip) (h : Nat) (f : Adrus → Adrus) : (ch.updAdrus h f).csr = ch.csr := rfl
@[simp] theorem Chip.updAdrus_csrCap (ch : Chip) (h : Nat) (f : Adrus → Adrus) : (ch.updAdrus h f).csrCap = ch.csrCap := rfl
@[simp] theorem Chip.updAdrus_free (ch : Chip) (h : Nat) (f : Adrus → Adrus) : (ch.updAdrus h f).free = ch.free := rfl
@[simp] theorem Chip.updAdrus_store (ch : Chip) (h : Nat) (f : Adrus → Adrus) : (ch.updAdrus h f).store = ch.store := rfl
@[simp] theorem Chip.updAdrus_dirty (ch : Chip) (h : Nat) (f : Adrus → Adrus) : (ch.updAdrus h f).dirty = ch.dirty := rfl
@[simp] theorem Chip.updAdrus_zero (ch : Chip) (h : Nat) (f : Adrus → Adrus) : (ch.updAdrus h f).zero = ch.zero := rfl
@[simp] theorem Chip.updAdrus_rsBad (ch : Chip) (h : Nat) (f : Adrus → Adrus) : (ch.updAdrus h f).rsBad = ch.rsBad := rfl
@[simp] theorem Chip.updAdrus_tasks (ch : Chip) (h : Nat) (f : Adrus → Adrus) : (ch.updAdrus h f).tasks = ch.tasks := rfl
@[simp] theorem Chip.updAdrus_cores (ch : Chip) (h : Nat) (f : Adrus → Adrus) : (ch.updAdrus h f).cores = ch.cores := rfl
@[simp] theorem Chip.updAdrus_clusters (ch : Chip) (h : Nat) (f : Adrus → Adrus) : (ch.updAdrus h f).clusters = ch.clusters := rfl
@[simp] theorem Chip.updAdrus_hev (ch : Chip) (h : Nat) (f : Adrus → Adrus) : (ch.updAdrus h f).hev = ch.hev := rfl
@[simp] theorem Chip.updAdrus_evLost (ch : Chip) (h : Nat) (f : Adrus → Adrus) : (ch.updAdrus h f).evLost = ch.evLost := rfl
@[simp] theorem Chip.updAdrus_epochs (ch : Chip) (h : Nat) (f : Adrus → Adrus) : (ch.updAdrus h f).epochs = ch.epochs := rfl
@[simp] theorem Chip.updAdrus_loads (ch : Chip) (h : Nat) (f : Adrus → Adrus) : (ch.updAdrus h f).loads = ch.loads := rfl
@[simp] theorem Chip.updAdrus_readyAt (ch : Chip) (h : Nat) (f : Adrus → Adrus) : (ch.updAdrus h f).readyAt = ch.readyAt := rfl
@[simp] theorem Chip.updAdrus_moves (ch : Chip) (h : Nat) (f : Adrus → Adrus) : (ch.updAdrus h f).moves = ch.moves := rfl
@[simp] theorem Chip.updAdrus_moveFrom (ch : Chip) (h : Nat) (f : Adrus → Adrus) : (ch.updAdrus h f).moveFrom = ch.moveFrom := rfl
@[simp] theorem Chip.updAdrus_moveEnds (ch : Chip) (h : Nat) (f : Adrus → Adrus) : (ch.updAdrus h f).moveEnds = ch.moveEnds := rfl
@[simp] theorem Chip.updAdrus_wick (ch : Chip) (h : Nat) (f : Adrus → Adrus) : (ch.updAdrus h f).wick = ch.wick := rfl
@[simp] theorem Chip.updAdrus_inc (ch : Chip) (h : Nat) (f : Adrus → Adrus) : (ch.updAdrus h f).inc = ch.inc := rfl
@[simp] theorem Chip.updAdrus_adq (ch : Chip) (h : Nat) (f : Adrus → Adrus) : (ch.updAdrus h f).adq = ch.adq := rfl
@[simp] theorem Chip.updAdrus_dma (ch : Chip) (h : Nat) (f : Adrus → Adrus) : (ch.updAdrus h f).dma = ch.dma := rfl
@[simp] theorem Chip.updAdrus_runs (ch : Chip) (h : Nat) (f : Adrus → Adrus) : (ch.updAdrus h f).runs = ch.runs := rfl
@[simp] theorem Chip.updAdrus_hbq (ch : Chip) (h : Nat) (f : Adrus → Adrus) : (ch.updAdrus h f).hbq = ch.hbq := rfl
@[simp] theorem Chip.updAdrus_mirq (ch : Chip) (h : Nat) (f : Adrus → Adrus) : (ch.updAdrus h f).mirq = ch.mirq := rfl
@[simp] theorem Chip.updAdrus_compLoad (ch : Chip) (h : Nat) (f : Adrus → Adrus) : (ch.updAdrus h f).compLoad = ch.compLoad := rfl
@[simp] theorem Chip.updAdrus_attn (ch : Chip) (h : Nat) (f : Adrus → Adrus) : (ch.updAdrus h f).attn = ch.attn := rfl
@[simp] theorem Chip.updAdrus_flow (ch : Chip) (h : Nat) (f : Adrus → Adrus) : (ch.updAdrus h f).flow = ch.flow := rfl
@[simp] theorem Chip.updAdrus_mir (ch : Chip) (h : Nat) (f : Adrus → Adrus) : (ch.updAdrus h f).mir = ch.mir := rfl
@[simp] theorem Chip.updAdrus_bg (ch : Chip) (h : Nat) (f : Adrus → Adrus) : (ch.updAdrus h f).bg = ch.bg := rfl
@[simp] theorem Chip.updAdrus_half (ch : Chip) (h : Nat) (f : Adrus → Adrus) : (ch.updAdrus h f).half = ch.half := rfl
@[simp] theorem Chip.updAdrus_sweepQ (ch : Chip) (h : Nat) (f : Adrus → Adrus) : (ch.updAdrus h f).sweepQ = ch.sweepQ := rfl
@[simp] theorem Chip.updAdrus_sweep (ch : Chip) (h : Nat) (f : Adrus → Adrus) : (ch.updAdrus h f).sweep = ch.sweep := rfl

@[simp] theorem Chip.updBg_ram (ch : Chip) (h : Nat) (f : Bg → Bg) : (ch.updBg h f).ram = ch.ram := rfl
@[simp] theorem Chip.updBg_tagc (ch : Chip) (h : Nat) (f : Bg → Bg) : (ch.updBg h f).tagc = ch.tagc := rfl
@[simp] theorem Chip.updBg_carry (ch : Chip) (h : Nat) (f : Bg → Bg) : (ch.updBg h f).carry = ch.carry := rfl
@[simp] theorem Chip.updBg_clmTen (ch : Chip) (h : Nat) (f : Bg → Bg) : (ch.updBg h f).clmTen = ch.clmTen := rfl
@[simp] theorem Chip.updBg_walkX (ch : Chip) (h : Nat) (f : Bg → Bg) : (ch.updBg h f).walkX = ch.walkX := rfl
@[simp] theorem Chip.updBg_csr (ch : Chip) (h : Nat) (f : Bg → Bg) : (ch.updBg h f).csr = ch.csr := rfl
@[simp] theorem Chip.updBg_csrCap (ch : Chip) (h : Nat) (f : Bg → Bg) : (ch.updBg h f).csrCap = ch.csrCap := rfl
@[simp] theorem Chip.updBg_free (ch : Chip) (h : Nat) (f : Bg → Bg) : (ch.updBg h f).free = ch.free := rfl
@[simp] theorem Chip.updBg_store (ch : Chip) (h : Nat) (f : Bg → Bg) : (ch.updBg h f).store = ch.store := rfl
@[simp] theorem Chip.updBg_dirty (ch : Chip) (h : Nat) (f : Bg → Bg) : (ch.updBg h f).dirty = ch.dirty := rfl
@[simp] theorem Chip.updBg_zero (ch : Chip) (h : Nat) (f : Bg → Bg) : (ch.updBg h f).zero = ch.zero := rfl
@[simp] theorem Chip.updBg_rsBad (ch : Chip) (h : Nat) (f : Bg → Bg) : (ch.updBg h f).rsBad = ch.rsBad := rfl
@[simp] theorem Chip.updBg_tasks (ch : Chip) (h : Nat) (f : Bg → Bg) : (ch.updBg h f).tasks = ch.tasks := rfl
@[simp] theorem Chip.updBg_cores (ch : Chip) (h : Nat) (f : Bg → Bg) : (ch.updBg h f).cores = ch.cores := rfl
@[simp] theorem Chip.updBg_clusters (ch : Chip) (h : Nat) (f : Bg → Bg) : (ch.updBg h f).clusters = ch.clusters := rfl
@[simp] theorem Chip.updBg_hev (ch : Chip) (h : Nat) (f : Bg → Bg) : (ch.updBg h f).hev = ch.hev := rfl
@[simp] theorem Chip.updBg_evLost (ch : Chip) (h : Nat) (f : Bg → Bg) : (ch.updBg h f).evLost = ch.evLost := rfl
@[simp] theorem Chip.updBg_epochs (ch : Chip) (h : Nat) (f : Bg → Bg) : (ch.updBg h f).epochs = ch.epochs := rfl
@[simp] theorem Chip.updBg_loads (ch : Chip) (h : Nat) (f : Bg → Bg) : (ch.updBg h f).loads = ch.loads := rfl
@[simp] theorem Chip.updBg_readyAt (ch : Chip) (h : Nat) (f : Bg → Bg) : (ch.updBg h f).readyAt = ch.readyAt := rfl
@[simp] theorem Chip.updBg_moves (ch : Chip) (h : Nat) (f : Bg → Bg) : (ch.updBg h f).moves = ch.moves := rfl
@[simp] theorem Chip.updBg_moveFrom (ch : Chip) (h : Nat) (f : Bg → Bg) : (ch.updBg h f).moveFrom = ch.moveFrom := rfl
@[simp] theorem Chip.updBg_moveEnds (ch : Chip) (h : Nat) (f : Bg → Bg) : (ch.updBg h f).moveEnds = ch.moveEnds := rfl
@[simp] theorem Chip.updBg_wick (ch : Chip) (h : Nat) (f : Bg → Bg) : (ch.updBg h f).wick = ch.wick := rfl
@[simp] theorem Chip.updBg_inc (ch : Chip) (h : Nat) (f : Bg → Bg) : (ch.updBg h f).inc = ch.inc := rfl
@[simp] theorem Chip.updBg_adq (ch : Chip) (h : Nat) (f : Bg → Bg) : (ch.updBg h f).adq = ch.adq := rfl
@[simp] theorem Chip.updBg_dma (ch : Chip) (h : Nat) (f : Bg → Bg) : (ch.updBg h f).dma = ch.dma := rfl
@[simp] theorem Chip.updBg_runs (ch : Chip) (h : Nat) (f : Bg → Bg) : (ch.updBg h f).runs = ch.runs := rfl
@[simp] theorem Chip.updBg_hbq (ch : Chip) (h : Nat) (f : Bg → Bg) : (ch.updBg h f).hbq = ch.hbq := rfl
@[simp] theorem Chip.updBg_mirq (ch : Chip) (h : Nat) (f : Bg → Bg) : (ch.updBg h f).mirq = ch.mirq := rfl
@[simp] theorem Chip.updBg_compLoad (ch : Chip) (h : Nat) (f : Bg → Bg) : (ch.updBg h f).compLoad = ch.compLoad := rfl
@[simp] theorem Chip.updBg_attn (ch : Chip) (h : Nat) (f : Bg → Bg) : (ch.updBg h f).attn = ch.attn := rfl
@[simp] theorem Chip.updBg_flow (ch : Chip) (h : Nat) (f : Bg → Bg) : (ch.updBg h f).flow = ch.flow := rfl
@[simp] theorem Chip.updBg_mir (ch : Chip) (h : Nat) (f : Bg → Bg) : (ch.updBg h f).mir = ch.mir := rfl
@[simp] theorem Chip.updBg_adrus (ch : Chip) (h : Nat) (f : Bg → Bg) : (ch.updBg h f).adrus = ch.adrus := rfl
@[simp] theorem Chip.updBg_half (ch : Chip) (h : Nat) (f : Bg → Bg) : (ch.updBg h f).half = ch.half := rfl
@[simp] theorem Chip.updBg_sweepQ (ch : Chip) (h : Nat) (f : Bg → Bg) : (ch.updBg h f).sweepQ = ch.sweepQ := rfl
@[simp] theorem Chip.updBg_sweep (ch : Chip) (h : Nat) (f : Bg → Bg) : (ch.updBg h f).sweep = ch.sweep := rfl

@[simp] theorem Chip.updHalf_ram (ch : Chip) (h : Nat) (f : Half → Half) : (ch.updHalf h f).ram = ch.ram := rfl
@[simp] theorem Chip.updHalf_tagc (ch : Chip) (h : Nat) (f : Half → Half) : (ch.updHalf h f).tagc = ch.tagc := rfl
@[simp] theorem Chip.updHalf_carry (ch : Chip) (h : Nat) (f : Half → Half) : (ch.updHalf h f).carry = ch.carry := rfl
@[simp] theorem Chip.updHalf_clmTen (ch : Chip) (h : Nat) (f : Half → Half) : (ch.updHalf h f).clmTen = ch.clmTen := rfl
@[simp] theorem Chip.updHalf_walkX (ch : Chip) (h : Nat) (f : Half → Half) : (ch.updHalf h f).walkX = ch.walkX := rfl
@[simp] theorem Chip.updHalf_csr (ch : Chip) (h : Nat) (f : Half → Half) : (ch.updHalf h f).csr = ch.csr := rfl
@[simp] theorem Chip.updHalf_csrCap (ch : Chip) (h : Nat) (f : Half → Half) : (ch.updHalf h f).csrCap = ch.csrCap := rfl
@[simp] theorem Chip.updHalf_free (ch : Chip) (h : Nat) (f : Half → Half) : (ch.updHalf h f).free = ch.free := rfl
@[simp] theorem Chip.updHalf_store (ch : Chip) (h : Nat) (f : Half → Half) : (ch.updHalf h f).store = ch.store := rfl
@[simp] theorem Chip.updHalf_dirty (ch : Chip) (h : Nat) (f : Half → Half) : (ch.updHalf h f).dirty = ch.dirty := rfl
@[simp] theorem Chip.updHalf_zero (ch : Chip) (h : Nat) (f : Half → Half) : (ch.updHalf h f).zero = ch.zero := rfl
@[simp] theorem Chip.updHalf_rsBad (ch : Chip) (h : Nat) (f : Half → Half) : (ch.updHalf h f).rsBad = ch.rsBad := rfl
@[simp] theorem Chip.updHalf_tasks (ch : Chip) (h : Nat) (f : Half → Half) : (ch.updHalf h f).tasks = ch.tasks := rfl
@[simp] theorem Chip.updHalf_cores (ch : Chip) (h : Nat) (f : Half → Half) : (ch.updHalf h f).cores = ch.cores := rfl
@[simp] theorem Chip.updHalf_clusters (ch : Chip) (h : Nat) (f : Half → Half) : (ch.updHalf h f).clusters = ch.clusters := rfl
@[simp] theorem Chip.updHalf_hev (ch : Chip) (h : Nat) (f : Half → Half) : (ch.updHalf h f).hev = ch.hev := rfl
@[simp] theorem Chip.updHalf_evLost (ch : Chip) (h : Nat) (f : Half → Half) : (ch.updHalf h f).evLost = ch.evLost := rfl
@[simp] theorem Chip.updHalf_epochs (ch : Chip) (h : Nat) (f : Half → Half) : (ch.updHalf h f).epochs = ch.epochs := rfl
@[simp] theorem Chip.updHalf_loads (ch : Chip) (h : Nat) (f : Half → Half) : (ch.updHalf h f).loads = ch.loads := rfl
@[simp] theorem Chip.updHalf_readyAt (ch : Chip) (h : Nat) (f : Half → Half) : (ch.updHalf h f).readyAt = ch.readyAt := rfl
@[simp] theorem Chip.updHalf_moves (ch : Chip) (h : Nat) (f : Half → Half) : (ch.updHalf h f).moves = ch.moves := rfl
@[simp] theorem Chip.updHalf_moveFrom (ch : Chip) (h : Nat) (f : Half → Half) : (ch.updHalf h f).moveFrom = ch.moveFrom := rfl
@[simp] theorem Chip.updHalf_moveEnds (ch : Chip) (h : Nat) (f : Half → Half) : (ch.updHalf h f).moveEnds = ch.moveEnds := rfl
@[simp] theorem Chip.updHalf_wick (ch : Chip) (h : Nat) (f : Half → Half) : (ch.updHalf h f).wick = ch.wick := rfl
@[simp] theorem Chip.updHalf_inc (ch : Chip) (h : Nat) (f : Half → Half) : (ch.updHalf h f).inc = ch.inc := rfl
@[simp] theorem Chip.updHalf_adq (ch : Chip) (h : Nat) (f : Half → Half) : (ch.updHalf h f).adq = ch.adq := rfl
@[simp] theorem Chip.updHalf_dma (ch : Chip) (h : Nat) (f : Half → Half) : (ch.updHalf h f).dma = ch.dma := rfl
@[simp] theorem Chip.updHalf_runs (ch : Chip) (h : Nat) (f : Half → Half) : (ch.updHalf h f).runs = ch.runs := rfl
@[simp] theorem Chip.updHalf_hbq (ch : Chip) (h : Nat) (f : Half → Half) : (ch.updHalf h f).hbq = ch.hbq := rfl
@[simp] theorem Chip.updHalf_mirq (ch : Chip) (h : Nat) (f : Half → Half) : (ch.updHalf h f).mirq = ch.mirq := rfl
@[simp] theorem Chip.updHalf_compLoad (ch : Chip) (h : Nat) (f : Half → Half) : (ch.updHalf h f).compLoad = ch.compLoad := rfl
@[simp] theorem Chip.updHalf_attn (ch : Chip) (h : Nat) (f : Half → Half) : (ch.updHalf h f).attn = ch.attn := rfl
@[simp] theorem Chip.updHalf_flow (ch : Chip) (h : Nat) (f : Half → Half) : (ch.updHalf h f).flow = ch.flow := rfl
@[simp] theorem Chip.updHalf_mir (ch : Chip) (h : Nat) (f : Half → Half) : (ch.updHalf h f).mir = ch.mir := rfl
@[simp] theorem Chip.updHalf_adrus (ch : Chip) (h : Nat) (f : Half → Half) : (ch.updHalf h f).adrus = ch.adrus := rfl
@[simp] theorem Chip.updHalf_bg (ch : Chip) (h : Nat) (f : Half → Half) : (ch.updHalf h f).bg = ch.bg := rfl
@[simp] theorem Chip.updHalf_sweepQ (ch : Chip) (h : Nat) (f : Half → Half) : (ch.updHalf h f).sweepQ = ch.sweepQ := rfl
@[simp] theorem Chip.updHalf_sweep (ch : Chip) (h : Nat) (f : Half → Half) : (ch.updHalf h f).sweep = ch.sweep := rfl

@[simp] theorem Chip.setReg_ram (ch : Chip) (d : RegD) (h : Nat) (ix : List Nat) (v : Nat) : (ch.setReg d h ix v).ram = ch.ram := rfl
@[simp] theorem Chip.setReg_tagc (ch : Chip) (d : RegD) (h : Nat) (ix : List Nat) (v : Nat) : (ch.setReg d h ix v).tagc = ch.tagc := rfl
@[simp] theorem Chip.setReg_carry (ch : Chip) (d : RegD) (h : Nat) (ix : List Nat) (v : Nat) : (ch.setReg d h ix v).carry = ch.carry := rfl
@[simp] theorem Chip.setReg_clmTen (ch : Chip) (d : RegD) (h : Nat) (ix : List Nat) (v : Nat) : (ch.setReg d h ix v).clmTen = ch.clmTen := rfl
@[simp] theorem Chip.setReg_walkX (ch : Chip) (d : RegD) (h : Nat) (ix : List Nat) (v : Nat) : (ch.setReg d h ix v).walkX = ch.walkX := rfl
@[simp] theorem Chip.setReg_csrCap (ch : Chip) (d : RegD) (h : Nat) (ix : List Nat) (v : Nat) : (ch.setReg d h ix v).csrCap = ch.csrCap := rfl
@[simp] theorem Chip.setReg_free (ch : Chip) (d : RegD) (h : Nat) (ix : List Nat) (v : Nat) : (ch.setReg d h ix v).free = ch.free := rfl
@[simp] theorem Chip.setReg_store (ch : Chip) (d : RegD) (h : Nat) (ix : List Nat) (v : Nat) : (ch.setReg d h ix v).store = ch.store := rfl
@[simp] theorem Chip.setReg_dirty (ch : Chip) (d : RegD) (h : Nat) (ix : List Nat) (v : Nat) : (ch.setReg d h ix v).dirty = ch.dirty := rfl
@[simp] theorem Chip.setReg_zero (ch : Chip) (d : RegD) (h : Nat) (ix : List Nat) (v : Nat) : (ch.setReg d h ix v).zero = ch.zero := rfl
@[simp] theorem Chip.setReg_rsBad (ch : Chip) (d : RegD) (h : Nat) (ix : List Nat) (v : Nat) : (ch.setReg d h ix v).rsBad = ch.rsBad := rfl
@[simp] theorem Chip.setReg_tasks (ch : Chip) (d : RegD) (h : Nat) (ix : List Nat) (v : Nat) : (ch.setReg d h ix v).tasks = ch.tasks := rfl
@[simp] theorem Chip.setReg_cores (ch : Chip) (d : RegD) (h : Nat) (ix : List Nat) (v : Nat) : (ch.setReg d h ix v).cores = ch.cores := rfl
@[simp] theorem Chip.setReg_clusters (ch : Chip) (d : RegD) (h : Nat) (ix : List Nat) (v : Nat) : (ch.setReg d h ix v).clusters = ch.clusters := rfl
@[simp] theorem Chip.setReg_hev (ch : Chip) (d : RegD) (h : Nat) (ix : List Nat) (v : Nat) : (ch.setReg d h ix v).hev = ch.hev := rfl
@[simp] theorem Chip.setReg_evLost (ch : Chip) (d : RegD) (h : Nat) (ix : List Nat) (v : Nat) : (ch.setReg d h ix v).evLost = ch.evLost := rfl
@[simp] theorem Chip.setReg_epochs (ch : Chip) (d : RegD) (h : Nat) (ix : List Nat) (v : Nat) : (ch.setReg d h ix v).epochs = ch.epochs := rfl
@[simp] theorem Chip.setReg_loads (ch : Chip) (d : RegD) (h : Nat) (ix : List Nat) (v : Nat) : (ch.setReg d h ix v).loads = ch.loads := rfl
@[simp] theorem Chip.setReg_readyAt (ch : Chip) (d : RegD) (h : Nat) (ix : List Nat) (v : Nat) : (ch.setReg d h ix v).readyAt = ch.readyAt := rfl
@[simp] theorem Chip.setReg_moves (ch : Chip) (d : RegD) (h : Nat) (ix : List Nat) (v : Nat) : (ch.setReg d h ix v).moves = ch.moves := rfl
@[simp] theorem Chip.setReg_moveFrom (ch : Chip) (d : RegD) (h : Nat) (ix : List Nat) (v : Nat) : (ch.setReg d h ix v).moveFrom = ch.moveFrom := rfl
@[simp] theorem Chip.setReg_moveEnds (ch : Chip) (d : RegD) (h : Nat) (ix : List Nat) (v : Nat) : (ch.setReg d h ix v).moveEnds = ch.moveEnds := rfl
@[simp] theorem Chip.setReg_wick (ch : Chip) (d : RegD) (h : Nat) (ix : List Nat) (v : Nat) : (ch.setReg d h ix v).wick = ch.wick := rfl
@[simp] theorem Chip.setReg_inc (ch : Chip) (d : RegD) (h : Nat) (ix : List Nat) (v : Nat) : (ch.setReg d h ix v).inc = ch.inc := rfl
@[simp] theorem Chip.setReg_adq (ch : Chip) (d : RegD) (h : Nat) (ix : List Nat) (v : Nat) : (ch.setReg d h ix v).adq = ch.adq := rfl
@[simp] theorem Chip.setReg_dma (ch : Chip) (d : RegD) (h : Nat) (ix : List Nat) (v : Nat) : (ch.setReg d h ix v).dma = ch.dma := rfl
@[simp] theorem Chip.setReg_runs (ch : Chip) (d : RegD) (h : Nat) (ix : List Nat) (v : Nat) : (ch.setReg d h ix v).runs = ch.runs := rfl
@[simp] theorem Chip.setReg_hbq (ch : Chip) (d : RegD) (h : Nat) (ix : List Nat) (v : Nat) : (ch.setReg d h ix v).hbq = ch.hbq := rfl
@[simp] theorem Chip.setReg_mirq (ch : Chip) (d : RegD) (h : Nat) (ix : List Nat) (v : Nat) : (ch.setReg d h ix v).mirq = ch.mirq := rfl
@[simp] theorem Chip.setReg_compLoad (ch : Chip) (d : RegD) (h : Nat) (ix : List Nat) (v : Nat) : (ch.setReg d h ix v).compLoad = ch.compLoad := rfl
@[simp] theorem Chip.setReg_attn (ch : Chip) (d : RegD) (h : Nat) (ix : List Nat) (v : Nat) : (ch.setReg d h ix v).attn = ch.attn := rfl
@[simp] theorem Chip.setReg_flow (ch : Chip) (d : RegD) (h : Nat) (ix : List Nat) (v : Nat) : (ch.setReg d h ix v).flow = ch.flow := rfl
@[simp] theorem Chip.setReg_mir (ch : Chip) (d : RegD) (h : Nat) (ix : List Nat) (v : Nat) : (ch.setReg d h ix v).mir = ch.mir := rfl
@[simp] theorem Chip.setReg_adrus (ch : Chip) (d : RegD) (h : Nat) (ix : List Nat) (v : Nat) : (ch.setReg d h ix v).adrus = ch.adrus := rfl
@[simp] theorem Chip.setReg_bg (ch : Chip) (d : RegD) (h : Nat) (ix : List Nat) (v : Nat) : (ch.setReg d h ix v).bg = ch.bg := rfl
@[simp] theorem Chip.setReg_half (ch : Chip) (d : RegD) (h : Nat) (ix : List Nat) (v : Nat) : (ch.setReg d h ix v).half = ch.half := rfl
@[simp] theorem Chip.setReg_sweepQ (ch : Chip) (d : RegD) (h : Nat) (ix : List Nat) (v : Nat) : (ch.setReg d h ix v).sweepQ = ch.sweepQ := rfl
@[simp] theorem Chip.setReg_sweep (ch : Chip) (d : RegD) (h : Nat) (ix : List Nat) (v : Nat) : (ch.setReg d h ix v).sweep = ch.sweep := rfl

@[simp] theorem Chip.setCapReg_ram (ch : Chip) (d : RegD) (h : Nat) (ix : List Nat) (c : Cap) : (ch.setCapReg d h ix c).ram = ch.ram := rfl
@[simp] theorem Chip.setCapReg_tagc (ch : Chip) (d : RegD) (h : Nat) (ix : List Nat) (c : Cap) : (ch.setCapReg d h ix c).tagc = ch.tagc := rfl
@[simp] theorem Chip.setCapReg_carry (ch : Chip) (d : RegD) (h : Nat) (ix : List Nat) (c : Cap) : (ch.setCapReg d h ix c).carry = ch.carry := rfl
@[simp] theorem Chip.setCapReg_clmTen (ch : Chip) (d : RegD) (h : Nat) (ix : List Nat) (c : Cap) : (ch.setCapReg d h ix c).clmTen = ch.clmTen := rfl
@[simp] theorem Chip.setCapReg_walkX (ch : Chip) (d : RegD) (h : Nat) (ix : List Nat) (c : Cap) : (ch.setCapReg d h ix c).walkX = ch.walkX := rfl
@[simp] theorem Chip.setCapReg_csr (ch : Chip) (d : RegD) (h : Nat) (ix : List Nat) (c : Cap) : (ch.setCapReg d h ix c).csr = ch.csr := rfl
@[simp] theorem Chip.setCapReg_free (ch : Chip) (d : RegD) (h : Nat) (ix : List Nat) (c : Cap) : (ch.setCapReg d h ix c).free = ch.free := rfl
@[simp] theorem Chip.setCapReg_store (ch : Chip) (d : RegD) (h : Nat) (ix : List Nat) (c : Cap) : (ch.setCapReg d h ix c).store = ch.store := rfl
@[simp] theorem Chip.setCapReg_dirty (ch : Chip) (d : RegD) (h : Nat) (ix : List Nat) (c : Cap) : (ch.setCapReg d h ix c).dirty = ch.dirty := rfl
@[simp] theorem Chip.setCapReg_zero (ch : Chip) (d : RegD) (h : Nat) (ix : List Nat) (c : Cap) : (ch.setCapReg d h ix c).zero = ch.zero := rfl
@[simp] theorem Chip.setCapReg_rsBad (ch : Chip) (d : RegD) (h : Nat) (ix : List Nat) (c : Cap) : (ch.setCapReg d h ix c).rsBad = ch.rsBad := rfl
@[simp] theorem Chip.setCapReg_tasks (ch : Chip) (d : RegD) (h : Nat) (ix : List Nat) (c : Cap) : (ch.setCapReg d h ix c).tasks = ch.tasks := rfl
@[simp] theorem Chip.setCapReg_cores (ch : Chip) (d : RegD) (h : Nat) (ix : List Nat) (c : Cap) : (ch.setCapReg d h ix c).cores = ch.cores := rfl
@[simp] theorem Chip.setCapReg_clusters (ch : Chip) (d : RegD) (h : Nat) (ix : List Nat) (c : Cap) : (ch.setCapReg d h ix c).clusters = ch.clusters := rfl
@[simp] theorem Chip.setCapReg_hev (ch : Chip) (d : RegD) (h : Nat) (ix : List Nat) (c : Cap) : (ch.setCapReg d h ix c).hev = ch.hev := rfl
@[simp] theorem Chip.setCapReg_evLost (ch : Chip) (d : RegD) (h : Nat) (ix : List Nat) (c : Cap) : (ch.setCapReg d h ix c).evLost = ch.evLost := rfl
@[simp] theorem Chip.setCapReg_epochs (ch : Chip) (d : RegD) (h : Nat) (ix : List Nat) (c : Cap) : (ch.setCapReg d h ix c).epochs = ch.epochs := rfl
@[simp] theorem Chip.setCapReg_loads (ch : Chip) (d : RegD) (h : Nat) (ix : List Nat) (c : Cap) : (ch.setCapReg d h ix c).loads = ch.loads := rfl
@[simp] theorem Chip.setCapReg_readyAt (ch : Chip) (d : RegD) (h : Nat) (ix : List Nat) (c : Cap) : (ch.setCapReg d h ix c).readyAt = ch.readyAt := rfl
@[simp] theorem Chip.setCapReg_moves (ch : Chip) (d : RegD) (h : Nat) (ix : List Nat) (c : Cap) : (ch.setCapReg d h ix c).moves = ch.moves := rfl
@[simp] theorem Chip.setCapReg_moveFrom (ch : Chip) (d : RegD) (h : Nat) (ix : List Nat) (c : Cap) : (ch.setCapReg d h ix c).moveFrom = ch.moveFrom := rfl
@[simp] theorem Chip.setCapReg_moveEnds (ch : Chip) (d : RegD) (h : Nat) (ix : List Nat) (c : Cap) : (ch.setCapReg d h ix c).moveEnds = ch.moveEnds := rfl
@[simp] theorem Chip.setCapReg_wick (ch : Chip) (d : RegD) (h : Nat) (ix : List Nat) (c : Cap) : (ch.setCapReg d h ix c).wick = ch.wick := rfl
@[simp] theorem Chip.setCapReg_inc (ch : Chip) (d : RegD) (h : Nat) (ix : List Nat) (c : Cap) : (ch.setCapReg d h ix c).inc = ch.inc := rfl
@[simp] theorem Chip.setCapReg_adq (ch : Chip) (d : RegD) (h : Nat) (ix : List Nat) (c : Cap) : (ch.setCapReg d h ix c).adq = ch.adq := rfl
@[simp] theorem Chip.setCapReg_dma (ch : Chip) (d : RegD) (h : Nat) (ix : List Nat) (c : Cap) : (ch.setCapReg d h ix c).dma = ch.dma := rfl
@[simp] theorem Chip.setCapReg_runs (ch : Chip) (d : RegD) (h : Nat) (ix : List Nat) (c : Cap) : (ch.setCapReg d h ix c).runs = ch.runs := rfl
@[simp] theorem Chip.setCapReg_hbq (ch : Chip) (d : RegD) (h : Nat) (ix : List Nat) (c : Cap) : (ch.setCapReg d h ix c).hbq = ch.hbq := rfl
@[simp] theorem Chip.setCapReg_mirq (ch : Chip) (d : RegD) (h : Nat) (ix : List Nat) (c : Cap) : (ch.setCapReg d h ix c).mirq = ch.mirq := rfl
@[simp] theorem Chip.setCapReg_compLoad (ch : Chip) (d : RegD) (h : Nat) (ix : List Nat) (c : Cap) : (ch.setCapReg d h ix c).compLoad = ch.compLoad := rfl
@[simp] theorem Chip.setCapReg_attn (ch : Chip) (d : RegD) (h : Nat) (ix : List Nat) (c : Cap) : (ch.setCapReg d h ix c).attn = ch.attn := rfl
@[simp] theorem Chip.setCapReg_flow (ch : Chip) (d : RegD) (h : Nat) (ix : List Nat) (c : Cap) : (ch.setCapReg d h ix c).flow = ch.flow := rfl
@[simp] theorem Chip.setCapReg_mir (ch : Chip) (d : RegD) (h : Nat) (ix : List Nat) (c : Cap) : (ch.setCapReg d h ix c).mir = ch.mir := rfl
@[simp] theorem Chip.setCapReg_adrus (ch : Chip) (d : RegD) (h : Nat) (ix : List Nat) (c : Cap) : (ch.setCapReg d h ix c).adrus = ch.adrus := rfl
@[simp] theorem Chip.setCapReg_bg (ch : Chip) (d : RegD) (h : Nat) (ix : List Nat) (c : Cap) : (ch.setCapReg d h ix c).bg = ch.bg := rfl
@[simp] theorem Chip.setCapReg_half (ch : Chip) (d : RegD) (h : Nat) (ix : List Nat) (c : Cap) : (ch.setCapReg d h ix c).half = ch.half := rfl
@[simp] theorem Chip.setCapReg_sweepQ (ch : Chip) (d : RegD) (h : Nat) (ix : List Nat) (c : Cap) : (ch.setCapReg d h ix c).sweepQ = ch.sweepQ := rfl
@[simp] theorem Chip.setCapReg_sweep (ch : Chip) (d : RegD) (h : Nat) (ix : List Nat) (c : Cap) : (ch.setCapReg d h ix c).sweep = ch.sweep := rfl

@[simp] theorem Chip.setFld_ram (ch : Chip) (d : RegD) (g : Fld) (h : Nat) (ix : List Nat) (v : Nat) : (ch.setFld d g h ix v).ram = ch.ram := rfl
@[simp] theorem Chip.setFld_tagc (ch : Chip) (d : RegD) (g : Fld) (h : Nat) (ix : List Nat) (v : Nat) : (ch.setFld d g h ix v).tagc = ch.tagc := rfl
@[simp] theorem Chip.setFld_carry (ch : Chip) (d : RegD) (g : Fld) (h : Nat) (ix : List Nat) (v : Nat) : (ch.setFld d g h ix v).carry = ch.carry := rfl
@[simp] theorem Chip.setFld_clmTen (ch : Chip) (d : RegD) (g : Fld) (h : Nat) (ix : List Nat) (v : Nat) : (ch.setFld d g h ix v).clmTen = ch.clmTen := rfl
@[simp] theorem Chip.setFld_walkX (ch : Chip) (d : RegD) (g : Fld) (h : Nat) (ix : List Nat) (v : Nat) : (ch.setFld d g h ix v).walkX = ch.walkX := rfl
@[simp] theorem Chip.setFld_csrCap (ch : Chip) (d : RegD) (g : Fld) (h : Nat) (ix : List Nat) (v : Nat) : (ch.setFld d g h ix v).csrCap = ch.csrCap := rfl
@[simp] theorem Chip.setFld_free (ch : Chip) (d : RegD) (g : Fld) (h : Nat) (ix : List Nat) (v : Nat) : (ch.setFld d g h ix v).free = ch.free := rfl
@[simp] theorem Chip.setFld_store (ch : Chip) (d : RegD) (g : Fld) (h : Nat) (ix : List Nat) (v : Nat) : (ch.setFld d g h ix v).store = ch.store := rfl
@[simp] theorem Chip.setFld_dirty (ch : Chip) (d : RegD) (g : Fld) (h : Nat) (ix : List Nat) (v : Nat) : (ch.setFld d g h ix v).dirty = ch.dirty := rfl
@[simp] theorem Chip.setFld_zero (ch : Chip) (d : RegD) (g : Fld) (h : Nat) (ix : List Nat) (v : Nat) : (ch.setFld d g h ix v).zero = ch.zero := rfl
@[simp] theorem Chip.setFld_rsBad (ch : Chip) (d : RegD) (g : Fld) (h : Nat) (ix : List Nat) (v : Nat) : (ch.setFld d g h ix v).rsBad = ch.rsBad := rfl
@[simp] theorem Chip.setFld_tasks (ch : Chip) (d : RegD) (g : Fld) (h : Nat) (ix : List Nat) (v : Nat) : (ch.setFld d g h ix v).tasks = ch.tasks := rfl
@[simp] theorem Chip.setFld_cores (ch : Chip) (d : RegD) (g : Fld) (h : Nat) (ix : List Nat) (v : Nat) : (ch.setFld d g h ix v).cores = ch.cores := rfl
@[simp] theorem Chip.setFld_clusters (ch : Chip) (d : RegD) (g : Fld) (h : Nat) (ix : List Nat) (v : Nat) : (ch.setFld d g h ix v).clusters = ch.clusters := rfl
@[simp] theorem Chip.setFld_hev (ch : Chip) (d : RegD) (g : Fld) (h : Nat) (ix : List Nat) (v : Nat) : (ch.setFld d g h ix v).hev = ch.hev := rfl
@[simp] theorem Chip.setFld_evLost (ch : Chip) (d : RegD) (g : Fld) (h : Nat) (ix : List Nat) (v : Nat) : (ch.setFld d g h ix v).evLost = ch.evLost := rfl
@[simp] theorem Chip.setFld_epochs (ch : Chip) (d : RegD) (g : Fld) (h : Nat) (ix : List Nat) (v : Nat) : (ch.setFld d g h ix v).epochs = ch.epochs := rfl
@[simp] theorem Chip.setFld_loads (ch : Chip) (d : RegD) (g : Fld) (h : Nat) (ix : List Nat) (v : Nat) : (ch.setFld d g h ix v).loads = ch.loads := rfl
@[simp] theorem Chip.setFld_readyAt (ch : Chip) (d : RegD) (g : Fld) (h : Nat) (ix : List Nat) (v : Nat) : (ch.setFld d g h ix v).readyAt = ch.readyAt := rfl
@[simp] theorem Chip.setFld_moves (ch : Chip) (d : RegD) (g : Fld) (h : Nat) (ix : List Nat) (v : Nat) : (ch.setFld d g h ix v).moves = ch.moves := rfl
@[simp] theorem Chip.setFld_moveFrom (ch : Chip) (d : RegD) (g : Fld) (h : Nat) (ix : List Nat) (v : Nat) : (ch.setFld d g h ix v).moveFrom = ch.moveFrom := rfl
@[simp] theorem Chip.setFld_moveEnds (ch : Chip) (d : RegD) (g : Fld) (h : Nat) (ix : List Nat) (v : Nat) : (ch.setFld d g h ix v).moveEnds = ch.moveEnds := rfl
@[simp] theorem Chip.setFld_wick (ch : Chip) (d : RegD) (g : Fld) (h : Nat) (ix : List Nat) (v : Nat) : (ch.setFld d g h ix v).wick = ch.wick := rfl
@[simp] theorem Chip.setFld_inc (ch : Chip) (d : RegD) (g : Fld) (h : Nat) (ix : List Nat) (v : Nat) : (ch.setFld d g h ix v).inc = ch.inc := rfl
@[simp] theorem Chip.setFld_adq (ch : Chip) (d : RegD) (g : Fld) (h : Nat) (ix : List Nat) (v : Nat) : (ch.setFld d g h ix v).adq = ch.adq := rfl
@[simp] theorem Chip.setFld_dma (ch : Chip) (d : RegD) (g : Fld) (h : Nat) (ix : List Nat) (v : Nat) : (ch.setFld d g h ix v).dma = ch.dma := rfl
@[simp] theorem Chip.setFld_runs (ch : Chip) (d : RegD) (g : Fld) (h : Nat) (ix : List Nat) (v : Nat) : (ch.setFld d g h ix v).runs = ch.runs := rfl
@[simp] theorem Chip.setFld_hbq (ch : Chip) (d : RegD) (g : Fld) (h : Nat) (ix : List Nat) (v : Nat) : (ch.setFld d g h ix v).hbq = ch.hbq := rfl
@[simp] theorem Chip.setFld_mirq (ch : Chip) (d : RegD) (g : Fld) (h : Nat) (ix : List Nat) (v : Nat) : (ch.setFld d g h ix v).mirq = ch.mirq := rfl
@[simp] theorem Chip.setFld_compLoad (ch : Chip) (d : RegD) (g : Fld) (h : Nat) (ix : List Nat) (v : Nat) : (ch.setFld d g h ix v).compLoad = ch.compLoad := rfl
@[simp] theorem Chip.setFld_attn (ch : Chip) (d : RegD) (g : Fld) (h : Nat) (ix : List Nat) (v : Nat) : (ch.setFld d g h ix v).attn = ch.attn := rfl
@[simp] theorem Chip.setFld_flow (ch : Chip) (d : RegD) (g : Fld) (h : Nat) (ix : List Nat) (v : Nat) : (ch.setFld d g h ix v).flow = ch.flow := rfl
@[simp] theorem Chip.setFld_mir (ch : Chip) (d : RegD) (g : Fld) (h : Nat) (ix : List Nat) (v : Nat) : (ch.setFld d g h ix v).mir = ch.mir := rfl
@[simp] theorem Chip.setFld_adrus (ch : Chip) (d : RegD) (g : Fld) (h : Nat) (ix : List Nat) (v : Nat) : (ch.setFld d g h ix v).adrus = ch.adrus := rfl
@[simp] theorem Chip.setFld_bg (ch : Chip) (d : RegD) (g : Fld) (h : Nat) (ix : List Nat) (v : Nat) : (ch.setFld d g h ix v).bg = ch.bg := rfl
@[simp] theorem Chip.setFld_half (ch : Chip) (d : RegD) (g : Fld) (h : Nat) (ix : List Nat) (v : Nat) : (ch.setFld d g h ix v).half = ch.half := rfl
@[simp] theorem Chip.setFld_sweepQ (ch : Chip) (d : RegD) (g : Fld) (h : Nat) (ix : List Nat) (v : Nat) : (ch.setFld d g h ix v).sweepQ = ch.sweepQ := rfl
@[simp] theorem Chip.setFld_sweep (ch : Chip) (d : RegD) (g : Fld) (h : Nat) (ix : List Nat) (v : Nat) : (ch.setFld d g h ix v).sweep = ch.sweep := rfl

@[simp] theorem Chip.setTask_core (ch : Chip) (t : Nat) (x : Task) (u : Nat) : (ch.setTask t x).core u = ch.core u := rfl
@[simp] theorem Chip.setTask_clu (ch : Chip) (t : Nat) (x : Task) (u : Nat) : (ch.setTask t x).clu u = ch.clu u := rfl
@[simp] theorem Chip.updTask_core (ch : Chip) (t : Nat) (f : Task → Task) (u : Nat) : (ch.updTask t f).core u = ch.core u := rfl
@[simp] theorem Chip.updTask_clu (ch : Chip) (t : Nat) (f : Task → Task) (u : Nat) : (ch.updTask t f).clu u = ch.clu u := rfl
@[simp] theorem Chip.updCore_task (ch : Chip) (k : Nat) (f : CoreSt → CoreSt) (u : Nat) : (ch.updCore k f).task u = ch.task u := rfl
@[simp] theorem Chip.updCore_clu (ch : Chip) (k : Nat) (f : CoreSt → CoreSt) (u : Nat) : (ch.updCore k f).clu u = ch.clu u := rfl
@[simp] theorem Chip.updClu_task (ch : Chip) (c : Nat) (f : Cluster → Cluster) (u : Nat) : (ch.updClu c f).task u = ch.task u := rfl
@[simp] theorem Chip.updClu_core (ch : Chip) (c : Nat) (f : Cluster → Cluster) (u : Nat) : (ch.updClu c f).core u = ch.core u := rfl
@[simp] theorem Chip.updWick_task (ch : Chip) (h : Nat) (f : WickPort → WickPort) (u : Nat) : (ch.updWick h f).task u = ch.task u := rfl
@[simp] theorem Chip.updWick_core (ch : Chip) (h : Nat) (f : WickPort → WickPort) (u : Nat) : (ch.updWick h f).core u = ch.core u := rfl
@[simp] theorem Chip.updWick_clu (ch : Chip) (h : Nat) (f : WickPort → WickPort) (u : Nat) : (ch.updWick h f).clu u = ch.clu u := rfl
@[simp] theorem Chip.updFlow_task (ch : Chip) (h : Nat) (f : Flow → Flow) (u : Nat) : (ch.updFlow h f).task u = ch.task u := rfl
@[simp] theorem Chip.updFlow_core (ch : Chip) (h : Nat) (f : Flow → Flow) (u : Nat) : (ch.updFlow h f).core u = ch.core u := rfl
@[simp] theorem Chip.updFlow_clu (ch : Chip) (h : Nat) (f : Flow → Flow) (u : Nat) : (ch.updFlow h f).clu u = ch.clu u := rfl
@[simp] theorem Chip.updMir_task (ch : Chip) (h : Nat) (f : MirLink → MirLink) (u : Nat) : (ch.updMir h f).task u = ch.task u := rfl
@[simp] theorem Chip.updMir_core (ch : Chip) (h : Nat) (f : MirLink → MirLink) (u : Nat) : (ch.updMir h f).core u = ch.core u := rfl
@[simp] theorem Chip.updMir_clu (ch : Chip) (h : Nat) (f : MirLink → MirLink) (u : Nat) : (ch.updMir h f).clu u = ch.clu u := rfl
@[simp] theorem Chip.updAdrus_task (ch : Chip) (h : Nat) (f : Adrus → Adrus) (u : Nat) : (ch.updAdrus h f).task u = ch.task u := rfl
@[simp] theorem Chip.updAdrus_core (ch : Chip) (h : Nat) (f : Adrus → Adrus) (u : Nat) : (ch.updAdrus h f).core u = ch.core u := rfl
@[simp] theorem Chip.updAdrus_clu (ch : Chip) (h : Nat) (f : Adrus → Adrus) (u : Nat) : (ch.updAdrus h f).clu u = ch.clu u := rfl
@[simp] theorem Chip.updBg_task (ch : Chip) (h : Nat) (f : Bg → Bg) (u : Nat) : (ch.updBg h f).task u = ch.task u := rfl
@[simp] theorem Chip.updBg_core (ch : Chip) (h : Nat) (f : Bg → Bg) (u : Nat) : (ch.updBg h f).core u = ch.core u := rfl
@[simp] theorem Chip.updBg_clu (ch : Chip) (h : Nat) (f : Bg → Bg) (u : Nat) : (ch.updBg h f).clu u = ch.clu u := rfl
@[simp] theorem Chip.updHalf_task (ch : Chip) (h : Nat) (f : Half → Half) (u : Nat) : (ch.updHalf h f).task u = ch.task u := rfl
@[simp] theorem Chip.updHalf_core (ch : Chip) (h : Nat) (f : Half → Half) (u : Nat) : (ch.updHalf h f).core u = ch.core u := rfl
@[simp] theorem Chip.updHalf_clu (ch : Chip) (h : Nat) (f : Half → Half) (u : Nat) : (ch.updHalf h f).clu u = ch.clu u := rfl
@[simp] theorem Chip.setReg_task (ch : Chip) (d : RegD) (h : Nat) (ix : List Nat) (v : Nat) (u : Nat) : (ch.setReg d h ix v).task u = ch.task u := rfl
@[simp] theorem Chip.setReg_core (ch : Chip) (d : RegD) (h : Nat) (ix : List Nat) (v : Nat) (u : Nat) : (ch.setReg d h ix v).core u = ch.core u := rfl
@[simp] theorem Chip.setReg_clu (ch : Chip) (d : RegD) (h : Nat) (ix : List Nat) (v : Nat) (u : Nat) : (ch.setReg d h ix v).clu u = ch.clu u := rfl
@[simp] theorem Chip.setCapReg_task (ch : Chip) (d : RegD) (h : Nat) (ix : List Nat) (c : Cap) (u : Nat) : (ch.setCapReg d h ix c).task u = ch.task u := rfl
@[simp] theorem Chip.setCapReg_core (ch : Chip) (d : RegD) (h : Nat) (ix : List Nat) (c : Cap) (u : Nat) : (ch.setCapReg d h ix c).core u = ch.core u := rfl
@[simp] theorem Chip.setCapReg_clu (ch : Chip) (d : RegD) (h : Nat) (ix : List Nat) (c : Cap) (u : Nat) : (ch.setCapReg d h ix c).clu u = ch.clu u := rfl
@[simp] theorem Chip.setFld_task (ch : Chip) (d : RegD) (g : Fld) (h : Nat) (ix : List Nat) (v : Nat) (u : Nat) : (ch.setFld d g h ix v).task u = ch.task u := rfl
@[simp] theorem Chip.setFld_core (ch : Chip) (d : RegD) (g : Fld) (h : Nat) (ix : List Nat) (v : Nat) (u : Nat) : (ch.setFld d g h ix v).core u = ch.core u := rfl
@[simp] theorem Chip.setFld_clu (ch : Chip) (d : RegD) (g : Fld) (h : Nat) (ix : List Nat) (v : Nat) (u : Nat) : (ch.setFld d g h ix v).clu u = ch.clu u := rfl

@[simp] theorem Chip.task_setTask_self (ch : Chip) (t : Nat) (x : Task) : (ch.setTask t x).task t = x := by
  simp [Chip.task, Chip.setTask]
theorem Chip.task_setTask_ne (ch : Chip) (t u : Nat) (x : Task) (h : u ≠ t) : (ch.setTask t x).task u = ch.task u :=
  mGet_mPut_ne _ _ _ _ _ _ h
@[simp] theorem Chip.task_updTask_self (ch : Chip) (t : Nat) (f : Task → Task) : (ch.updTask t f).task t = f (ch.task t) := by
  simp [Chip.updTask]
theorem Chip.task_updTask_ne (ch : Chip) (t u : Nat) (f : Task → Task) (h : u ≠ t) : (ch.updTask t f).task u = ch.task u :=
  Chip.task_setTask_ne _ _ _ _ h
@[simp] theorem Chip.core_updCore_self (ch : Chip) (k : Nat) (f : CoreSt → CoreSt) : (ch.updCore k f).core k = f (ch.core k) := by
  simp [Chip.core, Chip.updCore]
theorem Chip.core_updCore_ne (ch : Chip) (k u : Nat) (f : CoreSt → CoreSt) (h : u ≠ k) : (ch.updCore k f).core u = ch.core u :=
  mGet_mPut_ne _ _ _ _ _ _ h
@[simp] theorem Chip.clu_updClu_self (ch : Chip) (c : Nat) (f : Cluster → Cluster) : (ch.updClu c f).clu c = f (ch.clu c) := by
  simp [Chip.clu, Chip.updClu]
theorem Chip.clu_updClu_ne (ch : Chip) (c u : Nat) (f : Cluster → Cluster) (h : u ≠ c) : (ch.updClu c f).clu u = ch.clu u :=
  mGet_mPut_ne _ _ _ _ _ _ h

/-- A core after any core's update that keeps a part of it keeps that part. -/
theorem Chip.core_updCore_keep {α : Type} (g : CoreSt → α) (ch : Chip) (k u : Nat) (f : CoreSt → CoreSt) (h : ∀ c, g (f c) = g c) :
    g ((ch.updCore k f).core u) = g (ch.core u) := by
  by_cases e : u = k
  · subst e; simp [h]
  · rw [Chip.core_updCore_ne _ _ _ _ e]

/-- The same for a cluster. -/
theorem Chip.clu_updClu_keep {α : Type} (g : Cluster → α) (ch : Chip) (k u : Nat) (f : Cluster → Cluster) (h : ∀ c, g (f c) = g c) :
    g ((ch.updClu k f).clu u) = g (ch.clu u) := by
  by_cases e : u = k
  · subst e; simp [h]
  · rw [Chip.clu_updClu_ne _ _ _ _ e]

/-- A control register as it was just written, below 2^64. -/
theorem Chip.reg_setReg_self (ch : Chip) (d : RegD) (h : Nat) (ix : List Nat) (v : Nat) (hr : regRst d ix < 2 ^ 64) :
    (ch.setReg d h ix v).reg d h ix = v % 2 ^ 64 := by
  have e : mGet? (mPut ch.csr (d.at h ix) (BitVec.ofNat 64 v) (BitVec.ofNat 64 (regRst d ix))) (d.at h ix) =
      if BitVec.ofNat 64 v = BitVec.ofNat 64 (regRst d ix) then none else some (BitVec.ofNat 64 v) := mGet?_mPut_self _ _ _ _
  simp only [Chip.reg, Chip.setReg, e]
  split <;> rename_i h1
  · split at h1 <;> simp_all
    subst h1; simp
  · split at h1
    · rename_i h2
      have := congrArg BitVec.toNat h2
      simp only [BitVec.toNat_ofNat] at this
      omega
    · cases h1

end Sys2Proof.Machine
end

