-- ==== Sys2Proof/Laws/Memory.lean ====
section
/-! SUPPORT. Every memory operation keeps the canonical form of memory: keys strictly rise and no byte listed is the one that
an unlisted address reads as. -/

namespace Sys2Proof.Machine

/-- A bound below a map may be lowered. -/
theorem mSortedAbove_mono {α : Type} {lo lo' : Nat} {m : NMap α} (h : mSortedAbove lo m = true) (hl : lo' ≤ lo) :
    mSortedAbove lo' m = true := by
  cases m with
  | nil => rfl
  | cons e r => simp_all [mSortedAbove]; omega

/-- A map above a bound is sorted. -/
theorem mSorted_of_above {α : Type} {lo : Nat} {m : NMap α} (h : mSortedAbove lo m = true) : mSorted m = true := by
  cases m with
  | nil => rfl
  | cons e r => simp_all [mSortedAbove, mSorted]

/-- Storing above a bound keeps a map above it. -/
theorem mSortedAbove_mSet {α : Type} {lo i : Nat} {v : α} {m : NMap α} (h : mSortedAbove lo m = true) (hi : lo < i) :
    mSortedAbove lo (mSet m i v) = true := by
  induction m generalizing lo with
  | nil => simp [mSet, mSortedAbove, hi]
  | cons e r ih =>
    simp only [mSortedAbove, Bool.and_eq_true, decide_eq_true_eq] at h
    simp only [mSet]
    split
    · simp_all [mSortedAbove]
    · split
      · subst_vars; simp_all [mSortedAbove]
      · simp only [mSortedAbove, Bool.and_eq_true, decide_eq_true_eq]
        exact ⟨h.1, ih h.2 (by omega)⟩

/-- Storing keeps a map sorted. -/
theorem mSorted_mSet {α : Type} {i : Nat} {v : α} {m : NMap α} (h : mSorted m = true) : mSorted (mSet m i v) = true := by
  cases m with
  | nil => simp [mSet, mSorted, mSortedAbove]
  | cons e r =>
    simp only [mSorted] at h
    simp only [mSet]
    split
    · simp_all [mSorted, mSortedAbove]
    · split
      · subst_vars; simp_all [mSorted]
      · exact mSortedAbove_mSet h (by omega)

/-- Keeping part of a map keeps it above a bound. -/
theorem mSortedAbove_filter {α : Type} {lo : Nat} {p : Nat × α → Bool} {m : NMap α} (h : mSortedAbove lo m = true) :
    mSortedAbove lo (m.filter p) = true := by
  induction m generalizing lo with
  | nil => rfl
  | cons e r ih =>
    simp only [mSortedAbove, Bool.and_eq_true, decide_eq_true_eq] at h
    simp only [List.filter_cons]
    split
    · simp only [mSortedAbove, Bool.and_eq_true, decide_eq_true_eq]
      exact ⟨h.1, ih h.2⟩
    · exact mSortedAbove_mono (ih h.2) (by omega)

/-- Removing keys keeps a map sorted. -/
theorem mSorted_mDelIf {α : Type} {p : Nat → Bool} {m : NMap α} (h : mSorted m = true) : mSorted (mDelIf m p) = true := by
  cases m with
  | nil => rfl
  | cons e r =>
    simp only [mSorted] at h
    simp only [mDelIf, List.filter_cons]
    split
    · exact mSortedAbove_filter h
    · exact mSorted_of_above (mSortedAbove_filter h)

/-- Removing one key is keeping the others. -/
theorem mDel_eq {α : Type} (m : NMap α) (i : Nat) : mDel m i = mDelIf m (fun k => decide (i = k)) := by
  induction m with
  | nil => rfl
  | cons e r ih =>
    simp only [mDel, mDelIf, List.filter_cons] at *
    split <;> simp_all

/-- A map of bytes in canonical form. -/
def Canon (m : NMap Byte) : Prop := mSorted m = true ∧ ∀ e ∈ m, e.2 ≠ 0

/-- What a stored map lists. -/
theorem mem_mSet {α : Type} {m : NMap α} {i : Nat} {v : α} {e : Nat × α} (h : e ∈ mSet m i v) : e = (i, v) ∨ e ∈ m := by
  induction m with
  | nil => simp_all [mSet]
  | cons x r ih =>
    simp only [mSet] at h
    split at h
    · simpa using h
    · split at h
      · rcases List.mem_cons.mp h with h | h
        · exact .inl h
        · exact .inr (List.mem_cons_of_mem _ h)
      · rcases List.mem_cons.mp h with h | h
        · exact .inr (h ▸ List.mem_cons_self)
        · exact (ih h).imp id (List.mem_cons_of_mem _)

/-- Removing keys keeps the canonical form. -/
theorem Canon.delIf {m : NMap Byte} (h : Canon m) (p : Nat → Bool) : Canon (mDelIf m p) :=
  ⟨mSorted_mDelIf h.1, fun e he => h.2 e (List.mem_filter.mp he).1⟩

/-- Storing a byte keeps the canonical form. -/
theorem Canon.put {m : NMap Byte} (h : Canon m) (i : Nat) (b : Byte) : Canon (mPut m i b 0) := by
  unfold mPut
  split
  · rw [mDel_eq]; exact h.delIf _
  · rename_i hb
    refine ⟨mSorted_mSet h.1, fun e he => ?_⟩
    rcases mem_mSet he with rfl | he
    · exact hb
    · exact h.2 e he

/-- The canonical form of memory, of its two maps of bytes. -/
theorem Ram.wf_iff (m : Ram) : m.wf = true ↔ Canon m.cells ∧ Canon m.tags := by
  simp only [Ram.wf, Canon, Bool.and_eq_true, List.all_eq_true, bne_iff_ne, ne_eq]
  exact ⟨fun ⟨⟨⟨a, b⟩, c⟩, d⟩ => ⟨⟨a, c⟩, ⟨b, d⟩⟩, fun ⟨⟨a, c⟩, ⟨b, d⟩⟩ => ⟨⟨⟨a, b⟩, c⟩, d⟩⟩

/-- A loop of operations that keep the canonical form keeps it. -/
theorem Ram.wf_foldl {α : Type} {f : Ram → α → Ram} (hf : ∀ m a, m.wf = true → (f m a).wf = true) :
    ∀ (l : List α) (m : Ram), m.wf = true → (l.foldl f m).wf = true
  | [], _, h => h
  | a :: r, m, h => Ram.wf_foldl hf r (f m a) (hf m a h)

theorem Ram.wf_empty : Ram.empty.wf = true := by decide

theorem Ram.wf_wr {m : Ram} (h : m.wf = true) (a : Nat) (b : Byte) : (m.wr a b).wf = true := by
  rw [Ram.wf_iff] at *; exact ⟨h.1.put a b, h.2⟩

theorem Ram.wf_wrN {m : Ram} (h : m.wf = true) (a : Nat) (d : List Byte) : (m.wrN a d).wf = true := by
  induction d generalizing m a with
  | nil => exact h
  | cons b r ih => exact ih (Ram.wf_wr h a b) (a + 1)

theorem Ram.wf_wrLe {m : Ram} (h : m.wf = true) (a n v : Nat) : (m.wrLe a n v).wf = true := Ram.wf_wrN h a _

theorem Ram.wf_openBlock {m : Ram} (h : m.wf = true) (a : Nat) : (m.openBlock a).wf = true := by
  unfold Ram.openBlock
  split
  · rw [Ram.wf_iff] at *; exact ⟨h.1, Canon.delIf h.2 (fun l => decide (l / 2 ^ 12 = a / 2 ^ 18))⟩
  · exact h

theorem Ram.wf_setTagByte {m : Ram} (h : m.wf = true) (a v : Nat) : (m.setTagByte a v).wf = true := by
  unfold Ram.setTagByte
  split
  · exact h
  · have := Ram.wf_openBlock h a
    rw [Ram.wf_iff] at *; exact ⟨this.1, this.2.put _ _⟩

theorem Ram.wf_setTag {m : Ram} (h : m.wf = true) (a : Nat) (t : Bool) : (m.setTag a t).wf = true := Ram.wf_setTagByte h a _

theorem Ram.wf_clearTags {m : Ram} (h : m.wf = true) (a n : Nat) : (m.clearTags a n).wf = true :=
  Ram.wf_foldl (fun _ i h => Ram.wf_setTag h ((a / 16 + i) * 16) false) _ m h

theorem Ram.wf_claim {m : Ram} (h : m.wf = true) (a k : Nat) : (m.claim a k).wf = true := by
  refine Ram.wf_setTagByte ?_ a _
  rw [Ram.wf_iff] at *; exact ⟨Canon.delIf h.1 (fun x => decide (x / 64 = a / 64)), h.2⟩

theorem Ram.wf_write {m : Ram} (h : m.wf = true) (a : Nat) (d : List Byte) : (m.write a d).wf = true := by
  unfold Ram.write
  split
  · exact h
  · exact Ram.wf_clearTags (Ram.wf_wrN h a d) a _

theorem Ram.wf_wrCap {m : Ram} (h : m.wf = true) (a : Nat) (c : Cap) : (m.wrCap a c).wf = true :=
  Ram.wf_setTag (Ram.wf_wrLe h a 16 _) a _

theorem Ram.wf_wipeRange {m : Ram} (h : m.wf = true) (lo hi : Nat) : (m.wipeRange lo hi).wf = true := by
  rw [Ram.wf_iff] at *; exact ⟨Canon.delIf h.1 (fun a => lo ≤ a && a < hi), Canon.delIf h.2 (fun l => lo ≤ l * 64 && l * 64 < hi)⟩

theorem Ram.wf_poisonLine {m : Ram} (h : m.wf = true) (a : Nat) : (m.poisonLine a).wf = true := h

theorem Ram.wf_poisonPage {m : Ram} (h : m.wf = true) (a : Nat) : (m.poisonPage a).wf = true :=
  Ram.wf_foldl (fun _ i h => Ram.wf_poisonLine h (alignDown a 4096 + 64 * i)) _ m h

theorem Ram.wf_unpoison {m : Ram} (h : m.wf = true) (a : Nat) : (m.unpoison a).wf = true := h

theorem Ram.wf_prepare {m : Ram} (h : m.wf = true) (k a : Nat) : (m.prepare k a).wf = true := by
  unfold Ram.prepare
  split
  · exact Ram.wf_claim h _ k
  · exact h

theorem Ram.wf_storeCap {m : Ram} (h : m.wf = true) (k pa : Nat) (c : Cap) : (m.storeCap k pa c).wf = true :=
  Ram.wf_wrCap (Ram.wf_prepare h k _) pa c

theorem Ram.wf_storeBytes {m : Ram} (h : m.wf = true) (k : Nat) (ps : List Piece) (d : List Byte) :
    (m.storeBytes k ps d).wf = true := by
  unfold Ram.storeBytes
  induction ps generalizing m d with
  | nil => exact h
  | cons p r ih =>
    exact ih (Ram.wf_write (Ram.wf_foldl (fun _ a h => Ram.wf_prepare h k a) (linesOf p) m h) p.pa (d.take p.len)) (d.drop p.len)

theorem Ram.wf_resetHalf {m : Ram} (h : m.wf = true) (i : Nat) : (m.resetHalf i).wf = true :=
  Ram.wf_wipeRange (Ram.wf_wipeRange h _ _) _ _

theorem Chip.wf_paint {ch : Chip} (h : ch.ram.wf = true) (a n k : Nat) : (ch.paint a n k).ram.wf = true :=
  Ram.wf_foldl (fun _ i h => Ram.wf_claim (Ram.wf_unpoison h (a + 64 * i)) (a + 64 * i) k) _ ch.ram h

theorem Chip.wf_fwWrite {ch : Chip} (h : ch.ram.wf = true) (a : Nat) (d : List Byte) : (ch.fwWrite a d).ram.wf = true :=
  Ram.wf_storeBytes h 1 _ d

theorem Chip.wf_fwCap {ch : Chip} (h : ch.ram.wf = true) (a : Nat) (c : Cap) : (ch.fwCap a c).ram.wf = true :=
  Ram.wf_wrCap (Ram.wf_prepare h 1 a) a c

theorem State.wf_reset : State.reset.chip.ram.wf = true := Ram.wf_empty

end Sys2Proof.Machine
end

