-- ==== Sys2Proof/Tests/Slice0.lean ====
section
/-! SUPPORT. Tests of single commands on a small machine, with witnesses that the hypotheses of the statements can be met.
Expected results are taken from the rules of the specification, worked by hand; the vectors of the hashes and signatures are
those of FIPS 180-4 and RFC 8032. The clauses of ANCHOR_READ and of the ledger recovery that need an anchor in flash have no witness here: a valid anchor
needs a signature by the identity key, whose secret is not given (log 3). -/

namespace Sys2Proof.Tests

set_option Elab.async false

open Sys2Proof.Machine

/-! A small machine: reset released, both halves and their clusters out of reset, 64 GiB of DRAM fitted on each half, and
task 0 of core 0 bound to compartment 0 of tenant 0 with the issue slot, at Machine, its PCC at address 0x1000. -/

/-- A capability over the first 64 KiB of half 0's DRAM with every permission, colour 0, cursor at `a`. -/
def capM (a : Nat) : Cap := mkCap 0 0x10000 0x3FFF 0 a

/-- A task about to issue the words, at Machine. -/
def tskM (ws : List IWord) : Task :=
  { Task.reset with pcc := capM 0x1000, bound := some 0, status := 0x6001
                    fq := ws.zipIdx.map (fun e => (0x1000 + 4 * e.2, e.1)) }

/-- A half that has booted. -/
def halfUp : Half := { Half.reset with inReset := false, boot := 3 }

/-- A machine that runs, without tasks. -/
def up : State :=
  { vig := { Vig.reset with resetN := false, lc := 1, recovered := true }
    chip := { Chip.reset with half := ⟨halfUp, halfUp⟩, clusters := [], cores := [(0, { CoreSt.reset with holder := some 0 })]
                              ram := { Ram.empty with fitted := ⟨2 ^ 36, 2 ^ 36⟩ } }
    pending := [] }

/-- The machine with its chip changed. -/
def chip (f : Chip → Chip) (s : State) : State := { s with chip := f s.chip }

/-- The machine with task 0, as `f` changes it, about to issue the words. -/
def run (f : Task → Task) (ws : List IWord) : State := chip (fun c => { c with tasks := [(0, f (tskM ws))] }) up

/-- Registers of task 0, given. -/
def regs (l : List (Nat × Cap)) (s : State) : State := chip (fun c => l.foldl (fun c e => c.wrReg 0 e.1 e.2) c) s

/-- A word of its fields MAJ, A, B, C and MIN (R117). -/
def ins (maj a b c m : Nat) : IWord := BitVec.ofNat 32 (maj * 2 ^ 22 + a * 2 ^ 16 + b * 2 ^ 10 + c * 2 ^ 4 + m)

/-- A word of MAJ and its low 22 bits. -/
def ins22 (maj x : Nat) : IWord := BitVec.ofNat 32 (maj * 2 ^ 22 + x % 2 ^ 22)

/-- A fact about the state that a command leaves. -/
def out {α : Type} (o : Host.Outcome State Fault Refusal) (f : State → α) : Option α :=
  match o with
  | .next s => some (f s)
  | _ => none

/-- The word reaches its body at task 0 and the chip there has the property. -/
def Meets (s : State) (w : IWord) (w2 : Option IWord) (row : Row) (p : Chip → Bool) : Prop :=
  ∃ i, Reaches s 0 w w2 row i ∧ p i.ch = true

/-- The same as a value that `decide` finds. -/
def meetsB (s : State) (w : IWord) (w2 : Option IWord) (row : Row) (p : Chip → Bool) : Bool :=
  !((s.chip.task 0).haltReq && s.vig.rights (s.chip.task 0) && !(s.chip.task 0).busy) &&
    (match s.chip.issueChecks s.vig 0 w w2 row (stepped s 0) with
     | .inl _ => false
     | .inr i => p i.ch)

theorem meets {s : State} {w : IWord} {w2 : Option IWord} {row : Row} {p : Chip → Bool} (h : meetsB s w w2 row p = true) :
    Meets s w w2 row p := by
  simp only [meetsB, Bool.and_eq_true, Bool.not_eq_true'] at h
  cases hc : s.chip.issueChecks s.vig 0 w w2 row (stepped s 0) with
  | inl c => simp [hc] at h
  | inr i => exact ⟨i, ⟨h.1, hc⟩, by simpa [hc] using h.2⟩

/-- Several words at once, each from a state with its own property. -/
theorem meetsAll {l : List (State × IWord × Row × (Chip → Bool))}
    (h : l.all (fun e => meetsB e.1 e.2.1 none e.2.2.1 e.2.2.2) = true) :
    ∀ e ∈ l, Meets e.1 e.2.1 none e.2.2.1 e.2.2.2 := fun e he => meets (List.all_eq_true.mp h e he)

/-- Words that task 0 issues from the plain state, with nothing more asked. -/
theorem meetsPlain {l : List (IWord × Row)} (h : l.all (fun e => meetsB (run id [e.1]) e.1 none e.2 (fun _ => true)) = true) :
    ∀ e ∈ l, Meets (run id [e.1]) e.1 none e.2 (fun _ => true) := fun e he => meets (List.all_eq_true.mp h e he)

/-- A capability over the first 64 KiB of half 0's DRAM of colour `k`. -/
def capC (k a : Nat) : Cap := mkCap 0 0x10000 0x3FFF k a

/-- A capability over cluster 0's local memory. -/
def capL (a : Nat) : Cap := mkCap 0x8040000000 0x1000 0x3FFF 6 a

/-- The trap entries of cluster 0. -/
def traps (s : State) : State :=
  chip (fun c => (c.setCapReg CLU_XVEC_MCH 0 [0] (capM 0x4000)).setCapReg CLU_XVEC_SVC 0 [0] (capM 0x5000)) s

/-- Task 0 with fields of STATUS written. -/
def stat (l : List (Nat × Nat × Nat)) (x : Task) : Task := l.foldl (fun x e => x.putStatus e.1 e.2.1 e.2.2) x

/-- A valid record of compartment `id`: tenant 0, privilege Service, queue of 16 events in slot 0, FLAGS `fl`; its trap entry
is tagged when asked. -/
def comp (id fl : Nat) (trap : Bool) (s : State) : State :=
  chip (fun c =>
    let a := c.recAddr id
    let c := c.paint a 256 1
    let m := (((c.ram.wrCap (a + 16) (capM 0x1000)).wrCap (a + 32) ((capM 0x6000).withTag trap)).wrCap (a + 48)
      (mkCap 0x3000 0x400 0x3FFF 5 0x3400)).wrCap (a + 80) (capM 0x8000)
    { c with ram := m.wrN (a + 96) (leBytes 2 id ++ leBytes 8 0 ++ [1, 1, 2, 4, 0, 0, 0, 0, 0, 0] ++ leBytes 4 0 ++ leBytes 4 0 ++
        leBytes 4 (fl ||| 1)) }) s

/-! Integer, compare, predicate and move instructions. -/

theorem witness_ScalarResults : ∀ e ∈ [(ins 1 3 1 2 0, Row.aluOp), (ins 8 3 1 0 5, .aluImm), (ins 0xC 3 1 0 5, .shiftImm),
    (ins 0xE 3 0 0 5, .movi), (ins 0xF 3 0 0 5, .movsh), (ins 3 3 1 0 0, .unary), (ins 4 0 1 2 0, .mul), (ins 7 3 1 2 0, .crc),
    (ins 5 0x10 1 2 7, .compare), (ins 0xD 0x10 1 0 5, .cmpi), (ins 6 0x10 0 0 0, .predLogic)],
    Meets (run id [e.1]) e.1 none e.2 (fun _ => true) := meetsPlain (by decide +kernel)

theorem witness_AluTable : wMaj (ins 1 3 1 2 13).toNat = 1 ∧ wMin (ins 1 3 1 2 13).toNat = 13 ∧ wMaj (ins 2 3 1 2 8).toNat = 2 ∧
    wMin (ins 2 3 1 2 8).toNat = 8 ∧ wMaj (ins 0xB 3 1 0 5).toNat = 0xB ∧ bf (ins 0xC 3 1 0x30 5).toNat 8 2 = 3 := by decide

theorem witness_PredicateTable : (Task.reset.setPred 7 true).pred 7 = true ∧ (Task.reset.setPred 0 false).pred 0 = true := by decide

theorem witness_UnaryTable : wMaj (ins 3 3 1 1 0).toNat = 3 ∧ wC (ins 3 3 1 1 0).toNat ≠ 0 ∧ 14 < wMin (ins 3 3 1 0 15).toNat ∧
    unaryResult 0 1 = 63 ∧ unaryResult 1 (2 ^ 63) = 63 ∧ unaryResult 0 0 = 64 := by decide +kernel

theorem witness_DivideTable : (5 : Word) ≠ 0 ∧ ¬((7 : Word) = BitVec.intMin 64 ∧ (5 : Word) = -1) ∧
    divResult 2 (BitVec.intMin 64) (-1) = BitVec.intMin 64 := by decide +kernel

/-- The result of a word on registers n1 and n2, read from n3 once it has landed. -/
def alu (i : Instr) (w : IWord) (a b : Nat) : Option Nat :=
  out (exec i (regs [(1, Cap.ofNat a), (2, Cap.ofNat b)] (run id [w])))
    (fun s => ((s.chip.updCore 0 (fun c => { c with cyc := 99 })).settle 0).rdInt 0 3)

theorem test_add_wraps : alu (.aluOp 0 (ins 1 3 1 2 0)) (ins 1 3 1 2 0) (2 ^ 64 - 1) 2 = some 1 := by decide +kernel
theorem test_sraw_sign : alu (.aluOp 0 (ins 2 3 1 2 8)) (ins 2 3 1 2 8) 0x80000000 0x24 = some 0xFFFFFFFFF8000000 := by
  decide +kernel
theorem test_addi_negative : alu (.aluImmediate 0 (ins 8 3 1 0x3F 15)) (ins 8 3 1 0x3F 15) 0 0 = some (2 ^ 64 - 1) := by
  decide +kernel
theorem test_movi_sign : alu (.movi 0 (ins 0xE 3 0x3F 0x3F 15)) (ins 0xE 3 0x3F 0x3F 15) 0 0 = some (2 ^ 64 - 1) := by
  decide +kernel
theorem test_brev : alu (.unaryBitOp 0 (ins 3 3 1 0 4)) (ins 3 3 1 0 4) 1 0 = some (2 ^ 63) := by decide +kernel
theorem test_mulh : out (exec (.mul 0 (ins 4 0 1 2 0)) (regs [(1, Cap.ofNat (2 ^ 64 - 1)), (2, Cap.ofNat 2)]
    (run id [ins 4 0 1 2 0]))) (fun s => (s.chip.task 0).late.map (·.due)) = some [4] := by decide +kernel
theorem test_cmp_signed : out (exec (.compare 0 (ins 5 0x10 1 2 2)) (regs [(1, Cap.ofNat (2 ^ 63)), (2, Cap.ofNat 0)]
    (run id [ins 5 0x10 1 2 2]))) (fun s => (s.chip.task 0).pred 2) = some true := by decide +kernel
theorem test_reserved_minor : out (exec (.aluOp 0 (ins 1 3 1 2 14)) (traps (run id [ins 1 3 1 2 14])))
    (fun s => ((s.chip.task 0).cause.toNat % 256, (s.chip.task 0).pcc.addr)) = some (0x01, 0x4000 + 0x40 * causeVector 0x01) := by
  decide +kernel

/-! How instructions end, the order of their checks, exceptions. -/

theorem witness_InstructionEnd : out (exec (.nop 0 (ins 0x3C 0 0 0 0))
      (run (fun x => { x with lc := 2, ls := 0x800, le := 0x1000 }) [ins 0x3C 0 0 0 0]))
      (fun s => ((s.chip.task 0).pcc.addr, (s.chip.task 0).lc)) = some (0x800, 1) ∧
    out (exec (.nop 0 (ins 0x3C 0 0 0 0)) (run (fun x => { x with lc := 1, ls := 0x800, le := 0x1000 }) [ins 0x3C 0 0 0 0]))
      (fun s => ((s.chip.task 0).pcc.addr, (s.chip.task 0).lc)) = some (0x1004, 0) := by decide +kernel

/-- The state in which task 0 may issue `w`, and what R160's checks find there in order. -/
def order (s : State) (w : IWord) : Bool × Bool × Bool × Bool × Bool × Bool :=
  let c := (s.chip.updCore 0 (fun k => { k with cyc := k.cyc + 1 })).settle 0
  let x := c.task 0
  (s.chip.mayIssue 0 false w none && decide (fetchCheck x.pcc = none) && decide (c.ibpMatch s.vig 0 = none) && decide (x.secondFault w.toNat = none),
    reservedInsn x.tw w.toNat 0 || c.maskReserved 0 w.toNat, selected x w.toNat, privOk x w.toNat, c.depthFault 0 w.toNat 0,
    c.readsBad 0 w.toNat 0)

theorem witness_IssueOrder : [order (run id [ins 1 3 1 2 14]) (ins 1 3 1 2 14), order (run id [ins 0x41 3 1 2 0]) (ins 0x41 3 1 2 0),
    order (run (stat [(13, 2, 0)]) [ins 0x38 0 0 0 6]) (ins 0x38 0 0 0 6),
    order (run (stat [(8, 5, 13)]) [ins 1 3 1 32 0]) (ins 1 3 1 32 0),
    order (chip (fun c => { c with rsBad := [(1, ())] }) (run id [ins 1 3 1 2 0])) (ins 1 3 1 2 0),
    order (run id [ins 1 3 1 2 0]) (ins 1 3 1 2 0)] =
    [(true, true, true, true, false, false), (true, false, false, true, false, false), (true, false, true, false, false, false),
     (true, false, true, true, true, false), (true, false, true, true, false, true), (true, false, true, true, false, false)] := by
  decide +kernel
theorem witness_ExceptionEntry :
    (let c := (traps (run id [])).chip
     let e : Exc := ⟨0x01, 3, false, 0, 0, false, 0x1000, 0, capM 0x1000⟩
     c.handlerLevel 0 e = 3 ∧ (c.trapEntry 0 3).tag = true ∧ (c.trapEntry 0 3).otype = 0 ∧ (c.trapEntry 0 3).has pExec = true ∧
       (c.trapEntry 0 3).has pSystem = true ∧ (cadv (c.trapEntry 0 3) (0x40 * causeVector 1)).tag = true ∧ (c.task 0).tw = false) ∧
    (let c := (comp 0 0 true (run (stat [(13, 2, 0)]) [])).chip
     let e : Exc := ⟨0x07, 0, false, 0, 0, false, 0x1000, 0, capM 0x1000⟩
     c.handlerLevel 0 e = 0 ∧ (c.trapEntry 0 0).tag = true ∧ (cadv (c.trapEntry 0 0) (0x40 * causeVector 7)).tag = true) := by
  decide +kernel

/-- A TRAP of a Machine task saves its PCC sealed (R219, R226). -/
theorem test_trap_saves : out (exec (.trap 0 (ins 0x3C 0 0 0 7)) (traps (run id [ins 0x3C 0 0 0 7])))
    (fun s => let x := s.chip.task 0
      [x.epc.otype, x.epc.addr, x.estatus.toNat, x.cause.toNat % 1024, x.pcc.addr, x.priv, b2n x.tw]) =
    some [0xFFE, 0x1000, 0x6001, 0x307, 0x4000 + 0x40 * causeVector 7, 3, 1] := by decide +kernel

theorem witness_HandlerLevel : causeService 0x30 = true ∧ (1 : Nat) < 4 ∧ (run (stat [(13, 2, 0)]) []).chip.record 0 = none ∧
    (comp 0 0 true (run id [])).chip.record 0 ≠ none := by decide +kernel

theorem witness_CapabilityResults : ∀ e ∈ [(ins 0x10 3 1 2 0, Row.cpos), (ins 0x10 3 1 2 1, .cadv), (ins 0x10 3 1 2 2, .ccut),
    (ins 0x10 3 1 2 3, .cfit), (ins 0x10 3 1 2 4, .cdrop), (ins 0x10 3 1 2 5, .ctint), (ins 0x10 3 1 2 6, .cwrap),
    (ins 0x10 3 1 2 7, .cunwrap), (ins 0x10 3 1 0 8, .cgate), (ins 0x10 3 1 0 9, .ccopy), (ins 0x10 3 1 0 10, .cround),
    (ins 0x10 3 1 0 11, .camask), (ins 0x10 3 1 2 13, .cdiff), (ins 0x11 3 1 0 0, .capInspect), (ins 0x12 3 1 0 1, .cadvi),
    (ins 0x13 3 1 0 1, .ccuti), (ins 0x14 3 0 0 1, .cpcrel)], Meets (run id [e.1]) e.1 none e.2 (fun _ => true) :=
  meetsPlain (by decide +kernel)

theorem witness_AuthorityMonotone : [cpos (capM 0) 64, cadv (capM 0) 64, ccut (capM 0) 64, cfit (capM 0) 64, cdrop (capM 0) 1,
    ctint (capM 0) 5, cwrap (capM 0) (capM 1), cgate (capM 0), cunwrap (cwrap (capM 0) (capM 1)) (capM 1)].all (·.tag) = true := by
  decide +kernel

theorem test_bounds_inexact : (encodeBounds 1 2049).base ≤ 1 ∧ 2050 ≤ (encodeBounds 1 2049).top ∧ (encodeBounds 1 2049).e ≠ 0 := by
  decide +kernel
theorem test_ccut_beyond : (ccut (mkCap 0 256 3 0 255) 2).tag = false ∧ (ccut (mkCap 0 256 3 0 255) 1).tag = true := by decide +kernel
theorem witness_BoundsRoundTrip : 2 ^ 64 - 1 + 1 ≤ 2 ^ 64 ∧ (encodeBounds (2 ^ 64 - 1) 1).top = 2 ^ 64 := by decide +kernel

/-! Control transfer, system instructions, SYNC, events. -/

/-- Task 0 with a return stack of colour 5 at 0x3000. -/
def stk (x : Task) : Task := { x with rsc := capC 5 0x3000 }

/-- Task 0 in window 1, with the entry of a call on its stack. -/
def called (w : IWord) : State :=
  let s := run (fun x => { stk x with rsc := capC 5 0x3040 }) [w]
  match stackPush s.vig s.chip 0 (capM 0x1100) Cap.null [marker 1 0 3 0 0, 0, 0, 0] with
  | .inr (_, c) => { s with chip := c.updTask 0 (stat [(8, 5, 1)]) }
  | .inl _ => s

theorem witness_ControlTransfer : ∀ e ∈ [
    (run id [ins22 0x30 5], ins22 0x30 5, Row.b, (fun c : Chip => (relTarget (c.task 0).pcc 0x1014).2 == none)),
    (run id [ins22 0x30 0x1FFFFF], ins22 0x30 0x1FFFFF, .b, (fun c => (relTarget (c.task 0).pcc 0x800FFC).2.isSome)),
    (regs [(1, capM 0x2000)] (run id [ins 0x32 0 1 0 0]), ins 0x32 0 1 0 0, .jr, (fun c => targetCheck (c.rdReg 0 1) == none)),
    (run id [ins 0x32 0 1 0 0], ins 0x32 0 1 0 0, .jr, (fun c => targetCheck (c.rdReg 0 1) == some 0x10)),
    (run stk [ins22 0x31 5], ins22 0x31 5, .call, (fun c => !(c.task 0).tw && (c.task 0).win + 1 < c.windows 0 &&
      (stackPush up.vig c 0 (movePcc (c.task 0).pcc 0x1004) Cap.null [marker 1 0 3 0 0, 0, 0, 0]).isRight)),
    (run (stat [(8, 5, 13)]) [ins22 0x31 5], ins22 0x31 5, .call, (fun c => decide (c.windows 0 ≤ (c.task 0).win + 1))),
    (regs [(1, capM 0x2000)] (run stk [ins 0x32 0 1 0 1]), ins 0x32 0 1 0 1, .callr, (fun c => targetCheck (c.rdReg 0 1) == none)),
    (run id [ins 0x32 0 0 0 2], ins 0x32 0 0 0 2, .ret, (fun c => decide ((c.task 0).win = 0))),
    (called (ins 0x32 0 0 0 2), ins 0x32 0 0 0 2, .ret, (fun c => match stackTop up.vig c 0 with
      | .inr (e, _) => bf e.marker 0 8 = 1 && bf e.marker 8 5 = (c.task 0).win - 1 && targetCheck e.pcc == none
      | .inl _ => false)),
    (run id [ins 0x33 1 0 0 5], ins 0x33 1 0 0 5, .loop, (fun c => decide (c.rdW 0 1 = 0)))],
    Meets e.1 e.2.1 none e.2.2.1 e.2.2.2 := meetsAll (by decide +kernel)

/-- A call reaches its body, and so do RSC's check, the target's and the push; then the chip there has the property. -/
def callAt (s : State) (w : IWord) (row : Row) (p : Chip → Cap × Option Nat → Bool) : Bool :=
  meetsB s w none row (fun c =>
    let x := c.task 0
    let target := if row = .call then relTarget x.pcc (addOff x.pcc.addr (4 * wSimm22 w.toNat)) else (c.rdReg 0 1, targetCheck (c.rdReg 0 1))
    !x.tw && x.win + 1 < c.windows 0 && p c target)

/-- RSC's check of the push of a call's entry. -/
def onto (c : Chip) : Option Nat :=
  let x := c.task 0
  pushCheck x.rsc x.pushAt (pushPerms (movePcc x.pcc ((x.pcc.addr + 4) % 2 ^ 64)) Cap.null)

/-- The push of a call's entry. -/
def pushes (c : Chip) : Bool :=
  let x := c.task 0
  (stackPush up.vig c 0 (movePcc x.pcc ((x.pcc.addr + 4) % 2 ^ 64)) Cap.null [marker 1 x.win x.priv x.comp 0, 0, 0, 0]).isRight

theorem witness_ControlTransfer_calls : [
    callAt (run (fun x => { x with rsc := capC 5 0 }) [ins22 0x31 5]) (ins22 0x31 5) .call (fun c _ => onto c == some 0x04),
    callAt (run (fun x => { x with rsc := capC 5 0x3010 }) [ins22 0x31 5]) (ins22 0x31 5) .call (fun c _ => onto c == some 0x13),
    callAt (run stk [ins22 0x31 0x1FFFFF]) (ins22 0x31 0x1FFFFF) .call (fun c r => onto c == none && r.2.isSome),
    callAt (run stk [ins22 0x31 5]) (ins22 0x31 5) .call (fun c r => onto c == none && r.2.isNone && pushes c),
    callAt (chip (fun c => c.paint 0x2FC0 64 6) (run stk [ins22 0x31 5])) (ins22 0x31 5) .call
      (fun c r => onto c == none && r.2.isNone && !pushes c),
    callAt (run stk [ins 0x32 0 1 0 1]) (ins 0x32 0 1 0 1) .callr (fun c r => onto c == none && r.2 == some 0x10),
    callAt (regs [(1, capM 0x2000)] (run stk [ins 0x32 0 1 0 1])) (ins 0x32 0 1 0 1) .callr (fun c r => onto c == none && r.2.isNone && pushes c)].all id = true := by decide +kernel

theorem witness_ControlTransfer_returns :
    meetsB (chip (fun c => c.updTask 0 (fun x => { x with rsc := mkCap 0x3000 0x400 0x3FFF 5 0x3400 })) (called (ins 0x32 0 0 0 2))) (ins 0x32 0 0 0 2) none .ret
      (fun c => decide ((c.task 0).win = 1) && popCheck (c.task 0).rsc == some 0x05) ∧
    meetsB (chip (fun c => { c with ram := c.ram.wrN 0x3020 [3] }) (called (ins 0x32 0 0 0 2))) (ins 0x32 0 0 0 2) none .ret
      (fun c => match stackTop up.vig c 0 with
        | .inr (e, _) => decide (bf e.marker 0 8 ≠ 1)
        | .inl _ => false) ∧
    meetsB (chip (fun c => { c with ram := c.ram.setTag 0x3000 false }) (called (ins 0x32 0 0 0 2))) (ins 0x32 0 0 0 2) none .ret
      (fun c => match stackTop up.vig c 0 with
        | .inr (e, _) => decide (bf e.marker 0 8 = 1) && targetCheck e.pcc == some 0x10
        | .inl _ => false) := by decide +kernel

theorem test_call_ret : out (exec (.call 0 (ins22 0x31 5)) (run stk [ins22 0x31 5]))
      (fun s => ((s.chip.task 0).win, (s.chip.task 0).pcc.addr, (s.chip.task 0).rsc.addr, s.chip.ram.rdLe 0x2FE0 8)) =
      some (1, 0x1014, 0x2FC0, marker 1 0 3 0 0) ∧
    out (exec (.ret 0 (ins 0x32 0 0 0 2)) (called (ins 0x32 0 0 0 2)))
      (fun s => ((s.chip.task 0).win, (s.chip.task 0).pcc.addr, (s.chip.task 0).rsc.addr)) = some (0, 0x1100, 0x3040) := by
  decide +kernel

/-- Task 0 in the trap window. -/
def tw (x : Task) : Task := { (stat [(15, 1, 1)] x) with estatus := 0x1, epc := capM 0x1100 }

theorem witness_SystemResults : ∀ e ∈ [
    (run id [ins 0x3C 0 0 0 0], ins 0x3C 0 0 0 0, Row.nop, (fun _ : Chip => true)),
    (run id [ins 0x3C 3 20 0 1], ins 0x3C 3 20 0 1, .mfs, (fun _ => true)),
    (run id [ins 0x3C 12 1 0 2], ins 0x3C 12 1 0 2, .mts, (fun _ => true)),
    (run (fun x => { x with rep := some ⟨⟨0, false, 3⟩, 1, none, []⟩ }) [ins 0x3C 9 1 0 2], ins 0x3C 9 1 0 2, .mts, (fun c => (c.task 0).rep.isSome)),
    (run tw [ins 0x3C 3 63 0 3], ins 0x3C 3 63 0 3, .xget, (fun c => (c.crossEntry 0 63).isSome)),
    (run (fun x => { tw x with estatus := 0x0D01 }) [ins 0x3C 3 63 0 3], ins 0x3C 3 63 0 3, .xget, (fun c => (c.crossEntry 0 63).isNone)),
    (run tw [ins 0x3C 40 1 0 4], ins 0x3C 40 1 0 4, .xput, (fun c => (c.crossEntry 0 40).isSome)),
    (run tw [ins 0x3C 0 0 0 5], ins 0x3C 0 0 0 5, .eret, (fun c => validReturn (c.task 0).epriv (c.task 0).epc)),
    (run (fun x => { tw x with estatus := 0x6001 }) [ins 0x3C 0 0 0 5], ins 0x3C 0 0 0 5, .eret,
      (fun c => !validReturn (c.task 0).epriv (c.task 0).epc)),
    (run id [ins 0x3C 0 0 0 7], ins 0x3C 0 0 0 7, .trap, (fun _ => true)),
    (run id [ins 0x3C 0 0 0 8], ins 0x3C 0 0 0 8, .brk, (fun c => decide (c.fld DBG_CORE_CTRL DBG_CORE_CTRL_BRKHALT 0 [0] ≠ 1)))],
    Meets e.1 e.2.1 none e.2.2.1 e.2.2.2 := meetsAll (by decide +kernel)

/-- A Taper session with full rights. -/
def dbg (s : State) : State := { s with vig := { s.vig with session := some ⟨1, 0xFFFF, 3, 2 ^ 40⟩ } }

theorem witness_SystemResults_more : ∀ e ∈ [
    (run id [ins 0x3C 8 1 0 2], ins 0x3C 8 1 0 2, Row.mts, (fun _ : Chip => true)),
    (run (fun x => { tw x with estatus := 0x1F01 }) [ins 0x3C 0 0 0 5], ins 0x3C 0 0 0 5, .eret,
      (fun c => decide (c.windows 0 ≤ (c.task 0).ewin))),
    (run (fun x => { tw x with estatus := 0x0D01 }) [ins 0x3C 63 1 0 4], ins 0x3C 63 1 0 4, .xput, (fun c => (c.crossEntry 0 63).isNone)),
    (dbg (chip (fun c => c.setFld DBG_CORE_CTRL DBG_CORE_CTRL_BRKHALT 0 [0] 1) (run id [ins 0x3C 0 0 0 8])), ins 0x3C 0 0 0 8, .brk,
      (fun c => decide (c.fld DBG_CORE_CTRL DBG_CORE_CTRL_BRKHALT 0 [0] = 1) && (dbg up).vig.rights (c.task 0)))],
    Meets e.1 e.2.1 none e.2.2.1 e.2.2.2 := meetsAll (by decide +kernel)

theorem test_eret_to_tenant : out (exec (.eret 0 (ins 0x3C 0 0 0 5)) (run tw [ins 0x3C 0 0 0 5]))
    (fun s => ((s.chip.task 0).priv, (s.chip.task 0).tw, (s.chip.task 0).pcc.addr)) = some (0, false, 0x1100) := by decide +kernel
theorem test_mts_lc_late : out (exec (.mts 0 (ins 0x3C 12 1 0 2)) (run id [ins 0x3C 12 1 0 2]))
    (fun s => (s.chip.task 0).late.map (·.due)) = some [3] := by decide +kernel

/-- An outstanding operation of class `k`. -/
def anOp (k : Nat) : LongOp := { (run id []).chip.newOp up.vig 0 .load k with id := 1, pieces := [⟨0x2000, 8, false, 0⟩], size := 8, va := 0x2000, dst := 3 }

theorem witness_SyncResults : ∀ e ∈ [
    (run id [ins 0x37 0 0 0 0], ins 0x37 0 0 0 0, Row.sync, (fun c : Chip => !c.awaits 0 0x3F)),
    (run (fun x => { x with ops := [anOp 0] }) [ins 0x37 0 0 0 0], ins 0x37 0 0 0 0, .sync, (fun c => c.awaits 0 0x3F)),
    (run (fun x => { x with fails := [⟨1, 2, 0x30, 0, 0, 3, 0, 0, false⟩] }) [ins 0x37 4 0 0 1], ins 0x37 4 0 0 1, .syncM,
      (fun c => ((c.task 0).fails.filter ((c.task 0).reportable 4)).length = 1)),
    (run id [ins 0x37 0 0 0 2], ins 0x37 0 0 0 2, .syncP, (fun c => !c.awaits 0 0x7F)),
    (run id [ins 0x3C 0 0 0 6], ins 0x3C 0 0 0 6, .fence, (fun c => !c.awaits 0 0x180)),
    (run id [ins 0x3C 0 0 32 6], ins 0x3C 0 0 32 6, .fenceLd, (fun c => !c.awaits 0 0x80)),
    (run id [ins 0x3C 0 0 16 6], ins 0x3C 0 0 16 6, .fenceSt, (fun c => (tGet c.mirq 0).isEmpty && !c.awaits 0 0x100)),
    (chip (fun c => { c with mirq := ⟨[⟨false, 0, 0, 0, 0, 0, []⟩], []⟩ }) (run id [ins 0x3C 0 0 16 6]), ins 0x3C 0 0 16 6, .fenceSt,
      (fun c => ((tGet c.mirq 0).getLast?.map (·.marker)) == some false))],
    Meets e.1 e.2.1 none e.2.2.1 e.2.2.2 := meetsAll (by decide +kernel)

/-- Compartment 0 with an event of class 2 queued. -/
def withEvent (s : State) : State :=
  comp 0 0 true (chip (fun c =>
    let q : EvSlot := ⟨0, 4, 0, [0], 0⟩
    { c with ram := c.ram.evPut 0 q 0 ⟨Cap.ofNat 7, Cap.ofNat 8, 2⟩ }.updClu 0 (fun k => { k with slots := [(0, q)] })) s)

theorem witness_EventResults : ∀ e ∈ [
    (run id [ins 0x36 2 1 0 2], ins 0x36 2 1 0 2, Row.post, (fun c : Chip => !(c.rdReg 0 1).tag)),
    (regs [(1, capM 0)] (run id [ins 0x36 2 1 0 2]), ins 0x36 2 1 0 2, .post, (fun c => (c.rdReg 0 1).tag && (c.rdReg 0 1).otype = 0)),
    (regs [(1, (capM 0).put 80 12 0xFFD)] (run id [ins 0x36 2 1 0 2]), ins 0x36 2 1 0 2, .post,
      (fun c => (c.rdReg 0 1).tag && (c.rdReg 0 1).otype = 0xFFD)),
    (run (fun x => { x with evmask := 0 }) [ins 0x36 2 0 0 3], ins 0x36 2 0 0 3, .waitq, (fun c => decide ((c.task 0).evmask.toNat % 256 = 0))),
    (run id [ins 0x36 2 0 0 3], ins 0x36 2 0 0 3, .waitq, (fun c => (c.takeEvent 0).isNone)),
    (withEvent (run id [ins 0x36 2 0 0 3]), ins 0x36 2 0 0 3, .waitq, (fun c => (c.takeEvent 0).isSome)),
    (withEvent (run id [ins 0x36 2 0 0 4]), ins 0x36 2 0 0 4, .waitqN, (fun c => (c.takeEvent 0).isSome)),
    (run id [ins 0x36 2 0 0 4], ins 0x36 2 0 0 4, .waitqN, (fun c => (c.takeEvent 0).isNone))],
    Meets e.1 e.2.1 none e.2.2.1 e.2.2.2 := meetsAll (by decide +kernel)

theorem witness_EventResults_wake :
    let c := (withEvent (run (fun x => { x with wait := .waitq 2 7 1 }) [])).chip
    (c.takeEvent 0).isSome = true ∧ (c.task 0).halted = false ∧ c.leaving 0 = false := by decide +kernel
theorem witness_EventResults_waits : meetsB (run (fun x => { x with ops := [anOp 0] }) [ins 0x36 2 0 0 3]) (ins 0x36 2 0 0 3) none .waitq
    (fun c => c.awaits 0 0x3F) = true := by decide +kernel
theorem test_waitq_takes : out (exec (.waitq 0 (ins 0x36 2 0 8 3)) (withEvent (run id [ins 0x36 2 0 8 3])))
    (fun s => (s.chip.rdInt 0 2, s.chip.rdInt 0 3, (s.chip.task 0).pred 1)) = some (7, 8, true) := by decide +kernel
/-! Memory instructions. -/

/-- Eight operations of task 0: the limit of R176. -/
def full (x : Task) : Task := { x with ops := (List.range 8).map (fun n => { anOp 0 with id := n }) }

/-- The access passes its checks and stays in the own half. -/
def goes (c : Chip) (a n : Nat) (p : List Nat) (al need : Nat) (ld st : Bool) (q : Chip → List Piece → Bool) : Bool :=
  match c.scalarAcc up.vig 0 (c.rdReg 0 1) a n p al need ld st with
  | .go ch ps => !isRemote 0 ps && !ch.inCsr ps && q ch ps
  | .bad _ => false

/-- The access passes its checks and reaches the other half. -/
def goesFar (c : Chip) (a n : Nat) (p : List Nat) (al need : Nat) (ld st : Bool) (q : Chip → List Piece → Bool) : Bool :=
  match c.scalarAcc up.vig 0 (c.rdReg 0 1) a n p al need ld st with
  | .go ch ps => isRemote 0 ps && q ch ps
  | .bad _ => false

/-- Wick is up, and n1 holds a capability over half 1's DRAM. -/
def far (ws : List IWord) : State :=
  chip (fun c => { c with wick := ⟨{ WickPort.reset with up := true, down := false, farTop := 2 ^ 36 }, { WickPort.reset with up := true, down := false, farTop := 2 ^ 36 }⟩ })
    (regs [(1, mkCap (2 ^ 40) 0x10000 0x3FFF 5 (2 ^ 40 + 0x2000)), (2, Cap.ofNat 9)] (run id ws))

/-- A store of task 0 in the store buffer, to 8 bytes at `a`. -/
def aStore (a : Nat) : SBEntry :=
  ⟨1, 0, 1, [⟨a, 8, false, 0⟩], a, 8, Cap.ofNat 5, false, 5, false, 0x1000, 3, false, 0, 0, false, 0, 0⟩

/-- With stores in core 0's store buffer. -/
def holding (l : List SBEntry) (s : State) : State := chip (fun c => c.updCore 0 (fun k => { k with sb := l, seq := 2 })) s

/-- The machine with n1 holding a capability over painted memory of colour 5, or over local memory. -/
def dram (ws : List IWord) : State := chip (fun c => c.paint 0x2000 64 5) (regs [(1, capC 5 0x2000), (2, capC 5 0x10)] (run id ws))
def clm (ws : List IWord) : State := chip (fun c => c.paint 0x8040000000 64 6) (regs [(1, capL 0x8040000000), (2, Cap.ofNat 9)] (run id ws))

theorem witness_MemoryIssue : ∀ e ∈ [
    (regs [(1, capM 0x2000)] (run full [ins 0x1E 3 1 0 0]), ins 0x1E 3 1 0 0, Row.load, (fun c : Chip => c.opsFull 0)),
    (run id [ins 0x1E 3 1 0 0], ins 0x1E 3 1 0 0, .load, (fun c => !goes c 0 8 [0] 1 1 true false (fun _ _ => true))),
    (dram [ins 0x1E 3 1 0 7], ins 0x1E 3 1 0 7, .load, (fun c => goes c 0x2038 8 [0] 1 1 true false (fun ch ps =>
      ch.checkLines none 5 false ps = 0 && !ch.ownLocal 0 ps && ch.forwarding 0 ps 8 = .clear && !ch.olderTouch 0 0 ps))),
    (clm [ins 0x1E 3 1 0 7], ins 0x1E 3 1 0 7, .load, (fun c => goes c 0x8040000038 8 [0] 1 1 true false (fun ch ps =>
      ch.checkLines none 6 false ps = 0 && ch.ownLocal 0 ps))),
    (dram [ins 0x1F 3 1 0 3], ins 0x1F 3 1 0 3, .lcap, (fun c => goes c 0x2030 16 [0] 16 1 true false (fun ch ps =>
      ch.checkLines none 5 false ps = 0))),
    (dram [ins 0x23 2 1 0 7], ins 0x23 2 1 0 7, .store, (fun c => goes c 0x2038 8 [1] 1 2 false true (fun ch ps =>
      ch.checkLines none 5 true ps = 0 && !ch.ownLocal 0 ps))),
    (regs [(1, capC 7 0x2000)] (dram [ins 0x23 2 1 0 7]), ins 0x23 2 1 0 7, .store, (fun c => goes c 0x2038 8 [1] 1 2 false true
      (fun ch ps => ch.checkLines none 7 true ps ≠ 0))),
    (dram [ins 0x24 2 1 0 3], ins 0x24 2 1 0 3, .scap, (fun c => goes c 0x2030 16 [1, 4] 16 2 false true (fun ch ps =>
      ch.checkLines none 5 true ps = 0))),
    (dram [ins 0x27 3 1 2 0], ins 0x27 3 1 2 0, .amoadd, (fun c => goes c 0x2000 8 [0, 1] 8 3 true true (fun ch ps => ch.forwarding 0 ps 0 = .clear))),
    (far [ins 0x1E 3 1 0 7], ins 0x1E 3 1 0 7, .load, (fun c => goesFar c (2 ^ 40 + 0x2038) 8 [0] 1 1 true false (fun ch ps =>
      !ch.ownLocal 0 ps && ch.forwarding 0 ps 8 = .clear))),
    (far [ins 0x23 2 1 0 7], ins 0x23 2 1 0 7, .store, (fun c => goesFar c (2 ^ 40 + 0x2038) 8 [1] 1 2 false true (fun _ _ => true))),
    (far [ins 0x27 3 1 2 0], ins 0x27 3 1 2 0, .amoadd, (fun c => goesFar c (2 ^ 40 + 0x2000) 8 [0, 1] 8 3 true true (fun ch ps => ch.forwarding 0 ps 0 = .clear))),
    (holding ((List.range 8).map (fun i => aStore (0x1000 + 16 * i))) (dram [ins 0x23 2 1 0 7]), ins 0x23 2 1 0 7, .store,
      (fun c => goes c 0x2038 8 [1] 1 2 false true (fun ch _ => decide (8 < (ch.core 0).sbUsed + 1)))),
    (holding [aStore 0x2000] (dram [ins 0x27 3 1 2 0]), ins 0x27 3 1 2 0, .amoadd,
      (fun c => goes c 0x2000 8 [0, 1] 8 3 true true (fun ch ps => ch.forwarding 0 ps 0 ≠ .clear))),
    (regs [(1, (capL 0x8040000000).put 92 4 7)] (clm [ins 0x27 3 1 2 0]), ins 0x27 3 1 2 0, .amoadd,
      (fun c => goes c 0x8040000000 8 [0, 1] 8 3 true true (fun ch ps => ch.ownLocal 0 ps && ch.checkLines none (c.rdReg 0 1).colour true ps ≠ 0))),
    (dram [ins 0x27 3 1 2 1], ins 0x27 3 1 2 1, .amoswp, (fun c => goes c 0x2000 8 [0, 1] 8 3 true true (fun _ _ => true))),
    (dram [ins 0x27 3 1 2 5], ins 0x27 3 1 2 5, .cas, (fun c => goes c 0x2000 4 [0, 1] 4 3 true true (fun _ _ => true))),
    (run id [ins 4 3 1 2 2], ins 4 3 1 2 2, .div, (fun c => !c.opsFull 0)),
    (run full [ins 4 3 1 2 2], ins 4 3 1 2 2, .div, (fun c => c.opsFull 0))],
    Meets e.1 e.2.1 none e.2.2.1 e.2.2.2 := meetsAll (by decide +kernel)

theorem test_store_buffered : out (exec (.store 0 (ins 0x23 2 1 0 7) true) (dram [ins 0x23 2 1 0 7]))
    (fun s => ((s.chip.core 0).sb.map (fun e => (e.va, e.size, e.slots, e.checked)), s.chip.ram.rd 0x2038)) =
    some ([(0x2038, 8, 1, true)], 0) := by decide +kernel
theorem test_store_wrong_colour : out (exec (.store 0 (ins 0x23 2 1 0 7) true) (traps (regs [(1, capC 7 0x2000)] (dram [ins 0x23 2 1 0 7]))))
    (fun s => ((s.chip.task 0).cause.toNat % 256, (s.chip.task 0).fdata.toNat)) = some (0x15, 0x2038) := by decide +kernel

/-- The chip with one operation of task 0. -/
def withOp (o : LongOp) : State := { up with chip := { (clm []).chip.paint 0x2000 64 5 with tasks := [(0, { tskM [] with ops := [o] })] } }

/-- A divide, an invalidation, an atomic and a load that are outstanding. -/
def aDiv : LongOp := { anOp 2 with kind := .div, fn := 3, a := Cap.ofNat 7, b := Cap.ofNat 0, pieces := [] }
def anInv : LongOp := { anOp 5 with kind := .maint, fn := 6, pieces := [] }
def aLoad : LongOp := { anOp 0 with colour := 5 }
def anAtomic : LongOp :=
  { anOp 5 with kind := .atomic, colour := 6, fn := 0, b := Cap.ofNat 3, pieces := [⟨0x8040000000, 8, false, 0⟩] }

/-- Every channel of half 0 held by a step of its retraining. -/
def heldChip : Chip :=
  ((withOp aLoad).chip.updBg 0 (fun b => { b with chans := (List.range 4).map (fun c => (c, { Chan.reset with running := true, stepEnd := 10 })) }))
theorem witness_LongOpsEnd_held : heldChip.heldFor up.vig 0 aLoad.pieces = true := by
  have h : ∀ n, n < 4 → (mGet? (tGet heldChip.bg 0).chans n).any (fun c => c.running && decide (up.vig.clk < c.stepEnd)) = true := by decide +kernel
  have h2 : heldChip.chanHeld up.vig 0x2000 = true := by
    have := h (chanOf 0x2000) (Nat.mod_lt _ (by decide))
    simpa [Chip.chanHeld, show paDram 0x2000 = true by decide, show paHalf 0x2000 = 0 by decide] using this
  have h3 : ((heldChip.clu (tClu 0)).l2Line 0x2000).isNone = true := by decide +kernel
  have h4 : linesOf ⟨0x2000, 8, false, 0⟩ = [0x2000] := by decide +kernel
  have h5 : aLoad.pieces = [⟨0x2000, 8, false, 0⟩] := by decide +kernel
  simp [Chip.heldFor, h5, h4, h2, h3, show paHalf 0x2000 = tHalf 0 by decide]

theorem witness_LongOpsEnd :
    (withOp aDiv).chip.findOp 0 1 = some aDiv ∧ ((withOp anInv).chip.usesTlb 0 anInv.covers = false ∧ 4 ≤ anInv.fn) ∧
    ((withOp aLoad).chip.scalarWaits up.vig 0 aLoad = false ∧ (withOp aLoad).chip.inCsr aLoad.pieces = false ∧
      (match loadGo (aLoad.who 0) aLoad.pieces (up.vig, (withOp aLoad).chip) with
       | .done _ _ _ => true
       | _ => false) = true) ∧ (withOp anAtomic).chip.scalarWaits up.vig 0 anAtomic = false ∧
    (match atomicGo (anAtomic.who 0) 0 8 0 anAtomic.b anAtomic.pieces (up.vig, (withOp anAtomic).chip) with
     | .inl (.done _ _ _) => true
     | _ => false) = true := by decide +kernel

theorem test_divide_by_zero : out (exec (.divideComplete 0 1) (withOp aDiv)) (fun s => s.chip.rdInt 0 3) = some (2 ^ 64 - 1) := by
  decide +kernel
theorem test_amoadd : out (exec (.longOpComplete 0 1) (withOp anAtomic)) (fun s => (s.chip.rdInt 0 3, s.chip.ram.rdLe 0x8040000000 8)) =
    some (0, 3) := by decide +kernel

/-- The state after a buffered store. -/
def stored (w : IWord) : Option State := out (exec (.store 0 w true) (clm [w])) id

theorem test_store_drains : (stored (ins 0x23 2 1 0 7)).bind (fun s => out (exec (.storeDrain 0) s)
    (fun s => (s.chip.ram.rdLe 0x8040000038 8, (s.chip.core 0).sb.length))) = some (9, 0) := by decide +kernel

theorem witness_StoreEffect : let ch := (dram []).chip
    hbPort 0x203F = none ∧ ch.checkLines none 5 true [⟨0x203F, 1, false, 0⟩] = 0 ∧ 0x203F + 1 ≤ alignDown 0x203F 64 + 64 ∧
    ch.checkLines none 7 true [⟨0x203F, 1, false, 0⟩] ≠ 0 ∧ ch.checkLines none 5 true [⟨0x2040, 1, false, 0⟩] = 0 := by
  decide +kernel

/-! Gates: a descriptor at 0x9000 that enters 0x9100 in the same compartment, with DSC over 0xA000. -/

/-- Memory with the descriptor, whose byte 22 (the format) is `f`. -/
def gateMem (f : Nat) (s : State) : State := chip (fun c =>
  let c := c.paint 0x9000 64 5
  { c with ram := (c.ram.wrCap 0x9000 (capC 5 0xA000)).wrN 0x9010 (leBytes 2 0x100 ++ leBytes 2 0 ++ [0, 4, BitVec.ofNat 8 f]) }) s

/-- Task 0 about to run GCALL through n1. -/
def gcaller (f a : Nat) (q : Task → Task) : State :=
  gateMem f (regs [(1, (capC 5 a).put 80 12 0xFFF), (15, capC 5 0xB000)] (run (fun x => q (stk x)) [ins 0x36 0 1 0 0]))

/-- What Gates asks of the chip for GCALL: the wait is over, and the parts of the descriptor. -/
def gateAt (c0 : Chip) (p : Chip → Cap → Bool) : Bool :=
  match syncGo c0 0 0x3F false with
  | .ok c => p (c.flush 0) ((c.flush 0).rdReg 0 1)
  | _ => false

theorem witness_Gates : ∀ e ∈ [
    (gcaller 1 0x9000 id, ins 0x36 0 1 0 0, Row.gcall, (fun c0 : Chip => gateAt c0 (fun c g => g.tag && g.otype = 0xFFF &&
      (match entryRead up.vig c 0 (g.put 80 12 0) g.addr 1 with
       | .inr (d, tags, (u, c)) => descOk d && (cadv (g.put 80 12 0) 0x100).tag && tb tags 0 &&
          pushCheck (c.task 0).rsc (c.task 0).pushAt (pushPerms (capM 0x1004) (c.rdReg 0 15)) == none &&
          (stackPush u c 0 (capM 0x1004) (c.rdReg 0 15) [marker 2 0 3 0 0, 0, 0, 0]).isRight
       | .inl _ => false)))),
    (gcaller 1 0x9000 id, ins 0x36 0 1 0 0, Row.gcall, (fun c0 : Chip => gateAt c0 (fun c g =>
      (match c.scalarAcc up.vig 0 (g.put 80 12 0) g.addr 64 [pLoad] 1 1 true false with
       | .go c ps => (c.task 0).reqOf 1 == none && !isRemote 0 ps && !c.inCsr ps && !(c.core 0).sb.any (fun e => overlap e.pieces ps) &&
          !c.nowWaits up.vig 0 (c.core 0).seq ps && !c.olderTouch 0 (c.core 0).seq ps && decide (c.checkLines (c.task 0).owner 5 false ps = 0)
       | .bad _ => false)))),
    (gcaller 1 0x9000 (fun x => { x with rsc := capC 5 0 }), ins 0x36 0 1 0 0, .gcall, (fun c0 => gateAt c0 (fun c g =>
      (match entryRead up.vig c 0 (g.put 80 12 0) g.addr 1 with
       | .inr (d, _, (_, c)) => descOk d &&
          pushCheck (c.task 0).rsc (c.task 0).pushAt (pushPerms (capM 0x1004) (c.rdReg 0 15)) == some 0x04
       | .inl _ => false)))),
    (gcaller 2 0x9000 id, ins 0x36 0 1 0 0, .gcall, (fun c0 => gateAt c0 (fun c g =>
      (match entryRead up.vig c 0 (g.put 80 12 0) g.addr 1 with
       | .inr (d, _, _) => !descOk d
       | .inl _ => false)))),
    (regs [(1, (capC 6 0x9000).put 80 12 0xFFF)] (gcaller 1 0x9000 id), ins 0x36 0 1 0 0, .gcall, (fun c0 => gateAt c0 (fun c g =>
      g.tag && g.otype = 0xFFF && (entryRead up.vig c 0 (g.put 80 12 0) g.addr 1).isLeft))),
    (gcaller 1 0x9008 id, ins 0x36 0 1 0 0, .gcall, (fun c0 => gateAt c0 (fun _ g => g.tag && g.otype = 0xFFF && g.addr % 16 ≠ 0))),
    (run id [ins 0x36 0 1 0 0], ins 0x36 0 1 0 0, .gcall, (fun c0 => gateAt c0 (fun _ g => !g.tag))),
    (regs [(1, capM 0)] (run id [ins 0x36 0 1 0 0]), ins 0x36 0 1 0 0, .gcall, (fun c0 => gateAt c0 (fun _ g => g.tag && g.otype = 0))),
    (gcaller 1 0x9000 (stat [(8, 5, 13)]), ins 0x36 0 1 0 0, .gcall, (fun c0 => gateAt c0 (fun c _ => decide (c.windows 0 ≤ (c.task 0).win + 1)))),
    (run id [ins 0x36 0 0 0 1], ins 0x36 0 0 0 1, .gret, (fun c0 => gateAt c0 (fun c _ => decide ((c.task 0).win = 0)))),
    (called (ins 0x36 0 0 0 1), ins 0x36 0 0 0 1, .gret, (fun c0 => gateAt c0 (fun c _ => match stackTop up.vig c 0 with
      | .inr (e, _) => bf e.marker 0 8 ≠ 2
      | .inl _ => false)))],
    Meets e.1 e.2.1 none e.2.2.1 e.2.2.2 := meetsAll (by decide +kernel)

theorem test_gcall : out (exec (.gcall 0 (ins 0x36 0 1 0 0)) (gcaller 1 0x9000 id)) (fun s =>
    [(s.chip.task 0).pcc.addr, (s.chip.task 0).win, (s.chip.task 0).priv, (s.chip.rdReg 0 15).base]) = some [0x9100, 1, 0, 0] := by
  decide +kernel

/-- Task 0 at Machine in window 1, with the entry of a gate call on its stack. -/
def inGate : State :=
  let s := run (fun x => { stk x with rsc := capC 5 0x3040 }) [ins 0x36 0 0 0 1]
  match stackPush s.vig s.chip 0 ((capM 0x1100).put 80 12 0xFFE) Cap.null [marker 2 0 3 7 (9 + 3 * 2 ^ 28), 1, 2, 3] with
  | .inr (_, c) => { s with chip := c.updTask 0 (stat [(8, 5, 1)]) }
  | .inl _ => s

theorem witness_Gates_return : Meets inGate (ins 0x36 0 0 0 1) none .gret (fun c0 => gateAt c0 (fun c _ =>
    match stackTop up.vig c 0 with
    | .inr (e, _) => bf e.marker 0 8 = 2 && bf e.marker 8 5 = 0 && bf (bf e.marker 32 32) 12 16 = 0 && bf (bf e.marker 32 32) 28 2 = 3 &&
        validReturn (bf e.marker 13 2) e.pcc
    | .inl _ => false)) := meets (by decide +kernel)
theorem witness_Gates_wrongReturn : ∀ e ∈ [
    (chip (fun c => { c with ram := c.ram.wrN 0x3026 [1] }) inGate, (fun e : StackEntry => bf e.marker 0 8 = 2 && bf (bf e.marker 32 32) 12 16 ≠ 0)),
    (chip (fun c => { c with ram := c.ram.setTag 0x3000 false }) inGate, (fun e : StackEntry =>
      bf (bf e.marker 32 32) 12 16 = 0 && bf (bf e.marker 32 32) 28 2 = 3 && !validReturn (bf e.marker 13 2) e.pcc))],
    meetsB e.1 (ins 0x36 0 0 0 1) none .gret (fun c0 => gateAt c0 (fun c _ => match stackTop up.vig c 0 with
      | .inr (x, _) => e.2 x
      | .inl _ => false)) = true := by
  have h : [
    (chip (fun c => { c with ram := c.ram.wrN 0x3026 [1] }) inGate, (fun e : StackEntry => bf e.marker 0 8 = 2 && bf (bf e.marker 32 32) 12 16 ≠ 0)),
    (chip (fun c => { c with ram := c.ram.setTag 0x3000 false }) inGate, (fun e : StackEntry =>
      bf (bf e.marker 32 32) 12 16 = 0 && bf (bf e.marker 32 32) 28 2 = 3 && !validReturn (bf e.marker 13 2) e.pcc))].all (fun e =>
    meetsB e.1 (ins 0x36 0 0 0 1) none .gret (fun c0 => gateAt c0 (fun c _ => match stackTop up.vig c 0 with
      | .inr (x, _) => e.2 x
      | .inl _ => false))) = true := by decide +kernel
  exact fun e he => List.all_eq_true.mp h e he

theorem test_gret : out (exec (.gret 0 (ins 0x36 0 0 0 1)) inGate) (fun s => let x := s.chip.task 0
    [x.pcc.addr, x.pcc.otype, x.win, x.comp, x.tenant, x.lc.toNat, x.le.toNat]) = some [0x1100, 0, 0, 7, 9, 1, 3] := by decide +kernel
/-! Vectors, maintenance, block operations. -/

/-- Task 0 with VL `n` and, when `c`, vector context 0. -/
def vec (n : Nat) (c : Bool) (ws : List IWord) : State :=
  chip (fun ch => if c then ch.updCore 0 (fun k => { k with vctx := [(0, { VCtx.reset with owner := some 0 })] }) else ch)
    (regs [(1, capM 0x2000)] (run (fun x => { x with vl := BitVec.ofNat 64 n }) ws))

/-- Every context taken by other tasks. -/
def vfull (s : State) : State :=
  chip (fun ch => ch.updCore 0 (fun k => { k with vctx := (List.range 4).map (fun c => (c, { VCtx.reset with owner := some (c + 1) })) })) s

theorem witness_VectorResults : ∀ e ∈ [
    (run id [ins 0x3B 3 1 0 0], ins 0x3B 3 1 0 0, Row.vsetvl, (fun _ : Chip => true)),
    (vec 16 true [ins 0x39 2 4 0 0], ins 0x39 2 4 0 0, .vv, (fun c => ((c.core 0).ctxOf 0).isSome)),
    (vfull (vec 16 false [ins 0x39 2 4 0 0]), ins 0x39 2 4 0 0, .vv, (fun c => ((c.core 0).ctxOf 0).isNone && (c.core 0).freeVctx.isNone)),
    (vec 16 true [ins 0x3A 2 1 0 0], ins 0x3A 2 1 0 0, .vs, (fun c => ((c.core 0).ctxOf 0).isSome)),
    (vec 16 true [ins 0x3B 2 4 0 1], ins 0x3B 2 4 0 1, .vred, (fun c => ((c.core 0).ctxOf 0).isSome)),
    (vec 16 true [ins 0x3B 2 4 0 8], ins 0x3B 2 4 0 8, .vperm, (fun c => ((c.core 0).ctxOf 0).isSome)),
    (vec 16 true [ins 0x3B 0 0 0 9], ins 0x3B 0 0 0 9, .vrelease, (fun c => !(c.task 0).vecOut && ((c.task 0).bound.bind c.record).isNone)),
    (comp 0 (2 ^ fVsaved) true (vec 16 false [ins 0x3B 0 0 0 9]), ins 0x3B 0 0 0 9, .vrelease,
      (fun c => !(c.task 0).vecOut && ((c.task 0).bound.bind c.record).isSome)),
    (vec 16 false [ins 0x3B 0 0 0 9], ins 0x3B 0 0 0 9, .vrelease, (fun c => ((c.core 0).ctxOf 0).isNone)),
    (vec 16 true [ins 0x3D 2 1 0 0], ins 0x3D 2 1 0 0, .vld, (fun c => !c.opsFull 0 && !c.watchHit up.vig 0 0x2000 16 true false)),
    (vec 0 true [ins 0x3D 2 1 0 0], ins 0x3D 2 1 0 0, .vld, (fun c => !c.opsFull 0 && (c.task 0).vl = 0)),
    (vfull (vec 16 false [ins 0x3D 2 1 0 1]), ins 0x3D 2 1 0 1, .vst, (fun c => !c.opsFull 0 && (c.core 0).freeVctx.isNone)),
    (vec 16 true [ins 0x3D 2 1 0 2], ins 0x3D 2 1 0 2, .vldff, (fun c => !c.opsFull 0))],
    Meets e.1 e.2.1 none e.2.2.1 e.2.2.2 := meetsAll (by decide +kernel)

theorem witness_VectorResults_events :
    let a := run (fun x => { x with wait := .vctx }) []
    let s := vfull a
    let c : Chip := { s.chip with tasks := [(0, { tskM [] with wait := .vctx }), (1, { tskM [] with wait := .waitq 2 1 5 })] }
    (a.chip.core 0).freeVctx = some 0 ∧ a.chip.vsaved 0 = false ∧ (c.core 0).freeVctx = none ∧ c.vctxVictim 0 = some 1 ∧
      (c.task 1).late = [] := by decide +kernel
theorem test_vrelease_forgets : out (exec (.vrelease 0 (ins 0x3B 0 0 0 9)) (comp 0 (2 ^ fVsaved) true (vec 16 false [ins 0x3B 0 0 0 9])))
    (fun s => (s.chip.record 0).map (fun r => r.flag fVsaved)) = some (some false) := by decide +kernel
theorem test_vector_add : out (exec (.vectorVvOp 0 (ins 0x39 2 4 0 0)) (vec 16 true [ins 0x39 2 4 0 0]))
    (fun s => (s.chip.task 0).late.map (fun l => (l.due, l.dst))) = some [(3, .vreg 2 0xFFFFFFFFFFFFFFFFFFFFFFFFFFFFFFFF)] := by decide +kernel

/-- A capability without System but with every other permission. -/
theorem witness_MaintenanceIssue : ∀ e ∈ [
    (dram [ins 0x38 0 1 0 0], ins 0x38 0 1 0 0, Row.iflush, (fun c : Chip => checkCap (c.rdReg 0 1) 0x2000 1 [] 1 == none &&
      (c.xlateAcc up.vig 0 0x2000 1 0).2.2.isNone && !c.opsFull 0)),
    (regs [(1, capC 5 0x2000)] (run (stat [(13, 2, 0)]) [ins 0x38 0 1 0 0]), ins 0x38 0 1 0 0, .iflush, (fun c =>
      checkCap (c.rdReg 0 1) 0x2000 1 [] 1 == none && (c.xlateAcc up.vig 0 0x2000 1 0).2.2.isSome)),
    (run full [ins 0x38 0 1 0 0], ins 0x38 0 1 0 0, .iflush, (fun c => c.opsFull 0)),
    (run id [ins 0x38 0 1 0 1], ins 0x38 0 1 0 1, .dflushI, (fun c => checkCap (c.rdReg 0 1) 0 1 [pStore] 1 == some 0x10)),
    (dram [ins 0x38 0 1 0 2], ins 0x38 0 1 0 2, .dflushC, (fun _ => true)), (dram [ins 0x38 0 1 0 3], ins 0x38 0 1 0 3, .dflushCi, (fun _ => true)),
    (run id [ins 0x38 0 1 2 4], ins 0x38 0 1 2 4, .tlbiVa, (fun c => !c.opsFull 0)),
    (run id [ins 0x38 0 1 0 5], ins 0x38 0 1 0 5, .tlbiTag, (fun _ => true)), (run id [ins 0x38 0 0 0 6], ins 0x38 0 0 0 6, .tlbiAll, (fun _ => true)),
    (run id [ins 0x38 0 0 0 7], ins 0x38 0 0 0 7, .wci, (fun _ => true)), (run id [ins 0x38 0 1 0 8], ins 0x38 0 1 0 8, .wciIpa, (fun _ => true))],
    Meets e.1 e.2.1 none e.2.2.1 e.2.2.2 := meetsAll (by decide +kernel)
theorem witness_MaintenanceIssue_done :
    (withOp { anInv with fn := 0 }).chip.findOp 0 1 = some { anInv with fn := 0 } ∧ anInv.resp = none ∧ anInv.remote = false ∧
      anInv.adWait = none := by decide +kernel
theorem test_iflush_done : out (exec (.longOpComplete 0 1)
    (chip (fun c => c.updCore 16 (fun k => { k with icache := [(0x80, []), (0x81, [])] }))
      (withOp { anInv with fn := 0, pieces := [⟨0x2000, 1, false, 0⟩] })))
    (fun s => ((s.chip.core 16).icache.map (·.1), (s.chip.task 0).ops.length)) = some ([0x81], 0) := by decide +kernel

/-- A REP prefix of element size 8 bytes, and its MOVE and FILL words. -/
def rep8 : IWord := BitVec.ofNat 32 (0x34 * 2 ^ 22 + 3 * 2 ^ 19)
def mv : IWord := ins 0x35 0 0 0 0

theorem witness_BlockOperations :
    Meets (run (fun x => { x with rc := 5 }) [rep8, mv]) rep8 (some mv) .rep (fun c => decide ((c.task 0).rep = none) && !tb (c.task 0).rc.toNat 63 &&
      bf (c.task 0).rc.toNat 0 32 = 5) ∧
    Meets (run id [rep8, mv]) rep8 (some mv) .rep (fun c => bf (c.task 0).rc.toNat 0 32 = 0) ∧
    Meets (run (fun x => { x with rep := some ⟨⟨0, false, 3⟩, 1, none, []⟩ }) [rep8, mv]) rep8 (some mv) .rep (fun c => (c.task 0).rep.isSome) :=
  ⟨meets (by decide +kernel), meets (by decide +kernel), meets (by decide +kernel)⟩
theorem witness_BlockOperations_paint : ∀ e ∈ [
    (regs [(1, capC 5 0x2000)] (run id [ins 0x10 0 1 0 12]), ins 0x10 0 1 0 12, Row.cpaint, (fun c : Chip => paintCheck (c.rdReg 0 1) == none)),
    (run id [ins 0x10 0 1 0 12], ins 0x10 0 1 0 12, .cpaint, (fun c => paintCheck (c.rdReg 0 1) == some 0x10)),
    (regs [(1, capC 5 0x2000)] (run id [ins 0x28 2 1 0 0]), ins 0x28 2 1 0 0, .stm, (fun c => (multiSlots (c.rdInt 0 2) (c.rdReg 0 1) (ins 0x28 2 1 0 0).toNat 0).isEmpty)),
    (regs [(1, capC 5 0x2000)] (run id [ins 0x29 2 1 0 0]), ins 0x29 2 1 0 0, .ldm, (fun c => (multiSlots (c.rdInt 0 2) (c.rdReg 0 1) (ins 0x29 2 1 0 0).toNat 0).isEmpty)),
    (regs [(1, capC 5 0x2000), (2, Cap.ofNat 8)] (run id [ins 0x28 2 1 0 0]), ins 0x28 2 1 0 0, .stm, (fun c =>
      match stmSlot 0 0x2000 (c.rdReg 0 1) 3 ⟨false, true, false⟩ (up.vig, c) with
      | .done _ => !c.multiStops up.vig 0 0 none && multiSlots 8 (c.rdReg 0 1) (ins 0x28 2 1 0 0).toNat 0 == [(3, 0x2000)]
      | _ => false)),
    (regs [(1, capC 5 0x2000), (2, Cap.ofNat 8)] (run id [ins 0x29 2 1 0 0]), ins 0x29 2 1 0 0, .ldm, (fun c =>
      match ldmSlot 0 0x2000 (c.rdReg 0 1) 3 ⟨false, true, false⟩ (up.vig, c) with
      | .done _ => !c.multiStops up.vig 0 0 none && multiSlots 8 (c.rdReg 0 1) (ins 0x29 2 1 0 0).toNat 0 == [(3, 0x2000)]
      | _ => false)),
    (regs [(1, capC 5 0x2000)] (run (fun x => { x with multi := some ⟨16, 3, 8, capC 5 0x2000⟩ }) [ins 0x28 2 1 0 0]), ins 0x28 2 1 0 0, .stm,
      (fun c => (c.task 0).multi == some ⟨16, 3, 8, capC 5 0x2000⟩ && c.multiStops up.vig 0 16 (some 16) &&
        multiSlots 8 (capC 5 0x2000) (ins 0x28 2 1 0 0).toNat 3 == [(3, 0x2000)]))],
    Meets e.1 e.2.1 none e.2.2.1 e.2.2.2 := meetsAll (by decide +kernel)

/-- Task 0 painting its last line, the first of local memory, with colour 6; and moving with an untagged source. -/
def painting : State := run (fun x => { x with rep := some ⟨⟨0, false, 3⟩, 1, none, []⟩, rc := BitVec.ofNat 64 (mkRc 1 0 5 0 0 0), rdst := capL 0x8040000000 }) []
def moving : State := run (fun x => { x with rep := some ⟨⟨0, false, 3⟩, 1, none, []⟩, rc := BitVec.ofNat 64 (mkRc 1 0 0 3 0 0) }) []

/-- The element of CPAINT passes its checks and reaches the own half. -/
def paints (s : State) (p : Chip → List Piece → Bool) : Bool :=
  let y := s.chip.task 0
  let r := s.chip.xlateAs s.vig 0 y.comp y.tenant 3 false y.rdst.addr 64 2
  let g := r.1.guardAs 0 3 y.rdst false true (r.2.1.map (·.pa))
  (match y.rep with
   | some q => q.adWait.isNone && q.got.isEmpty && !s.chip.repRests s.vig 0 q && !g.1.nowWaits s.vig 0 q.id r.2.1 && !g.1.olderTouch 0 q.id r.2.1
   | none => false) && (y.reqOf 2).isNone && bf y.rc.toNat 0 32 = 1 && rcOp y.rc.toNat = 5 &&
    checkCap y.rdst y.rdst.addr 64 [pStore, pSystem] 1 = none && !s.chip.watchHit s.vig 0 y.rdst.addr 64 false true && r.2.2.isNone &&
    g.2 = 0 && !isRemote 0 r.2.1 && p g.1 r.2.1

theorem witness_BlockOperations_element :
    paints painting (fun c ps => !c.inCsr ps && !({ c with ram := c.ram.unpoison 0x8040000000 } : Chip).lineBad 0x8040000000) = true ∧
    paints { painting with chip := painting.chip.updTask 0 (fun x => { x with rdst := capC 6 0x2000 }) } (fun c ps => c.dramPiece ps == some 0x2000) = true ∧
    (let y := moving.chip.task 0
     checkCap y.rsrc y.rsrc.addr 8 [pLoad] 1 = some 0x10 ∧ rcOp y.rc.toNat = 0) := by decide +kernel
theorem test_paint_element : out (exec (.blockElement 0 false) painting) (fun s =>
    [s.chip.ram.colour 0x8040000000, (s.chip.task 0).rdst.addr, bf (s.chip.task 0).rc.toNat 0 32, b2n (s.chip.task 0).rep.isSome]) =
    some [6, 0x8040000040, 0, 0] := by decide +kernel
/-! Scheduling, events, DMA, translation. -/

/-- Task 1 of core 0, ready, beside task 0. -/
def two : State := chip (fun c => { c with tasks := [(0, tskM []), (1, tskM [])] }) up

/-- Core 0 with another holder and slice. -/
def holds (n : Option Nat) (sl : Nat) (s : State) : State := chip (fun c => c.updCore 0 (fun k => { k with holder := n, slice := sl })) s

/-- Compartment 0 waiting in cluster 0 with an event queued. -/
def waiting : State := traps (withEvent (chip (fun c => c.updClu 0 (fun k => { k with pend := [0] })) up))

/-- Task 0 bound to compartment 0, which is paused. -/
def paused : State := comp 0 (2 ^ fPaused) true (run id [])

theorem witness_Scheduling :
    let f := regs [] (run id [])
    (let pcc := capC 5 0x2000
     let s := chip (fun c => (c.paint 0x2000 64 5).updTask 0 (fun x => { x with pcc := pcc })) f
     fetchCheck (movePcc pcc 0x2000) = none ∧ ((s.chip.fetchAcc s.vig 0 (movePcc pcc 0x2000) 0x2000).2.isLeft = true) ∧ (s.chip.task 0).fq = [] ∧
       s.chip.heldFor s.vig 0 [⟨0x2000, 4, false, 0⟩] = false ∧
       (s.chip.core 0).loopWord 0 0x2000 = none ∧
       ((chip (fun c => c.updCore 0 (fun k => { k with loopBuf := some ⟨0, 0x1000, 0x2000, false, [(0x2000, ins 0x3C 0 0 0 0)]⟩ })) s).chip.core 0).loopWord 0 0x2000 =
         some (ins 0x3C 0 0 0 0)) ∧
    ((holds none 0 two).chip.select 0 ((holds none 0 two).chip.readyTasks 0 []) = some 0 ∧ (holds none 0 two).chip.readyTasks 0 [] ≠ []) ∧
    ((run (fun x => { x with halted := true }) []).chip.readyTasks 0 [] = [] ∧
      (run (fun x => { x with halted := true }) []).chip.select 0 [] = none) ∧
    ((holds (some 0) 0 f).chip.readyTasks 0 []).any (fun t => decide (tNum t ≠ 0)) = false := by decide +kernel
theorem witness_Scheduling_binding :
    (let s := comp 0 0 true (run (fun x => { x with evcount := 64 }) [])
     (chip (fun c => c.setRec 0 116 4 64) s).chip.record 0 |>.map (fun r => (r.budget, decide (r.budget ≤ (s.chip.task 0).evcount), (s.chip.task 0).busy))) = some (64, true, false) ∧
    ((waiting.chip.clu 0).pend.find? (waiting.chip.bindable 0) = some 0 ∧ waiting.chip.freeTaskOf 0 = some 0 ∧ waiting.chip.trapsSet 0 = true ∧
      (waiting.chip.record 0).map (fun r => r.flag fSaved) = some false) ∧
    (paused.chip.mustUnbind 0 = true ∧ paused.chip.opsDone 0 = true ∧ paused.chip.midPair 0 = false ∧ ((paused.chip.flush 0).record 0).isSome = true) := by decide +kernel
theorem test_switch : out (exec (.switchPoint 0 []) (holds none 0 two)) (fun s => ((s.chip.core 0).holder, (s.chip.core 0).slice)) =
    some (some 0, 8) := by decide +kernel

/-- An event from cluster 0 to compartment `d` of generation `g`. -/
def ev (d g : Nat) : OutEv := ⟨d, g, ⟨Cap.ofNat 1, Cap.null, 2⟩, 0, 0, 0, 0, false, 0, 0⟩

/-- Cluster 0 with the event in its buffer. -/
def sending (e : OutEv) (s : State) : State := chip (fun c => c.updClu 0 (fun k => { k with outb := [e] })) s

/-- Both Wick ports up. -/
def wickOn (s : State) : State :=
  let p : WickPort := { WickPort.reset with up := true, training := false, credits := [(0, 8), (1, 8), (2, 8), (3, 8), (4, 8)] }
  chip (fun c => { c with wick := ⟨p, p⟩ }) s

theorem witness_EventsAndBalance :
    (let c := (sending (ev 0 0) (withEvent up)).chip
     (c.clu 0).outb[0]? = some (ev 0 0) ∧ c.storesBefore 0 0 = false ∧ compHalf 0 = 0 ∧ c.reachable 0 = true) ∧
    (compHalf 0x8000 = 1 ∧ (chip (fun c => c.updWick 0 (fun p => { p with down := true })) up).chip.wickUp 0 = false ∧ (wickOn up).chip.wickUp 0 = true) ∧
    ((withEvent up).chip.record 0).map (fun r => (r.qgen, r.qlog2)) = some (0, 4) ∧ up.chip.record 0 = none ∧
    (((withEvent up).chip.record 0).bind (fun r => (withEvent up).chip.enqueue 0 r (ev 0 0).ev)).isSome = true := by decide +kernel
theorem witness_EventsAndBalance_full :
    (let s := chip (fun c => c.updClu 0 (fun k => { k with slots := [(0, ⟨0, 4, 0, List.range 16, 15⟩)] })) (comp 0 0 true up)
     ((s.chip.record 0).bind (fun r => s.chip.enqueue 0 r (ev 0 0).ev)).isNone) = true := by decide +kernel

/-- How a move of compartment 0 ends: 0 it waits, 1 refused, 2 done. -/
def moved (s : State) : Nat :=
  match s.chip.moveStep 0 1 with
  | .waits => 0
  | .refused _ => 1
  | .done _ => 2

theorem witness_EventsAndBalance_move : moved (chip (fun c => c.setFld SCH_EVAREA SCH_EVAREA_SIZE 0 [1] 1) (withEvent up)) = 2 ∧ moved up = 1 ∧ 1 / 16 = compHalf 0 := by decide +kernel
theorem witness_EventsAndBalance_epoch :
    let s : State := { (chip (fun c => c.setFld SCH_BAL SCH_BAL_MODE 0 [] 1) up) with vig := { up.vig with dt := 10000000 } }
    tGet s.chip.epochs 0 < s.vig.dt / 10000000 ∧ s.chip.fld SCH_BAL SCH_BAL_MODE 0 = 1 := by decide +kernel
theorem test_event_delivered : out (exec (.eventArrival 0 0) (sending (ev 0 0) (withEvent up)))
    (fun s => ((s.chip.clu 0).outb.length, ((mGet? (s.chip.clu 0).slots 0).map (fun q => q.ents.length)))) = some (0, some 2) := by decide +kernel

/-- DMA engine 0 of half 0 with a ring of `n` descriptors, work to do, a guard that admits colour 5. -/
def dmaOn (n : Nat) (s : State) : State := chip (fun c =>
  ((c.setCapReg HALF_DMA_RING 0 [0] (mkCap 0x2000 (64 * n) 0x3FFF 5 0x2000)).setFld HALF_DMA_TAIL HALF_DMA_TAIL_INDEX 0 [0] 1).setReg
    GRD_KEY 0 [0x104] 0xFFFF) s

/-- The descriptor at index 0: fill of 64 bytes at 0x3000 through a capability of colour 5. -/
def fillDesc (s : State) : State := chip (fun c =>
  let c := c.paint 0x2000 64 5
  { c with ram := (c.ram.wrCap 0x2010 (capC 5 0x3000)).wrN 0x2020 (leBytes 8 64 ++ [2]) }) s

/-- A descriptor of engine 0 in progress: `f` changes it, from a fill of 64 bytes of local memory. -/
def descriptor (f : Dma → Dma) (s : State) : State := chip (fun c =>
  { c with dma := [(dmaKey 0 0, f ⟨0, Cap.null, capL 0x8040000000, 64, 2, 0, 0xAB, 0, false, none, none, none, 1⟩)] }) (dmaOn 4 s)

/-- What reading engine 0's descriptor answers, in sight of the new descriptor. -/
def dmaReads (s : State) : DmaRes :=
  let c := s.chip.capReg HALF_DMA_RING 0 [0]
  dmaAcc 0 0 c (dmaPa c.base) 64 none false
    (s.vig, { s.chip with dma := mSet s.chip.dma (dmaKey 0 0) ⟨0, Cap.null, Cap.null, 0, 0, 0, 0, 0, false, none, none, none, 0⟩ })

/-- The ring of engine 0 lies in half 1, and Wick is up when `u`. -/
def farRing (u : Bool) (s : State) : State := chip (fun c =>
  let p : WickPort := { WickPort.reset with up := u, down := !u, training := false, farTop := 2 ^ 36, credits := [(0, 8), (1, 8), (2, 8), (3, 8), (4, 8)] }
  { c.setCapReg HALF_DMA_RING 0 [0] (mkCap (2 ^ 40 + 0x2000) 256 0x3FFF 5 (2 ^ 40 + 0x2000)) with wick := ⟨p, p⟩ }) s

theorem witness_DmaEngines_start :
    (ringSize ((dmaOn 3 up).chip.capReg HALF_DMA_RING 0 [0]) [pLoad, pStore, pDma] 64 2 12 = .inr 0x14) ∧
    (let s := fillDesc (dmaOn 4 up)
     let r := dmaReads s
     ringSize (s.chip.capReg HALF_DMA_RING 0 [0]) [pLoad, pStore, pDma] 64 2 12 = .inl 4 ∧ r.wait = false ∧ r.code = 0 ∧
       (mGet? r.s.2.dma (dmaKey 0 0)).isSome = true ∧ dmaBad r.d (tb r.tags 0) = false ∧ fieldB r.d 40 1 = 2 ∧ s.chip.dmaHalted 0 0 = false) ∧
    (let r := dmaReads (dmaOn 4 (chip (fun c => c.paint 0x2000 64 5) up))
     r.wait = false ∧ r.code = 0 ∧ dmaBad r.d (tb r.tags 0) = true) ∧
    (dmaReads (dmaOn 4 (chip (fun c => c.paint 0x2000 64 6) up))).code ≠ 0 ∧ (dmaReads (farRing true (dmaOn 4 up))).wait = true ∧
    (dmaReads (farRing false (dmaOn 4 up))).code = 0x32 := by decide +kernel

/-- How a piece of engine 0's descriptor goes: its read waits or fails, its write waits or fails, or it is done. -/
def pieceOf (s : State) : Option (Bool × Nat × Bool × Nat) :=
  (mGet? s.chip.dma (dmaKey 0 0)).map (fun d =>
    let r := dmaFetch 0 0 d false (s.vig, s.chip)
    let g := r.s.2.dmaNote (dmaKey 0 0) (fun d => { d with buf := some r.d, guard := d.guard || r.guard })
    let w := dmaAcc 0 0 d.dst (dmaPa (d.dst.addr + d.moved)) d.piece (some r.d) false (r.s.1, g)
    (r.wait, r.code, w.wait, w.code))

theorem witness_DmaEngines_piece :
    pieceOf (descriptor id up) = some (false, 0, false, 0) ∧
    (pieceOf (descriptor (fun d => { d with dst := capC 5 0x3000 }) (chip (fun c => c.paint 0x3000 64 6) up))).map (fun r => decide (r.2.2.2 = 0)) = some false ∧
    (pieceOf (descriptor (fun d => { d with op := 1, src := capC 5 0x3000 }) (chip (fun c => c.paint 0x3000 64 6) up))).map (fun r => decide (r.2.1 = 0)) = some false ∧
    pieceOf (farRing true (descriptor (fun d => { d with dst := mkCap (2 ^ 40) 0x10000 0x3FFF 5 (2 ^ 40) }) up)) = some (false, 0, true, 0) ∧
    (pieceOf (farRing true (descriptor (fun d => { d with op := 1, src := mkCap (2 ^ 40) 0x10000 0x3FFF 5 (2 ^ 40) }) up))).map (·.1) = some true := by
  decide +kernel
theorem witness_DmaEngines_end :
    (let s := descriptor (fun d => { d with moved := 64, flags := 1 }) (chip (fun c => c.paint 0x2000 64 5) up)
     (mGet? s.chip.dma (dmaKey 0 0)).map (fun d =>
       let r := dmaAcc 0 0 (capC 5 0) 0x2038 8 (some d.ending) false (s.vig, s.chip)
       (d.moving, r.wait, r.code)) = some (false, false, 0)) ∧
    (let s := farRing true (descriptor (fun d => { d with moved := 64 }) up)
     (mGet? s.chip.dma (dmaKey 0 0)).map (fun d =>
       (dmaAcc 0 0 (s.chip.capReg HALF_DMA_RING 0 [0]) (2 ^ 40 + 0x2038) 8 (some d.ending) false (s.vig, s.chip)).wait) = some true) ∧
    up.chip.dma = [] := by decide +kernel
theorem test_dma_fill : out (exec (.dmaPiece 0 0 false false) (descriptor id up)) (fun s => (s.chip.ram.rd 0x8040000000, s.chip.ram.rd 0x8040000001)) =
    some (0xAB, 0) := by decide +kernel
theorem test_dma_end : out (exec (.dmaDescriptorDone 0 0) (descriptor (fun d => { d with moved := 64, flags := 1 }) (chip (fun c => c.paint 0x2000 64 5) up)))
    (fun s => (s.chip.ram.rdLe 0x2038 8, s.chip.fld HALF_DMA_HEAD HALF_DMA_HEAD_INDEX 0 [0], s.chip.fld HALF_DMA_STAT HALF_DMA_STAT_DONE 0)) =
    some (1 + 64 * 2 ^ 32, 1, 1) := by decide +kernel

/-- A wait for the access bit of the leaf at 0x5000, with request `q`. -/
def adw (q : Option Nat) : AdWait := ⟨q, 0x5000, false, 0, 0, ⟨0x21, 1, 3, 0x2000⟩⟩

/-- A load that waits so. -/
def adWaits (q : Option Nat) : LongOp := { anOp 0 with adWait := some (adw q) }

theorem witness_TranslationEvents :
    (let c := (withOp (adWaits none)).chip
     (c.task 0).adWaitOf 1 = some (adw none) ∧ (tGet c.adq 0) = [] ∧ c.fld XLT_CTRL XLT_CTRL_ADMODE 0 ≠ 1 ∧
       max 1 (c.fld XLT_CTRL XLT_CTRL_ADWAIT_US 0) * 1000 ≤ 65536000 ∧ c.findOp 0 1 = some (adWaits none) ∧ (adWaits none).drop = false ∧
       (adWaits none).kind ≠ .vldff) ∧
    (let s := chip (fun c => { c with adq := ⟨[⟨3, 0x5000, 0, false, false⟩], []⟩ }) up
     s.chip.adHead 0 = some ⟨3, 0x5000, 0, false, false⟩ ∧
       (tGet s.chip.adq 0).find? (fun q => decide (q.id = 3)) = some ⟨3, 0x5000, 0, false, false⟩) := by decide +kernel
theorem witness_TranslationEvents_walk :
    let x := { stat [(13, 2, 0)] (tskM []) with rep := some ⟨⟨0, false, 0⟩, 1, none, []⟩, rsrc := capM 0x2000, rc := BitVec.ofNat 64 (mkRc 64 0 0 3 0 0) }
    translatedAs 0 x.priv x.tw = true ∧ x.prefetch 0 0 = some (0x1040, 4) ∧ x.prefetch 1 1 = some (0x2040, 1) ∧ x.prefetch 1 8 = none ∧
      x.bound.isSome = true ∧ x.dead = false := by decide +kernel
theorem test_adack_releases : out (exec (.xltAdackWrite 0 3) (chip (fun c => { c with adq := ⟨[⟨3, 0x5000, 0, false, true⟩], []⟩ }) (withOp (adWaits (some 3)))))
    (fun s => ((tGet s.chip.adq 0).length, (s.chip.task 0).ops.map (·.adWait))) = some (0, [none]) := by decide +kernel
theorem witness_TranslationEvents_dram :
    let c := (withOp aLoad).chip
    c.dramPiece aLoad.pieces = some 0x2000 ∧ c.scalarWaits up.vig 0 aLoad = false ∧ aLoad.resp = none ∧ aLoad.remote = false ∧
      aLoad.started + c.ddrNs 0 ≤ 10 ^ 12 ∧ aLoad.drop = false := by decide +kernel

/-- A load of 8 bytes that half 0's task 0 of core 1 asks of half 1. -/
def farReq : MemReq := { task := 64, op := 1, kind := .load, pieces := [⟨2 ^ 40 + 0x2000, 8, false, 0⟩], size := 8, capw := false, colour := 0, fn := 0
                         val := Cap.null, val2 := Cap.null, cmp := 0, data := [], own := none, tenant := 0, comp := 0, mach := true, va := 0 }

theorem witness_TranslationEvents_remote :
    let m : WMsg := ⟨1, 1, 8, 0, 0, .memReq farReq⟩
    let c := (chip (fun c => c.updWick 1 (fun p => { p with inbox := [m] })) (wickOn up)).chip
    c.arrived 1 0 = some (m, farReq) ∧ c.reqWaits up.vig farReq = false ∧ c.inCsr farReq.pieces = false ∧ (tGet c.half 1).inReset = false ∧
      c.checkLines farReq.own farReq.colour false farReq.pieces = 0 := by decide +kernel

theorem witness_StepRunsFront : ({ up with pending := [.i3cHealthRead] } : State).pending = .i3cHealthRead :: [] ∧ up.pending = [] ∧
    up.vig.resetN = false ∧ State.reset.vig.resetN = true ∧ (List.range 32).all (fun c => (State.reset.chip.clu c).inReset) = true ∧
    (let v := { up.vig with slew := true, err := 25, frac := 0 }
     v.slew = true ∧ v.err > 0 ∧ v.tstate ≠ 3 ∧ v.frac = 0 ∧ ({ v with err := -25 } : Vig).err < 0) := by decide +kernel
theorem test_step_front : out (step { up with pending := [.slewEnd, .ppsEdge] }) (fun s => s.pending) = some [.ppsEdge] := by decide +kernel
theorem test_step_idle : out (step up) (fun s => (s.vig.clk, s.vig.dt)) = some (10, 10) := by decide +kernel
/-! Wick. -/

/-- A flit of channel `vc` and sequence number `n` that ends message `m`, with a right CRC. -/
def flit (vc n : Nat) (m : Option WMsg) : Flit :=
  let pay := List.replicate 56 (0 : Byte)
  let ctl := n * 2 ^ 16 + vc * 2 ^ 33
  ⟨ctl + flitCrc pay ctl, pay, m⟩

/-- Half 0's Wick port changed. -/
def port (f : WickPort → WickPort) : State := chip (fun c => c.updWick 0 f) (wickOn up)

theorem witness_WickLink :
    (let p := tGet (port (fun p => { p with txq := [(0, [flit 0 0 none])] })).chip.wick 0
     p.canSend 0 = true ∧ p.pick 8 = some 0 ∧ p.replay.length < 128 ∧ mGet p.txq 0 [] = [flit 0 0 none] ∧ p.up = true ∧ p.down = false ∧
       p.training = false) ∧
    (let p := tGet (port (fun p => { p with txq := [(2, [flit 2 0 none])] })).chip.wick 0
     p.canSend 0 = false ∧ p.canSend 2 = true) ∧
    ((tGet (port id).chip.wick 0).pick 8 = none ∧ (tGet (port id).chip.wick 0).rxSeq < 256) ∧
    (tGet (port (fun p => { p with resend := [flit 0 0 none] })).chip.wick 0).resend = [flit 0 0 none] := by decide +kernel
theorem witness_WickLink_receive :
    let f := flit 3 0 none
    let raw := fun (noise : Nat) => leNat (f.pay ++ leBytes 8 f.ctl) ^^^ (noise % 2 ^ 512)
    [b2n (bf (bf (raw 0) 448 64) 0 16 == flitCrc (leBytes 56 (raw 0)) (bf (raw 0) 448 64)), bf (bf (raw 0) 448 64) 33 3,
      b2n (tb (bf (raw 0) 448 64) 45), bf (bf (raw 0) 448 64) 16 8,
      b2n (bf (bf (raw 1) 448 64) 0 16 == flitCrc (leBytes 56 (raw 1)) (bf (raw 1) 448 64))] = [1, 3, 0, (255 + 1) % 256, 0] := by
  decide +kernel
theorem witness_WickLink_training :
    let p := tGet (port (fun p => { p with replay := [flit 0 0 none], replays := 8 })).chip.wick 0
    p.replay ≠ [] ∧ p.resend = [] ∧ p.progress + 200 ≤ 200 ∧ p.replays ≥ 8 ∧ up.chip.wick.h0.training = true ∧
      up.chip.half.h0.inReset = false ∧ up.chip.half.h1.inReset = false ∧ up.chip.fld WCK_CTRL WCK_CTRL_ENABLE 0 = 1 ∧
      up.chip.fld WCK_CTRL WCK_CTRL_ENABLE 1 = 1 := by decide +kernel
theorem test_wick_crc_error : out (exec (.wickFlitReceive 0 1) (port (fun p => { p with wire := [flit 3 0 none] })))
    (fun s => ((tGet s.chip.wick 0).nak, (tGet s.chip.wick 0).rxSeq)) = some (true, 255) := by decide +kernel

/-- A command of half 0's, from pair 1, with opcode `op`, its entry as given. -/
def cmd (op : Nat) (entry : List Byte) : Cmd :=
  ⟨0, .pair 1, 0, leBytes 2 op ++ entry ++ List.replicate (62 - entry.length) 0, 0, 0, true, false, false, false, 0, none⟩

/-- The half's Chandler is ready and the command is held. -/
def ready (c : Cmd) (s : State) : State := chip (fun ch => ((ch.updAdrus 0 (fun a => { a with cmds := [c], next := 1 })).setFld
  CMD_STAT CMD_STAT_READY 0 [] 1).setFld CMD_STAT CMD_STAT_READY 1 [] 1) s

/-- A MGMT message of kind `k` at half 0. -/
def mgmt (k : Nat) (n : List Nat) (b : List Byte) (s : State) : State :=
  chip (fun c => c.updWick 0 (fun p => { p with inbox := [⟨0, 0, 0, 0, 0, .mgmt k n b⟩] })) s

theorem witness_WickDownAndForwarding :
    (let c := (port (fun p => { p with fails := 3 })).chip
     (tGet c.wick 0).fails ≥ 3 ∧ (tGet c.wick 0).down = false) ∧
    (let c := (chip (fun c => c.setFld WCK_CTRL WCK_CTRL_ENABLE 0 [] 0) up).chip
     c.fld WCK_CTRL WCK_CTRL_ENABLE 0 = 0 ∧ c.fld WCK_CTRL WCK_CTRL_ENABLE 1 = 1) ∧
    (let q : WReq := ⟨0, 0, 0, 0, 0⟩
     let s := chip (fun c => c.updWick 0 (fun p => { p with reqs := [q] })) (ready (cmd 0 []) (wickOn up))
     let v : Vig := { up.vig with clk := 10 ^ 12 }
     (tGet s.chip.wick 0).reqs.find? (s.chip.reqExpired 0 v) = some q ∧ s.chip.cmd 0 0 = some (cmd 0 []) ∧
       (tGet (chip (fun c => c.updWick 0 (fun p => { p with reqs := [⟨0, 1, 0, 0, 1⟩] })) up).chip.wick 0).reqs.find? (s.chip.reqExpired 0 v) =
         some ⟨0, 1, 0, 0, 1⟩) := by decide +kernel
theorem witness_WickDownAndForwarding_mgmt :
    [(0, true, none), (1, true, none), (2, true, none), (2, false, some none), (3, false, some none), (3, true, none)].all
      (fun (e : Nat × Bool × Option (Option (Nat × List Byte))) =>
      let s := mgmt e.1 [0, 0] (List.replicate 64 0) (ready { cmd 0 [] with fwd := e.2.1, part := e.2.2 }
        (port (fun p => { p with reqs := [⟨0, 0, 0, 0, 0⟩] })))
      match s.chip.takeMgmt 0 (fun j => j = e.1) with
      | some (j, n, _, c) => j == e.1 && n.headD 9 == 0 && c.cmdReady 0 && (s.chip.cmd 0 0).isSome &&
          (tGet s.chip.wick 0).reqs.any (fun q => decide (q.vc = 0) && decide (q.tag = 0))
      | none => false) = true ∧ up.chip.cmdReady 0 = false ∧
    (let s := ready { cmd 0 [] with src := .far } (wickOn up)
     (s.chip.cmd 0 0).map (fun c => (c.op, c.fwd, c.started, c.timedOut)) = some (0, false, true, false) ∧ s.chip.cmdReady 0 = true ∧
       s.chip.wickUp 0 = true) := by decide +kernel
theorem test_far_nop : out (exec (.adrusNop 0 0) (ready { cmd 0 [] with src := .far, org := 5 } (wickOn up)))
    (fun s => ((tGet s.chip.adrus 0).cmds.length, (tGet s.chip.adrus 0).compl.length,
      (mGet (tGet s.chip.wick 0).txq 0 []).length)) = some (0, 0, 1) := by decide +kernel

/-! Flow engine. -/

/-- A frame of 60 zero bytes with its FCS, and one with a wrong FCS. -/
def frame : List Byte := List.replicate 60 0 ++ ethFcs (List.replicate 60 0)
def badFrame : List Byte := List.replicate 60 0 ++ [0, 0, 0, 0]

/-- Port 0 of half 0 configured; the engine enabled, with a table of 2^10 buckets and profile 0 matched exactly. -/
def flowOn (s : State) : State := chip (fun c => ((((c.setReg ETH_CFG 0 [] 0xFFFF0F).setFld FLW_CTRL FLW_CTRL_ENABLE 0 [] 1).setFld
  FLW_TBL FLW_TBL_LOG2B 0 [] 10).setFld FLW_KPROF FLW_KPROF_EXACT 0 [0] 1).setReg GRD_KEY 0 [0x101] 0xFFFF) s

theorem witness_FrameEntry :
    (let c := (flowOn up).chip
     c.portUp 0 0 = true ∧ 64 ≤ badFrame.length ∧ badFrame.drop 60 ≠ ethFcs (badFrame.take 60) ∧ frame.drop 60 = ethFcs (frame.take 60) ∧
       up.vig.forwards = true ∧ c.fld FLW_CTRL FLW_CTRL_ENABLE 0 ≠ 0 ∧ 64 ≤ c.fld FLW_CTRL FLW_CTRL_MAXFRAME 0 ∧
       c.fld FLW_CTRL FLW_CTRL_MAXFRAME 0 ≤ 9216) ∧
    (let c := (flowOn up).chip
     (c.allocRun 0 60 (c.fld FLW_PB FLW_PB_RX_RESERVE 0) [0]).isSome = true ∧ tb (c.guardMask 0 0x101) 3 = true ∧ (c.log2b 0).isSome = true ∧
       c.fld FLW_KPROF FLW_KPROF_EXACT 0 [0] = 1) := by decide +kernel
/-- A parse graph that accepts every frame at its first node, with profile 0. -/
def accepts (s : State) : State := chip (fun c => c.updFlow 0 (fun f => { f with nodes := [(0, leBytes 64 (0x40 * 2 ^ 49 + 2 ^ 92))] })) (flowOn s)

/-- The engine's frame of run 0. -/
def frm : Machine.Frm := ⟨0, 128, 60, 0, 0, 0, List.replicate 40 0, 0, 0, 0, 0⟩

/-- A frame message of kind `k` that waits at half 0. -/
def packet (k : Nat) (i : List Nat) (s : State) : State :=
  chip (fun c => c.updWick 0 (fun p => { p with inbox := [⟨4, 4, 60, 0, 0, .frame k (List.replicate 60 0) i⟩] })) (flowOn s)

theorem witness_FrameEntry_parsed :
    (let c := (accepts up).chip
     let r := parseFrame (tGet c.flow 0) (frame.take 60) 0 (c.fld FLW_PORT FLW_PORT_START 0 [0])
     r.map (fun r => (r.kprof, c.klen 0 r.kprof)) = some (0, 0) ∧
       (tGet c.flow 0).holds.contains (ownIndex (flowH1 0 0 [])) = false ∧ (tGet c.flow 0).pend.isEmpty = true) := by decide +kernel
theorem witness_FrameEntry_arrivals :
    ((packet 0 [] up).chip.takePacket 0).map (fun r => (r.1, r.2.1.length, (r.2.2.2.allocRun 0 60 0 [0, 1]).isSome)) = some (0, 60, true) ∧
    ((packet 2 [3] up).chip.takePacket 0).map (·.1) = some 2 ∧
    egOnDie (mGet (tGet (packet 2 [3] up).chip.flow 0).egress 3 []) + 60 ≤ 1024 * (packet 2 [3] up).chip.fld FLW_EGQ FLW_EGQ_ONCHIP_KB 0 := by
  decide +kernel
theorem witness_FrameEntry_delivery :
    (let i := [0, 0, 0, 0, 0, 0, 0, 0, 0, 0, 0, 0, 0, 0]
     let s := chip (fun c => c.setCapReg FLW_PBCAP 0 [] (mkCap 0 0x100000 0x3FFF 3 0)) (packet 1 i up)
     let f := frmOfInfo 0 60 i
     let d : Dlv := ⟨0, 0, 0, 0, 0, 0, 0⟩
     ((s.chip.takePacket 0).bind (fun r => r.2.2.2.allocRun 0 60 0 [0])).map (fun r =>
      let w := r.2.frameWrite 0 (bufAt 0 r.1 + 128) (List.replicate 60 0)
      let cap := w.frameCap 0 d.pbva r.1 (runSize 60) d.ten
      let held := (w.frameWrite 0 (bufAt 0 r.1) (rxDesc f)).holdRun s.vig 0 r.1 (runSize 60) d
      (r.1, cap.tag, held.canOffer 0 d.comp)) = some (0, true, true)) := by decide +kernel
theorem witness_FrameEntry_rest :
    (let c := (chip (fun c => c.updFlow 0 (fun f => { f with holds := [5], lookup := [frm], dwait := [⟨0, 0, ⟨Cap.null, Cap.null, 0⟩, 0, 0⟩] })) (flowOn up)).chip
     (tGet c.flow 0).holds.contains 5 = true ∧ c.entryBusy 5 = false ∧ (tGet c.flow 0).lookup[0]? = some frm ∧ c.log2b 0 = some 10 ∧
       c.cacheKey 0 0 0 (List.replicate 40 0) = none ∧ c.bucketBad 0 (c.buckets 0 10 0 0 frm.key).1 = false ∧
       ({ c with ram := c.ram.poisonLine (c.entAddr 0 (4 * (c.buckets 0 10 0 0 frm.key).1)) } : Chip).bucketBad 0 (c.buckets 0 10 0 0 frm.key).1 = true) := by
  decide +kernel
theorem test_bad_fcs_counted : out (exec (.frameReceive 0 0 badFrame ⟨2, 1⟩ 0) (flowOn up))
    (fun s => (s.chip.fld ETH_FCSERR ETH_FCSERR_COUNT 0 [0], s.chip.fld ETH_FECCORR ETH_FECCORR_COUNT 0 [0],
      s.chip.fld ETH_FECUNC ETH_FECUNC_COUNT 0 [0], (tGet s.chip.flow 0).lookup.length)) = some (1, 2, 1, 0) := by decide +kernel
theorem test_frame_looked_up : out (exec (.frameReceive 0 0 frame ⟨0, 0⟩ 0) (accepts up))
    (fun s => ((tGet s.chip.flow 0).lookup.map (fun f => (f.first, f.len)), (tGet s.chip.runs 0).map (·.1))) = some ([(0, 60)], [0]) := by
  decide +kernel

/-- The first bucket's lines painted for the engine. -/
def table (s : State) : State := chip (fun c => c.paint (c.entAddr 0 0) 256 2) (flowOn s)

theorem witness_FlowTable :
    (let c := (table up).chip
     let e := c.mkEnt 0 (List.replicate 40 0) (bfSet (bfSet 1 11 1 0) 38 16 0)
     let b := (c.buckets 0 10 (entKprof e) (entKlen e) (e.take 40)).1
     c.lookupKey 0 0 0 (List.replicate 40 0) = none ∧ c.log2b 0 = some 10 ∧ (c.freeWay 0 b).isSome = true ∧
       (chip (fun c => c.paint (c.entAddr 0 (4 * b)) 64 2) (flowOn up)).chip.guardLine 0 0x101 true (c.entAddr 0 (4 * b)) = .pass) := by
  decide +kernel
theorem witness_FlowTable_updates :
    (let u : Upd := ⟨1, List.replicate 40 0, 1, false, some 0⟩
     let c := (chip (fun c => c.updFlow 0 (fun f => { f with hostq := [u], pend := [⟨frm, 0, []⟩] })) (ready (cmd 0x301 []) (table up))).chip
     (tGet c.flow 0).lastHost = false ∧ c.cmd 0 0 = some (cmd 0x301 []) ∧ (cmd 0x301 []).timedOut = false ∧ u.kind ≠ 0 ∧
       c.lookupKey 0 (bf u.ctl 1 4) (bf u.ctl 5 6) u.key = none ∧ (∀ w, w < 4 → entValid (c.entNow 0 w) = false) ∧
       (c.entNow 0 0).take 40 = u.key ∧ ctlPlain (entCtl (c.entNow 0 0)) = ctlPlain 0 ∧ ctlPlain (entCtl (c.entNow 0 0)) ≠ ctlPlain 1) := by decide +kernel
/-- A machine whose table holds an entry of profile 0, key zero, made by a host insert, painted for the engine. -/
def holdsEntry : State :=
  let s := chip (fun c => c.paint (c.entAddr 0 (4 * (c.buckets 0 10 0 0 (List.replicate 40 0)).1)) 256 2) (flowOn up)
  match s.chip.commitInsert up.vig 0 (List.replicate 40 0) 1 false false with
  | .done _ _ c => { s with chip := c }
  | _ => s

/-- How an insert of the zero key ends: 0 no room, 1 it exists, 2 replaced, 3 inserted. -/
def insertEnd (s : State) (replace : Bool) : Nat :=
  match s.chip.commitInsert s.vig 0 (List.replicate 40 0) 1 false replace with
  | .full _ => 0
  | .exists_ _ _ => 1
  | .done _ r _ => if r then 2 else 3

theorem witness_FlowTable_host :
    insertEnd (table up) false = 3 ∧ insertEnd holdsEntry false = 1 ∧ insertEnd holdsEntry true = 2 ∧
    insertEnd (chip (fun c => c.setFld FLW_TBL FLW_TBL_LOG2B 0 [] 0) (table up)) false = 0 ∧
    (holdsEntry.chip.lookupKey 0 0 0 (List.replicate 40 0)).isSome = true := by decide +kernel
theorem test_chandler_insert : out (exec (.tableUpdateCommit ⟨0, some ⟨List.replicate 40 0, 1, false⟩⟩) (table up))
    (fun s => (tGet s.chip.flow 0).hostq.map (fun u => (u.kind, u.cmd))) = some [(0, none)] := by decide +kernel
theorem witness_FrameEntry_overflow :
    let s := chip (fun c => (c.setFld FLW_EGQ FLW_EGQ_ONCHIP_KB 0 [] 0).setFld FLW_OVF_SIZE FLW_OVF_SIZE_SIZE_8M 0 [] 1) (packet 2 [3] up)
    s.chip.fld FLW_EGQ FLW_EGQ_ONCHIP_KB 0 = 0 ∧ s.chip.ovfLines 0 60 = some [s.chip.ovfArea 0 |>.1] ∧
      (chip (fun c => c.setFld FLW_OVF_SIZE FLW_OVF_SIZE_SIZE_8M 0 [] 0) s).chip.ovfLines 0 60 = none := by decide +kernel
theorem witness_FlowTable_entry :
    let e : List Byte := (up.chip.mkEnt 0 (List.replicate 40 7) (1 + 40 * 2 ^ 5))
    let c := (chip (fun c => { (c.setFld FLW_AGE FLW_AGE_IDLE 0 [] 1) with ram := c.ram.wrN (c.entAddr 0 0) e }) (table up)).chip
    [0, 1, 2, 3].map (fun w => entValid (c.entNow 0 w)) = [true, false, false, false] ∧ tb (entCtl (c.entNow 0 0)) 12 = false ∧
      (c.tick { up.vig with dt := 10 ^ 10 } 0 + 65536 - bf (entCtl (c.entNow 0 0)) 38 16) % 65536 < 0x8000 ∧
      1 ≤ (c.tick { up.vig with dt := 10 ^ 10 } 0 + 65536 - bf (entCtl (c.entNow 0 0)) 38 16) % 65536 := by decide +kernel

/-- A run of two buffers held by compartment 0 since 0, based at 0x100000. -/
def heldRun (s : State) : State := chip (fun c => { c with runs := ⟨[(0, ⟨0, 2, true, 0, 0, 0x100000, 0⟩)], []⟩ }) (flowOn s)

/-- A hand-back capability for it. -/
def hbCap (len : Nat) : Cap := mkCap 0x100000 len 0x3FFF 3 0x100000

/-- Half 0 with that hand-back waiting. -/
def handed (c : Cap) (s : State) : State := chip (fun ch => { ch with hbq := ⟨[⟨0, c, 0, 0, 0⟩], []⟩ }) (heldRun s)

theorem witness_RunsAndPorts :
    (hbCap 4096).otype = 0 ∧ (hbCap 4096).has pPacket = true ∧ (hbCap 4096).colour = 3 ∧ (hbCap 4096).top = 0x100000 + 2048 * 2 ∧
    (hbCap 2048).top ≠ 0x100000 + 2048 * 2 ∧
    ((tGet (handed (hbCap 4096) up).chip.runs 0).find? (fun e => e.2.held && decide (e.2.vbase = (hbCap 4096).base) && decide (e.2.tenant = 0))).isSome = true ∧
    (let s := chip (fun c => { c.paint (bufAt 0 0) 64 3 with ram := (c.paint (bufAt 0 0) 64 3).ram.wr (bufAt 0 0 + 22) 1 }) (handed (hbCap 4096) up)
     fieldB (Chip.engRead1 s.vig s.chip 0 (bufAt 0 0) 64).2 22 1 ≠ 0) := by decide +kernel
theorem witness_RunsAndPorts_ports :
    (let c := (chip (fun c => c.updFlow 0 (fun f => { f with egress := [(0, [⟨[1, 2], none, []⟩])] })) (heldRun up)).chip
     c.portUp 0 0 = true ∧ mGet (tGet c.flow 0).egress 0 [] = [⟨[1, 2], none, []⟩] ∧ (mGet? (tGet c.runs 0) 0).map (·.held) = some true ∧
       1000 * max 1 (c.fld FLW_PB FLW_PB_HOLD_US 0) ≤ 10 ^ 12 ∧ (tGet c.flow 0).dwait.isEmpty = true) := by decide +kernel
theorem test_handback_refused : out (exec (.handBack 0) (handed (hbCap 2048) up))
    (fun s => (s.chip.fld FLW_HB_REFUSED FLW_HB_REFUSED_COUNT 0, (tGet s.chip.runs 0).length)) = some (1, 1) := by decide +kernel

/-! Meters and time. -/

/-- The island changed. -/
def vig (f : Vig → Vig) (s : State) : State := { s with vig := f s.vig }

/-- A valid time-of-day message for second 7. -/
def tod : List Byte := let b := leBytes 2 0x0AC5 ++ leBytes 6 7 ++ [1, 0]; b ++ leBytes 2 (crcTod b)

theorem witness_MetersAndTime :
    (vig (fun v => { v with clk := 1000000 }) up).vig.gaugeDue 0 = true ∧ up.vig.forwards = true ∧ up.vig.parity < 2 ∧
    (vig (fun v => { v with pair := { v.pair with role := 3 } }) up).vig.forwards = false ∧
    tod.length = 12 ∧ fieldB tod 0 2 = 0x0AC5 ∧ crcTod (tod.take 10) = fieldB tod 10 2 ∧ tb (fieldB tod 8 1) 0 = true ∧
    (0 : Nat) + 100000000 ≤ 900000000 ∧ 7 * 1000000000 > 0 + 1000000 ∧ 0 * 1000000000 ≤ 0 + 1000000 := by decide +kernel
theorem test_pps_steps : out (exec .ppsEdge (vig (fun v => { v with label := some 7, clk := 5 }) up))
    (fun s => (s.vig.dt, s.vig.tstate, s.vig.label)) = some (7000000000, 1, none) := by decide +kernel
theorem test_pps_unlabelled : out (exec .ppsEdge (vig (fun v => { v with edge := some 0, clk := 1001000000, tstate := 3 }) up))
    (fun s => (s.vig.toderr, s.vig.tstate)) = some (1, 1) ∧
    out (exec .ppsEdge (vig (fun v => { v with edge := some 0, clk := 1001000001, tstate := 3 }) up))
      (fun s => (s.vig.toderr, s.vig.tstate)) = some (0, 3) := by decide +kernel
theorem test_meter_added : out (exec (.meterIncrementArrival 1 1 4095 23)
    (chip (fun c => { c with inc := [(incKey 1 1 4095 23, 5)] }) (vig (fun v => { v with banks := [(((1 * 2 + 1) * 4096 + 4095) * 24 + 23, 2 ^ 64 - 1)] }) up)))
    (fun s => (s.vig.bank 1 1 4095 23, s.chip.inc)) = some (4, []) := by decide +kernel
/-! Ledger. -/

/-- A seal since 0 of parity 0, and a root. -/
def seal0 : Seal := ⟨0, 1, 1, 0, 0, false, false, [], ⟨false, false⟩⟩
def root0 : Root := ⟨1, 1, List.replicate 96 0, [], none⟩

theorem witness_Ledger :
    (let v : Vig := { up.vig with dt := minuteNs, gaugeMs := ⟨10, 10⟩ }
     v.boundary < v.dt / minuteNs ∧ v.sealing.isNone = true ∧ v.gaugeDue 0 = false ∧ v.gaugeDue 1 = false) ∧
    (seal0.arrived = false ∧ seal0.part = false ∧ seal0.par < 2 ∧ up.vig.late = [] ∧ up.chip.incLeft 1 0 = false ∧ up.chip.incLeft 0 0 = false ∧
      up.vig.root.isNone = true ∧ up.vig.recovered = true ∧ up.vig.mirrors = false) ∧
    ({ up.vig with late := [(0, [5])] } : Vig).late ≠ [] ∧ root0.sig = none ∧ (List.replicate 64 (0 : Byte)).length = 64 ∧ up.vig.flashN (slotAddr (up.vig.slotOf 1)) 64 = List.replicate 64 0xFF ∧
    (up.vig.resetN = false ∧ (256 : Nat) ≤ 4096) := by decide +kernel
theorem blank_header {v : Vig} (h : v.flash = []) (sec : Nat) : v.headerOf sec = none := by
  have e : v.flashN (sec * 65536) 64 = List.replicate 64 0xFF := by
    simp [Vig.flashN, h, mGet, mGet?, List.map_const']
  simp only [Vig.headerOf, e]
  decide
theorem blank_base {v : Vig} (h : v.flash = []) (n sec : Nat) : v.seqBaseBy n sec = none := by
  induction n generalizing sec with
  | zero => rfl
  | succ n ih => simp [Vig.seqBaseBy, blank_header h, ih]
/-- A device whose ledger flash is blank has no SEQ to go on from. -/
theorem blank_highest {v : Vig} (h : v.flash = []) : v.highest none = none := by
  have e : ∀ l : List Nat, l.foldl (fun (best : Option Nat) sec => match v.seqBase none sec, v.lastSlot sec with
      | some b, some k => some (max (b + k) (best.getD 0))
      | _, _ => best) none = none := by
    intro l
    induction l with
    | nil => rfl
    | cons a l ih => simpa [Vig.seqBase, blank_base h] using ih
  exact e v.ring
theorem witness_Ledger_recovery :
    let u : Vig := { up.vig with sectors := 256, recovered := false }
    u.highest (u.anchor.map (fun b => fieldB b 8 8)) = none ∧ u.resetN = false := by
  have h : ({ up.vig with sectors := 256, recovered := false } : Vig).anchor = none := by decide +kernel
  exact ⟨by rw [h]; exact blank_highest rfl, rfl⟩
/-- A ledger flash whose first ring sector has a header and a last slot that is not erased has a highest SEQ. -/
theorem highest_some {v : Vig} {first : Option Nat} (hr : 2 < v.sectors) (hb : (v.seqBase first 2).isSome = true)
    (hl : (v.lastSlot 2).isSome = true) : (v.highest first).isSome = true := by
  obtain ⟨b, hb⟩ := Option.isSome_iff_exists.mp hb
  obtain ⟨k, hl⟩ := Option.isSome_iff_exists.mp hl
  have e : ∀ (l : List Nat) (best : Option Nat), best.isSome = true ∨ 2 ∈ l →
      (l.foldl (fun (best : Option Nat) sec => match v.seqBase first sec, v.lastSlot sec with
        | some b, some k => some (max (b + k) (best.getD 0))
        | _, _ => best) best).isSome = true := by
    intro l
    induction l with
    | nil => intro best h; simpa using h
    | cons a l ih =>
      intro best h
      refine ih _ ?_
      rcases h with h | h
      · left; show (match v.seqBase first a, v.lastSlot a with
          | some b, some k => some (max (b + k) (best.getD 0))
          | _, _ => best).isSome = true
        split <;> simp [h]
      · rcases List.mem_cons.mp h with h | h
        · left; subst h; simp [hb, hl]
        · exact Or.inr h
  exact e v.ring none (Or.inr (by simp [Vig.ring]; omega))
/-- The header of the first ring sector, with its last slot written. -/
def written : NMap Byte :=
  let b : List Byte := [0x58, 0x4C, 0x52, 0x53] ++ leBytes 4 1 ++ leBytes 8 1 ++ List.replicate 44 0
  ((b ++ leBytes 4 (crc32c 0xFFFFFFFF b)).zipIdx.map (fun e => (2 * 65536 + e.2, e.1))) ++ [(slotAddr (2, 1022), 0)]
theorem witness_Ledger_found :
    let u : Vig := { up.vig with sectors := 256, recovered := false, flash := written }
    (u.highest (u.anchor.map (fun b => fieldB b 8 8))).isSome = true :=
  highest_some (by decide) (by decide +kernel) (by decide +kernel)
theorem test_minute_boundary : out (exec .minuteBoundary (vig (fun v => { v with dt := minuteNs + 5, gaugeMs := ⟨10, 10⟩ }) up))
    (fun s => (s.vig.parity, s.vig.boundary, s.vig.sealing.map (fun x => (x.par, x.minute, x.span)))) = some (1, 1, some (0, 1, 1)) := by
  decide +kernel
theorem test_flash_program : out (exec (.flashSlotWritten 0) (vig (fun v => { v with progs := [(1, List.replicate 64 0xA5, false)] }) up))
    (fun s => (s.vig.progs.length, s.vig.flashN (slotAddr (s.vig.slotOf 1)) 64 == List.replicate 64 0xA5)) = some (0, true) := by
  decide +kernel
theorem test_erase_fails_thrice : out (exec (.ledgerSectorErase false) (vig (fun v => { v with erase := some (2, 3) }) up))
    (fun s => s.vig.erase) = some none := by decide +kernel

/-! Mirror and pair. -/

/-- Half 0's mirror link up, changed. -/
def mir (f : MirLink → MirLink) (s : State) : State := chip (fun c => c.updMir 0 (fun l => f { l with up := true })) s

/-- The pair changed. -/
def pair (f : Pair → Pair) (s : State) : State := vig (fun v => { v with pair := f v.pair, clk := 10 ^ 6 }) s

/-- A cell of channel 1 with number `n`, whole message, right CRC. -/
def cell (n : Nat) : List Byte := cellBytes ⟨1, true, true, false, List.replicate 56 0⟩ n 0 false

theorem witness_MirrorLinks :
    (let hd := fieldB (cell 0) 0 6
     fieldB (cell 0) 6 2 = crc16 (sliceB (cell 0) 8 56 ++ leBytes 6 hd) ∧ bf hd 0 3 = 1 ∧ tb hd 5 = false ∧ bf hd 8 16 = (65535 + 1) % 65536 ∧
       tb hd 3 = true ∧ tb hd 4 = true) ∧
    (let hd := fieldB (cell 1) 0 6
     bf hd 8 16 ≠ (65535 + 1) % 65536 ∧ bf hd 8 16 ≠ 65535 ∧ (bf hd 8 16 + 65536 - 65535) % 65536 < 32768) ∧
    fieldB (List.replicate 64 (1 : Byte)) 6 2 ≠ crc16 (sliceB (List.replicate 64 (1 : Byte)) 8 56 ++ leBytes 6 (fieldB (List.replicate 64 (1 : Byte)) 0 6)) := by
  decide +kernel
theorem witness_MirrorLinks_link :
    (let c : MCell := ⟨1, true, true, false, List.replicate 56 0⟩
     let l := tGet (mir (fun l => { l with txq := [(1, [c])] }) up).chip.mir 0
     l.up = true ∧ l.resend = [] ∧ tGet up.chip.mirq 0 = [] ∧ l.pick 0 = some 1 ∧ mGet l.txq 1 [] = [c] ∧ c.unseq = false ∧ l.replay.length < 4096) ∧
    (let c := (mir (fun l => { l with replays := 8, hbAt := some (10 ^ 6) }) (pair (fun p => { p with role := 3 }) up))
     8 ≤ (tGet c.chip.mir 0).replays ∧ c.chip.linkPath c.vig = true ∧ c.vig.pair.gotYield = false) ∧
    (let s := pair (fun p => { p with role := 3 }) (chip (fun c => c.setFld MIR_CTRL MIR_CTRL_ENABLE 0 [] 1) up)
     s.chip.linkPath s.vig = false ∧ (tGet s.chip.mir 0).up = false ∧ s.chip.fld MIR_CTRL MIR_CTRL_ENABLE 0 ≠ 0 ∧
       s.vig.pair.edgeAt + 20000 ≤ s.vig.clk ∧ s.vig.pair.aliveHeld = false ∧ (tGet s.chip.mir 0).hbSent + 5000 ≤ s.vig.clk) := by decide +kernel
theorem witness_MirrorLinks_replay :
    let c : MCell := ⟨1, true, true, false, List.replicate 56 0⟩
    let l := tGet (mir (fun l => { l with replay := [(0, c)], resend := [(0, c)] }) up).chip.mir 0
    l.resend = [(0, c)] ∧ l.replay ≠ [] ∧ l.progress + 20000 ≤ 10 ^ 6 ∧ (tGet up.chip.mir 0).up = false ∧
      (tGet up.chip.half 0).inReset = false ∧ (chip (fun c => c.setFld MIR_CTRL MIR_CTRL_ENABLE 0 [] 0) up).chip.fld MIR_CTRL MIR_CTRL_ENABLE 0 ≠ 1 ∧
      (chip (fun c => c.setFld MIR_CTRL MIR_CTRL_ENABLE 0 [] 1) up).chip.fld MIR_CTRL MIR_CTRL_ENABLE 0 ≠ 0 ∧ up.vig.pair.aliveHeld = false := by decide +kernel
theorem test_heartbeat : out (exec .heartbeatSend (mir id (pair id up)))
    (fun s => (s.vig.pair.aliveOut, (mGet (tGet s.chip.mir 0).txq 0 []).length, (mGet (tGet s.chip.mir 1).txq 0 []).length)) =
    some (true, 1, 0) := by decide +kernel
theorem test_path_timeout_takes : out (exec .pathTimeout (pair (fun p => { p with role := 3 }) up)) (fun s => s.vig.pair.takeDue) =
    some (some 3) := by decide +kernel

theorem witness_PairRoles :
    (let p := (pair (fun p => { p with role := 3, takeDue := some 3, failMode := 1, failAt := some 0, fallback := 1 }) up).vig
     p.pair.takeDue = some 3 ∧ p.pair.role = 3 ∧ p.pair.fallback ≠ 0 ∧ p.pair.failAt = some 0 ∧ 0 + p.pair.fallback * 1000 ≤ p.clk) ∧
    (let s := chip (fun c => c.updMir 1 (fun l => { l with up := true })) (mir id (pair (fun p => { p with role := 4 }) up))
     4 ≤ s.vig.pair.role ∧ s.vig.pair.step = 0 ∧ s.vig.pair.autoResync = 1 ∧ s.chip.linksUp = true ∧ s.chip.mirDrained = true ∧
       s.chip.mir.h0.inbox = [] ∧ s.chip.mir.h1.inbox = []) ∧
    (let s := flowOn up
     s.chip.log2b 0 = some 10 ∧ (tGet s.chip.mir 0).bucket < 2 ^ 10 ∧
       (chip (fun c => c.setFld FLW_TBL FLW_TBL_LOG2B 1 [] 10) s).chip.bucketsDone 1 = false ∧ s.chip.linesDone 0 = false ∧
       s.chip.record 0 = none ∧ s.chip.linksUp = false) ∧
    (yieldCond 0 0 (pair (fun p => { p with role := 1 }) up).vig
      (chip (fun c => c.updHalf 0 (fun x => { x with inReset := true })) up).chip = true ∨
     (List.range 16).any (fun r => yieldCond r 0 (pair (fun p => { p with role := 1 }) up).vig
      (chip (fun c => c.updHalf 0 (fun x => { x with inReset := true })) up).chip) = true) := by decide +kernel
theorem witness_PairRoles_copy :
    (let s := chip (fun c => (c.setFld FLW_TBL FLW_TBL_LOG2B 1 [] 10)) (flowOn (pair (fun p => { p with role := 2, peerRole := 4, step := 3 }) up))
     s.chip.bucketsDone 1 = false ∧ s.chip.bucketsDone 0 = false ∧ s.chip.copyTurn 0 = true ∧
       (chip (fun c => c.updMir 0 (fun l => { l with up := true, txq := [(1, [⟨1, true, true, false, List.replicate 56 0⟩])] })) s).chip.copyTurn 0 = false) ∧
    (let s := chip (fun c => c.updMir 1 (fun l => { l with up := true })) (mir id (pair (fun p => { p with role := 2, step := 5 }) up))
     s.chip.mirDrained = true ∧ s.vig.pair.step = 5 ∧ s.chip.linesDone 1 = false) := by decide +kernel
theorem test_takeover : out (exec .takeover (pair (fun p => { p with role := 3, takeDue := some 3, epoch := 2 ^ 32 - 1 }) up))
    (fun s => (s.vig.pair.role, s.vig.pair.epoch)) = some (2, 0) := by decide +kernel

/-- A mirror message on channel `k` at half 0. -/
def mirMsg (k : Nat) (b : List Byte) (s : State) : State := mir (fun l => { l with inbox := [(k, b)] }) s

theorem witness_MirrorContents :
    (pair (fun p => { p with role := 1 }) up).vig.mirrors = true ∧
    (let s := mirMsg 1 (leBytes 4 0 ++ leBytes 4 0 ++ List.replicate 64 0) (table up)
     ((s.chip.mirTake 0 1).map (fun r => fieldB r.1 0 4)) = some 0 ∧ s.chip.log2b 0 = some 10 ∧
       s.chip.guardLine 0 0x101 true (s.chip.entAddr 0 0) = .pass) ∧
    ((mirMsg 2 [] up).chip.mirTake 0 2).isSome = true ∧ ((mirMsg 3 [] up).chip.mirTake 0 3).isSome = true ∧
    ((mirMsg 4 [] up).chip.mirTake 0 4).isSome = true := by decide +kernel
theorem witness_MirrorContents_lines :
    ((match Chip.xlateFresh up.vig up.chip 0 0 0 0 2 with
     | .bad _ _ => true
     | .ok _ _ _ => false) = true) ∧ seal0.since + 1000000 ≤ 10 ^ 6 ∧ tGet seal0.finals 0 = false := by decide +kernel
/-- Tenant 0 in the small configuration, and compartment 0's page at 0x400000 mapped to 0x2000, of colour 5. -/
def space (s : State) : State := chip (fun c =>
  let c := (c.setFld XLT_TTAB XLT_TTAB_BASE_512K 0 [] 1).setFld XLT_S1TAB XLT_S1TAB_BASE_8M 0 [] 1
  let c := ((c.paint 0x80000 64 1).paint 0x800000 64 1).paint 0x2000 64 5
  { c with ram := (c.ram.wrN 0x80000 [1]).wrN 0x800000 (leBytes 8 (0x400000 + 15) ++ leBytes 8 0 ++ leBytes 8 0x2000) }) s

/-- A translation's answer as numbers: where it leads, or the cause. -/
def leads (r : XRes) : Nat × Nat :=
  match r with
  | .ok pa _ _ => (0, pa)
  | .bad f _ => (1, f.code)

theorem test_translate : leads (Chip.xlate up.vig (space up).chip 0 none 0 0 0x400FFF 3).2 = (0, 0x2FFF) ∧ leads (Chip.xlate up.vig (space up).chip 0 none 0 0 0x401000 1).2 = (1, 0x20) ∧
    leads (Chip.xlate up.vig up.chip 0 none 0 0 0x400000 1).2 = (1, 0x20) := by decide +kernel
theorem witness_MirrorContents_line :
    let b := leBytes 2 0 ++ leBytes 2 0 ++ leBytes 4 0 ++ leBytes 8 0x400000 ++ [5] ++ List.replicate 95 0
    let s := mirMsg 4 b (space up)
    (s.chip.mirTake 0 4).map (fun r => (leads (Chip.xlateFresh s.vig r.2 0 (fieldB r.1 2 2) (fieldB r.1 0 2) (fieldB r.1 8 8) 2), fieldB r.1 16 1)) =
      some ((0, 0x2000), 5) ∧ s.chip.ram.region 0x2000 = .dram ∧ s.chip.ram.colour 0x2000 = 5 := by decide +kernel
theorem test_load_translated : out (exec (.load 0 (ins 0x1E 3 1 0 0) true)
    (regs [(1, mkCap 0x400000 4096 0x3FFF 5 0x400008)] (chip (fun c => c.setReg GRD_KEY 0 [0] 0xFFFF) (space (run (stat [(13, 2, 0)]) [ins 0x1E 3 1 0 0])))))
    (fun s => (s.chip.task 0).ops.map (fun o => o.pieces.map (·.pa))) = some [[0x2008]] := by decide +kernel

/-! The host interface. -/

/-- A queue pair of 16 entries at bus addresses 0x1000 and 0x2000. -/
def qp : QPair := ⟨0x1000, 0x2000, 16, 0, 0, 0, false, 0, 0, 0, [], 0, 0, 0, true, false, none, 0, 0⟩

/-- Half 0 with its link up and pair 1 as changed. -/
def host (f : QPair → QPair) (s : State) : State := chip (fun c => (c.updAdrus 0 (fun a => { a with pairs := [(1, f qp)] })).setFld
  PCIE_STAT PCIE_STAT_LINKUP 0 [] 1) s

theorem witness_HostQueues :
    (let s := host id up
     mGet? (tGet s.chip.adrus 0).pairs 1 = some qp ∧ 15 % 65536 < qp.size ∧ qp.size ≤ 16 % 65536 ∧ s.chip.hostLink 0 = true) ∧
    (let s := host (fun p => { p with sqTail := 1 }) up
     (mGet? (tGet s.chip.adrus 0).pairs 1).map (fun p => (p.err, p.del.isNone, decide (p.sqRead ≠ p.sqTail))) = some (false, true, true)) ∧
    (let s := host (fun p => { p with sqTail := 1, sqRead := 1, buf := [List.replicate 64 0] }) (ready (cmd 0 []) up)
     (tGet s.chip.adrus 0).pairs.length = 1 ∧ ((tGet s.chip.adrus 0).pairs.filter (fun k => s.chip.fetchable 0 k.1 k.2)).length = 1 ∧
       (tGet s.chip.adrus 0).fetched < 1024 ∧ (tGet s.chip.adrus 0).resetting 0 = false ∧ s.chip.fld PCIE_STAT PCIE_STAT_D3 0 = 0) ∧
    (ready (cmd 0 []) up).chip.cmdReady 0 = true := by decide +kernel
theorem witness_HostQueues_rest :
    (let r : Ring := ⟨0, 16, 64, 0, 0, 0, false, true⟩
     let s := chip (fun c => c.updAdrus 0 (fun a => { a with rings := [(2, r)] })) up
     mGet? (tGet s.chip.adrus 0).rings 2 = some r ∧ 15 % 65536 < r.size) ∧
    (let s := host (fun p => { p with coCount := 1, time := 1 }) up
     (mGet? (tGet s.chip.adrus 0).pairs 1).map (fun p => (p.coCount, p.coSince + p.time * 1000)) = some (1, 1000)) ∧
    (cmd 0x305 []).src = .pair 1 ∧ (opInfo 0x305).map (·.input) = some true ∧
    (ready { cmd 0x305 [] with started := false } up).chip.canStart up.vig 0 { cmd 0x305 [] with started := false } = true ∧
    (cmd 0 []).at_ + max (max 1 (up.chip.fld CMD_TIMEOUT CMD_TIMEOUT_LIMIT_MS 0) * 1000000) (cmd 0 []).bound ≤ 10 ^ 15 := by
  decide +kernel
theorem witness_HostQueues_complete :
    (let s := chip (fun c => c.updAdrus 0 (fun a => { a with compl := [((cmd 0 []).compl 0 [] [])] })) (host id up)
     s.chip.fld PCIE_STAT PCIE_STAT_LINKUP 0 = 1 ∧ ((tGet s.chip.adrus 0).compl[0]?.map (fun c => decide (c.src = .pair 1))) = some true ∧
       qp.del = none ∧ 0 < qp.size) ∧
    ((cmd 0 [4]).compl 0 [] []).noirq = true := by decide +kernel
theorem test_fetch : out (exec (.commandFetch 0) (host (fun p => { p with sqTail := 1, sqRead := 1, buf := [leBytes 2 1 ++ List.replicate 6 0 ++ leBytes 8 0x20000 ++ List.replicate 48 0] })
    (ready (cmd 0 []) (vig (fun v => { v with lc := 3 }) up)))) (fun s => ((tGet s.chip.adrus 0).cmds.map (fun c => (c.id, c.op)),
      (mGet? (tGet s.chip.adrus 0).pairs 1).map (fun p => (p.sqHead, p.buf.length)))) = some ([(0, 0), (1, 1)], some (1, 0)) := by decide +kernel
theorem test_bad_tail : out (exec (.sqDoorbell 0 1 16) (host id up)) (fun s => (mGet? (tGet s.chip.adrus 0).pairs 1).map (·.err)) = some (some true) := by
  decide +kernel

theorem witness_RegisterAccess : up.chip.half.h0.inReset = false ∧ (tGet State.reset.chip.half 0).inReset = true ∧ up.vig.compute 0 = false ∧
    (vig (fun v => { v with straps := 1 }) up).vig.compute 0 = true ∧ regHit (paLocal 0) = none ∧ up.vig.pair.role ≠ 3 := by decide +kernel
theorem test_write_one_clears : out (exec (.registerWrite (WCK_ERR.at 0 []) 1 true) (chip (fun c => c.setReg WCK_ERR 0 [] 3) up))
    (fun s => s.chip.reg WCK_ERR 0 []) = some 2 := by decide +kernel
theorem test_read_clears : out (exec (.counterReadClear (FLW_RX_DROP.at 1 [])) (chip (fun c => c.setReg FLW_RX_DROP 1 [] 9) up))
    (fun s => s.chip.reg FLW_RX_DROP 1 []) = some 0 := by decide +kernel

theorem witness_HostPortsAndScan :
    (let s := chip (fun c => (c.setFld PCIE_STAT PCIE_STAT_LINKUP 0 [] 1).setReg GRD_KEY 0 [0x102] 0xFFFF) (chip (fun c => c.paint 0x2000 64 5) up)
     s.chip.hostLink 0 = true ∧ 0x203F % 64 + 1 ≤ 64 ∧ s.chip.fld PCIE_STAT PCIE_STAT_D3 0 = 0 ∧ s.chip.inboundOut 0 = false ∧
       (chip (fun c => c.setFld PCIE_STAT PCIE_STAT_D3 0 [] 1) s).chip.fld PCIE_STAT PCIE_STAT_D3 0 = 1 ∧ inbSize (.read 8) = 8 ∧
       s.chip.unreachable 0 [(0x203F, 1)] = false ∧
       s.chip.partsBad [(0x203F, 1)] = false ∧ (s.chip.ram.region 0x203F).isCsr = false ∧ hbPort 0x203F = none ∧
       s.chip.guardLine 0 0x102 true 0x203F = .pass ∧ s.chip.guardLine 0 0x102 false 0x203F = .pass) := by decide +kernel
theorem witness_HostPortsAndScan_rest :
    up.chip.fld PCIE_STAT PCIE_STAT_LINKUP 0 = 0 ∧ (flowOn up).chip.portUp 0 0 = true ∧ up.vig.i3c.addr = 0 ∧
    (match up.chip.guardLine 0 0x102 false 0x2000 with
     | .violation _ _ _ => true
     | _ => false) = true ∧
    (let s := vig (fun v => { v with i3c := { v.i3c with addr := 8 } }) up
     s.vig.i3c.addr ≠ 0 ∧ s.vig.i3c.busy = false ∧ (⟨0, .i3c, 0, leBytes 2 4 ++ List.replicate 62 0, 0, 0, false, false, false, false, 0, none⟩ : Cmd).admission s.vig s.chip = 0) ∧
    State.reset.vig.resetN = true := by decide +kernel
/-- Half 0's endpoint up in a machine whose Wick is up, its guard admitting colour 5 of half 1. -/
def farHost : State := chip (fun c => (c.setFld PCIE_STAT PCIE_STAT_LINKUP 0 [] 1).setReg GRD_KEY 0 [0x102] 0xFFFF)
  (chip (fun c => c.paint (2 ^ 40 + 0x2000) 64 5) (far []))

theorem witness_HostPortsAndScan_far :
    let c := farHost.chip
    c.hostLink 0 = true ∧ c.inboundOut 0 = false ∧ c.unreachable 0 [(2 ^ 40 + 0x2000, 8)] = false ∧ c.partsBad [(2 ^ 40 + 0x2000, 8)] = false ∧
      (c.ram.region (2 ^ 40 + 0x2000)).isCsr = false ∧ hbPort (2 ^ 40 + 0x2000) = none ∧ paHalf (2 ^ 40 + 0x2000) ≠ 0 ∧
      c.guardLine 0 0x102 false (2 ^ 40 + 0x2000) = .pass := by decide +kernel
theorem test_bar0_reads : out (exec (.pcieInboundAccess 0 ⟨true, 0⟩ (.read 8) false) (chip (fun c => c.setFld PCIE_STAT PCIE_STAT_LINKUP 0 [] 1) up))
    (fun s => (tGet s.chip.adrus 0).inb.length) = some 8 := by decide +kernel
theorem test_extest : out (exec (.extest 5 6) State.reset) (fun s => (s.vig.jtag.out, s.vig.jtag.bsr, s.vig.jtag.driven)) = some (5, 6, true) ∧
    out (exec (.extest 5 6) up) (fun s => (s.vig.jtag.bsr, s.vig.jtag.driven, s.vig.jtag.out)) = some (0, false, 12) := by decide +kernel
/-! The opcodes: command 0 of half 0 has started, with what each clause asks. -/

/-- The bytes 2 to 63 of an entry: flags, target and PARAM fields (place, bytes, value). -/
def ent (fl t : Nat) (l : List (Nat × Nat × Nat)) : List Byte :=
  (l.foldl (fun b e => b.take e.1 ++ leBytes e.2.1 e.2.2 ++ b.drop (e.1 + e.2.1))
    ([0, 0, BitVec.ofNat 8 fl, 0, 0, 0, 0, 0] ++ leBytes 8 t ++ List.replicate 48 0)).drop 2

/-- An opcode, its entry, what changes the machine, and what holds there. -/
abbrev Offer := Nat × List Byte × (State → State) × (State → Cmd → Bool)

/-- The machine with the command started. -/
def offered (o : Offer) : State := o.2.2.1 (ready (cmd o.1 o.2.1) up)

/-- The command has started there, and its clause's conditions hold. -/
def Offers (o : Offer) : Prop := ∃ c, Started (offered o) 0 0 o.1 c ∧ o.2.2.2 (offered o) c = true

/-- The same as a value. -/
def offersB (o : Offer) : Bool :=
  match (offered o).chip.cmd 0 0 with
  | none => false
  | some c => decide (c.op = o.1 ∧ c.fwd = false ∧ c.started = true ∧ c.timedOut = false ∧ c.src ≠ .far ∧
      (tGet (offered o).chip.half 0).inReset = false ∧ ((offered o).chip.cmdReady 0 = true ∨ c.fast = true)) && o.2.2.2 (offered o) c

theorem offers {l : List Offer} (h : l.all offersB = true) : ∀ o ∈ l, Offers o := by
  intro o ho
  have h1 := List.all_eq_true.mp h o ho
  unfold offersB at h1
  split at h1
  · cases h1
  · rename_i c hc
    rw [Bool.and_eq_true] at h1
    obtain ⟨h2, h3⟩ := h1
    have h4 := of_decide_eq_true h2
    exact ⟨c, ⟨by decide, hc, h4⟩, h3⟩

/-- Nothing more is asked. -/
def plain (_ : State) (_ : Cmd) : Bool := true

/-- The island changed in a state in life-cycle state `n`. -/
def lcAt (n : Nat) : State → State := vig (fun v => { v with lc := n })

/-- Half 0 also holds other commands. -/
def beside (l : List Cmd) : State → State := chip (fun c => c.updAdrus 0 (fun a => { a with cmds := a.cmds ++ l }))

theorem witness_CommandStart :
    let s := ready { cmd 0x104 (ent 2 5 []) with started := false } up
    let f := ready { cmd 0x104 (ent 2 0x8005 []) with started := false } up
    up.chip.cmd 0 0 = none ∧ (s.chip.cmd 0 0).map (fun c => (c.op, c.fwd, c.started)) = some (0x104, false, false) ∧ s.chip.cmdReady 0 = true ∧
    (s.chip.cmd 0 0).map (fun c => (s.chip.canStart s.vig 0 c, (opInfo 0x104).map (s.chip.cmdFar 0 c))) = some (true, some false) ∧
    (f.chip.cmd 0 0).map (fun c => (f.chip.canStart f.vig 0 c, (opInfo 0x104).map (f.chip.cmdFar 0 c), c.timedOut)) = some (true, some true, false) ∧
    (wickOn f).chip.wickUp 0 = true ∧ (port (fun p => { p with down := true })).chip.wickUp 0 = false ∧
    (let t := ready { cmd 0x104 (ent 3 5 []) with started := false, id := 1 } up
     let u := chip (fun c => c.updAdrus 0 (fun a => { a with cmds := { cmd 0x104 (ent 2 5 []) with id := 0 } :: a.cmds })) t
     (u.chip.cmd 0 1).map (fun c => u.chip.canStart u.vig 0 c) = some false) := by decide +kernel

/-- Command 0 of half 0 has come to number `n` in its work. -/
def at_ (n : Nat) : State → State := chip (fun c => c.updCmd 0 0 (fun c => { c with aux := n }))

/-- Every slot of Chandler's guard closed. -/
def denied : State → State := chip (fun c => (List.range 16).foldl (fun c b => c.setReg GRD_SLOT 0 [0x100, b] 0) c)

/-- What the clauses of the statement ask. -/
def deviceOffers : List Offer := [
    (0x0, [], id, plain),
    (0x1, ent 0 0 [(52, 4, 4096)], id, fun _ c => c.bufOk 4096), (0x1, ent 0 0 [(52, 4, 4095)], id, fun _ c => !c.bufOk 4096),
    (0x2, ent 0 0 [(16, 1, 1)], host id, fun s _ => (mGet? (tGet s.chip.adrus 0).pairs 1).isSome),
    (0x2, ent 0 0 [(16, 1, 64)], id, fun s c => (mGet? (tGet s.chip.adrus 0).pairs 64).isNone && decide (63 < c.par 16 1)),
    (0x2, ent 0 0 [(16, 1, 63), (18, 2, 4095), (20, 1, 63), (24, 8, 4096)], id, fun s c =>
      (mGet? (tGet s.chip.adrus 0).pairs 63).isNone && decide (c.par 18 2 ≤ 4095 ∧ c.par 20 1 ≤ 63 ∧ c.par 24 8 % 4096 = 0)),
    (0x3, ent 0 0 [(16, 1, 9)], host id, fun s _ => (mGet? (tGet s.chip.adrus 0).pairs 9).isNone),
    (0x3, ent 0 0 [(16, 1, 63)], fun s => chip (fun c => c.updAdrus 0 (fun a => { a with pairs := [(63, qp)] })) s, fun s c =>
      decide ((mGet? (tGet s.chip.adrus 0).pairs 63).isSome = true ∧ c.src ≠ .pair 63 ∧
        (∀ e ∈ (tGet s.chip.adrus 0).cmds, e.src ≠ .pair 63) ∧ (tGet s.chip.adrus 0).compl = [] ∧ ∀ e ∈ (tGet s.chip.adrus 0).pairs, e.2.del = none)),
    (0x3, ent 0 0 [(16, 1, 1)], host id, fun s c => decide ((mGet? (tGet s.chip.adrus 0).pairs 1).map (·.del) = some none ∧ c.src = .pair 1 ∧
      (∀ e ∈ (tGet s.chip.adrus 0).cmds, e.id = c.id) ∧ ∀ e ∈ (tGet s.chip.adrus 0).pairs, e.2.del = none)),
    (0x4, [], id, plain),
    (0x5, [], beside ((List.range 8).map (fun i => { cmd 5 [] with id := i + 1 })), fun s _ =>
      decide (8 ≤ ((tGet s.chip.adrus 0).cmds.filter (fun k => k.op = 5 && k.started && k.id ≠ 0)).length)),
    (0x5, [], id, fun _ c => !c.bufOk 4096),
    (0x5, ent 0 0 [(52, 4, 4096)], id, fun s c => c.bufOk 4096 && decide (tGet s.chip.hev 0 = [])),
    (0x5, ent 0 0 [(52, 4, 4096)], chip (fun c => { c with hev := ⟨[(3, [])], []⟩ }), fun s c =>
      c.bufOk 4096 && decide (tGet s.chip.hev 0 = [(3, [])] ∧ tGet s.chip.evLost 0 = 0))] ++ [
    (0x6, ent 0 0x40000 [], id, fun s c => decide (pathLen c.target = 4 ∧ (s.chip.core 0).inReset = false ∧ (s.chip.core 0).due = none ∧
      c.aux = 0 ∧ ∀ e ∈ s.chip.tasks, tCore e.1 = 0 → e.2.bound = none ∧ e.2.ops = [])),
    (0x6, ent 0 0x30000 [], id, fun s c => decide (pathLen c.target = 3 ∧ (s.chip.clu 0).inReset = false ∧ (s.chip.clu 0).due = none ∧
      s.chip.moves = [] ∧ s.chip.moveEnds = [] ∧ s.chip.compsOf 0 = [] ∧ c.aux = 0)),
    (0x6, ent 0 0x40000 [], at_ 1, fun s c => decide (c.aux = 1 ∧ (s.chip.core 0).inReset = false ∧ (s.chip.core 0).due = none)),
    (0x6, ent 0 0x40000 [], at_ 2, fun s c => decide (1 < c.aux ∧ (s.chip.core 0).due = none)),
    (0x6, ent 0 0x30000 [], at_ 1, fun s c => decide (c.aux = 1 ∧ s.chip.compsOf 0 = [] ∧ (s.chip.clu 0).due = none)),
    (0x6, ent 0 0x30000 [], at_ 2, fun s c => decide (1 < c.aux ∧ s.chip.compsOf 0 = [] ∧ (s.chip.clu 0).due = none)),
    (0x6, ent 0 0x20000 [], at_ 1, fun s c => decide (c.aux ≠ 0 ∧ pathHalf c.target = 0 ∧ ∀ e ∈ (tGet s.chip.adrus 0).cmds, e.id = c.id)),
    (0x6, ent 0 0x20002 [], fun s => at_ 1 (wickOn s), fun s c => decide (c.aux ≠ 0 ∧ pathHalf c.target = 1 ∧ (tGet s.chip.half 1).due = none ∧ s.chip.bothReady 0 = true)),
    (0x6, ent 0 0x20000 [], id, fun s c => decide (pathLen c.target = 2 ∧ pathHalf c.target = 0 ∧ ∀ e ∈ (tGet s.chip.adrus 0).cmds, e.id = c.id)),
    (0x6, ent 0 0x20002 [], wickOn, fun s c => decide (pathLen c.target = 2 ∧ pathHalf c.target = 1 ∧ (tGet s.chip.half 1).inReset = false ∧
      (tGet s.chip.half 1).due = none ∧ s.chip.bothReady 0 = true)),
    (0x7, ent 0 0 [(16, 8, 0x2000)], id, fun s c => !csrTarget s.chip 0 (c.par 16 8) 8),
    (0x7, ent 0 0 [(16, 8, HALF_WDOG.at 0 [])], id, fun s c => csrTarget s.chip 0 (c.par 16 8) 8 && (s.chip.csrGuard 0 (HALF_WDOG.at 0 []) false).1),
    (0x7, ent 0 0 [(16, 8, HALF_WDOG.at 0 [])], denied, fun s c =>
      csrTarget s.chip 0 (c.par 16 8) 8 && !(s.chip.csrGuard 0 (HALF_WDOG.at 0 []) false).1),
    (0x8, ent 0 0 [(16, 8, HALF_WDOG.at 0 [] + 4), (32, 1, 1)], id, fun s c => csrTarget s.chip 0 (c.par 16 8) 4 && (s.chip.csrGuard 0 (HALF_WDOG.at 0 []) true).1),
    (0x8, ent 0 0 [(16, 8, 0x2000)], id, fun s c => !csrTarget s.chip 0 (c.par 16 8) 8),
    (0x700, [], id, plain),
    (0x702, ent 0 0 [(52, 4, 256)], id, fun _ c => c.bufOk 256), (0x702, [], id, fun _ c => !c.bufOk 256),
    (0x703, ent 0 0 [(16, 2, 4096)], id, fun _ c => c.par 16 2 = 4096), (0x703, ent 0 0 [(16, 2, 4095)], id, fun _ c => c.par 16 2 = 4095),
    (0x703, ent 0 0 [(16, 2, 0xFFFF)], lcAt 2, fun s c => c.par 16 2 = 0xFFFF && s.vig.lc ≠ 1),
    (0x703, ent 0 0 [(16, 2, 0xFFFF)], lcAt 1, fun s c => c.par 16 2 = 0xFFFF && s.vig.lc = 1),
    (0x704, ent 0 0 [(16, 2, 4096)], id, fun _ c => c.par 16 2 = 4096),
    (0x704, ent 0 0 [(16, 2, 4095)], id, fun s c => decide (c.par 16 2 = 4095 ∧ s.vig.session.map (·.scope) ≠ some 4095)),
    (0x704, ent 0 0 [(16, 2, 0xFFFF)], vig (fun v => { v with session := some ⟨1, 0xFFFF, 0, 5⟩ }), fun s _ =>
      decide (s.vig.session.map (·.scope) = some 0xFFFF)),
    (0x701, ent 0 0 [(16, 1, 3), (20, 4, 0x4C430003)], id, fun s c => decide (s.vig.lcNext = none ∧ c.par 16 1 ≠ s.vig.lc + 1)),
    (0x701, ent 0 0 [(16, 1, 2), (20, 4, 0x4C430002)], vig (fun v => { v with sealing := some seal0 }), fun s c =>
      decide (s.vig.lcNext = none ∧ c.par 16 1 = s.vig.lc + 1 ∧ c.par 20 4 = 0x4C430002 ∧ s.vig.sealBusy = true))]
theorem witness_DeviceOpcodes : ∀ o ∈ deviceOffers, Offers o := offers (by decide +kernel)
/-- Both halves held by a transition to state `t`. -/
def midLc (t : Nat) : State :=
  let f := fun (x : Half) => { x with inReset := true, held := true }
  vig (fun v => { v with lcNext := some t, dbgKeys := [(7, []), (0xFFFF, [])] }) (chip (fun c => (c.updHalf 0 f).updHalf 1 f) up)
theorem witness_LcTransition : up.vig.sealBusy = false ∧ (vig (fun v => { v with lcNext := some 2 }) up).vig.lcNext = some 2 ∧
    up.chip.lcHeld = false ∧ (midLc 2).chip.lcHeld = true ∧ (midLc 2).vig.session = none ∧ (midLc 2).vig.sealBusy = false ∧
    (midLc 2).vig.lc = 1 ∧ (vig (fun v => { v with sealing := some seal0 }) (midLc 2)).vig.sealBusy = true := by decide +kernel
theorem test_lc_advance : out (exec (.lcAdvance 0 0) (ready (cmd 0x701 (ent 0 0 [(16, 1, 2), (20, 4, 0x4C430002)])) up))
    (fun s => (s.vig.lc, s.vig.entries, s.vig.lcNext, s.chip.lcHeld)) = some (1, 1, some 2, true) := by decide +kernel
theorem test_lc_stages : out (exec (.lcAdvance 0 0) (midLc 2)) (fun s => (s.vig.lc, s.vig.entries, s.vig.lcNext)) = some (2, 2, some 2) ∧
    out (exec (.lcAdvance 0 0) (vig (fun v => { v with lc := 2, entries := 2 }) (midLc 2)))
      (fun s => (s.vig.entries, s.vig.lcNext, s.vig.dbgKeys.map (·.1), s.chip.half.h0.held)) = some (2, none, [0xFFFF], false) := by
  decide +kernel
theorem test_csr_read : out (exec (.csrRead 0 0) (ready (cmd 0x7 (ent 0 0 [(16, 8, HALF_WDOG.at 0 [])])) up))
    (fun s => (tGet s.chip.adrus 0).compl.map (fun k => (k.status, fieldB k.result 0 4))) = some [(0, 0x280032)] := by decide +kernel
/-- Chandler can take a command for both halves. -/
def both (s : State) : Bool := s.chip.bothReady 0

/-- A byte of a record changed. -/
def recB (id o : Nat) (l : List Byte) (s : State) : State := chip (fun c => { c with ram := c.ram.wrN (c.recAddr id + o) l }) s

/-- A creation block of a compound compartment of tenant 0 whose parent is compartment 5, or none. -/
def blk (parent : Bool) : List Byte :=
  leBytes 2 (if parent then 5 else 0) ++ [0, 0, 0, 0, 0, 2, 4, if parent then 5 else 1, 255, 5] ++ leBytes 4 64 ++ List.replicate 112 0

/-- Compartment 5, compound, of depth `n` and budget 64. -/
def family (n : Nat) (s : State) : State := recB 5 116 (leBytes 4 64) (recB 5 107 [BitVec.ofNat 8 n] (comp 5 2 true s))

/-- The other half has ended its part of command 0 with a status. -/
def farDid (st : Nat) (s : State) : State :=
  chip (fun c => c.updCmd 0 0 (fun c => { c with aux := 1, part := some (some (st, leBytes 4 3)) })) s

/-- Task 0 is bound to compartment 5. -/
def bound5 (s : State) : State := chip (fun c => { c with tasks := [(0, { tskM [] with bound := some 5 })] }) s

def compOffers : List Offer := [
    (0x100, [], id, fun s _ => !both s),
    (0x100, ent 0 0 [(16, 2, 4096)], wickOn, fun s c => both s && decide (4096 ≤ c.par 16 2) && !s.chip.tenantOk 0 4096 && !s.chip.tenantOk 1 4096),
    (0x100, ent 0 0 [(16, 2, 4095), (24, 8, 2 ^ 41 - 4096)], wickOn, fun s c => both s && rootOk (c.par 24 8) && rootOk (c.par 32 8) &&
      !s.chip.tenantOk 0 4095 && !s.chip.tenantOk 1 4095 && s.chip.inDram 0 0 (4096 / 128) && s.chip.inDram 1 0 (4096 / 128)),
    (0x100, ent 0 0 [(16, 2, 4095)], fun s => at_ 1 (wickOn s), fun _ c => decide (c.aux ≠ 0 ∧ c.part = none)),
    (0x100, ent 0 0 [(16, 2, 4095)], fun s => farDid 0x105 (wickOn s), fun _ c => decide (c.par 16 2 < 4096 ∧ (c.part.bind id).map (·.1) = some 0x105)),
    (0x100, ent 0 0 [(16, 2, 4095)], fun s => farDid 0 (wickOn s), fun _ c => rootOk (c.par 24 8) && rootOk (c.par 32 8) && decide ((c.part.bind id).map (·.1) = some 0)),
    (0x100, ent 0 0 [(16, 2, 4095)], wickOn, fun s c => both s && decide (c.aux = 0) && !s.chip.inDram 0 (2 ^ 40 - 64) 64),
    (0x101, [], id, fun s _ => !both s),
    (0x101, [], fun s => wickOn (space s), fun s _ => both s && s.chip.tenantOk 0 0 && !s.chip.tenantUsed 0 0),
    (0x101, [], fun s => wickOn (comp 5 0 true (space s)), fun s _ => both s && s.chip.tenantOk 0 0 && s.chip.tenantUsed 0 0),
    (0x101, [], fun s => farDid 0 (wickOn (space s)), fun s c => Chip.tenantQuiet 0 0 s.chip && decide (c.aux ≠ 0)),
    (0x102, [], fun s => farDid 0x105 (wickOn (space s)), fun s c => Chip.tenantQuiet 0 0 s.chip && decide (c.aux ≠ 0)),
    (0x102, ent 0 0 [(20, 1, 3)], fun s => wickOn (space s), fun s c => both s && s.chip.tenantOk 0 0 && rootOk (c.par 24 8) && rootOk (c.par 32 8)),
    (0x101, ent 0 0 [(16, 2, 4095)], wickOn, fun s _ => both s && !s.chip.tenantOk 0 4095),
    (0x102, [], id, fun s _ => !both s),
    (0x102, ent 0 0 [(20, 1, 2), (24, 8, 1)], fun s => wickOn (space s), fun s c => both s && s.chip.tenantOk 0 0 && !rootOk (c.par 24 8)),
    (0x102, ent 0 0 [(18, 1, 3), (20, 1, 1)], fun s => wickOn (space s), fun s c => both s && s.chip.tenantOk 0 0 && tb (c.par 20 1) 0 && !tb (c.par 20 1) 1),
    (0x103, ent 2 6 [], id, fun _ c => !c.bufOk 128),
    (0x103, ent 2 6 [(52, 4, 128)], id, fun s c => c.bufOk 128 && (s.chip.record c.target).isNone),
    (0x103, ent 2 5 [(52, 4, 128)], comp 5 0 true, fun s c => (s.chip.record c.target).isSome),
    (0x103, ent 2 6 [(52, 4, 128)], space, fun s c => c.bufOk 128 && (s.chip.record c.target).isNone && cbFieldsOk (blk false) && s.chip.tenantOk 0 0 &&
      s.chip.parentOk 6 (blk false) && Chip.cbCapsOk s.vig s.chip 6 (blk false) && decide (s.chip.newDepth (blk false) = 1) &&
      (s.chip.makeComp 6 (blk false) 0 0 1).isSome),
    (0x103, ent 2 6 [(52, 4, 128)], fun s => family 8 (space s), fun s c => c.bufOk 128 && (s.chip.record c.target).isNone && cbFieldsOk (blk true) && s.chip.tenantOk 0 0 &&
      s.chip.parentOk 6 (blk true) && Chip.cbCapsOk s.vig s.chip 6 (blk true) && decide (s.chip.newDepth (blk true) = 9)),
    (0x104, ent 2 5 [], id, fun s c => (s.chip.record c.target).isNone), (0x104, ent 2 5 [], comp 5 0 true, fun s c => (s.chip.record c.target).isSome),
    (0x104, ent 2 5 [], fun s => bound5 (comp 5 0 true s), fun s c => decide (c.aux = 0) && (s.chip.record c.target).isSome && (s.chip.boundTo 5).isSome),
    (0x104, ent 2 5 [], fun s => at_ 1 (bound5 (comp 5 0 true s)), fun s c => decide (c.aux ≠ 0) && (s.chip.boundTo 5).isSome),
    (0x105, [], id, fun s c => c.wide && !both s), (0x105, [], wickOn, fun s c => c.wide && both s && decide (c.aux = 0)),
    (0x105, [], fun s => farDid 0 (wickOn s), fun s c => c.wide && decide (c.aux ≠ 0 ∧ ∀ e ∈ s.chip.tasks, e.2.bound = none)),
    (0x105, ent 2 5 [], fun s => bound5 (comp 5 (2 ^ fPaused) true s), fun s c => c.tgtComp && decide (c.aux = 0) && (s.chip.boundTo 5).isSome &&
      decide (s.chip.subtree 5 = [5] ∧ (s.chip.setFlag 5 fPaused true).ram = s.chip.ram)),
    (0x105, ent 2 5 [], id, fun s c => c.tgtComp && (s.chip.record c.target).isNone && decide (c.aux = 0)),
    (0x105, ent 2 5 [], comp 5 0 true, fun s c => c.tgtComp && (s.chip.record c.target).isSome && decide (c.aux = 0 ∧ ∀ e ∈ s.chip.tasks, e.2.bound = none))] ++ [
    (0x106, ent 2 5 [], id, fun s c => c.tgtComp && (s.chip.record c.target).isNone), (0x106, ent 2 5 [], comp 5 0 true, fun s c => (s.chip.record c.target).isSome),
    (0x106, [], id, fun s c => c.wide && !both s), (0x106, [], wickOn, fun s c => c.wide && both s && decide (c.aux = 0)),
    (0x106, [], fun s => farDid 0 (wickOn s), fun _ c => c.wide && decide (c.aux ≠ 0)),
    (0x107, ent 2 5 [], comp 5 0 true, fun s c => (s.chip.record c.target).isSome && (s.chip.boundTo 5).isNone),
    (0x107, ent 2 5 [], fun s => bound5 (comp 5 0 true s), fun s c => (s.chip.record c.target).isSome && (s.chip.boundTo 5).isSome),
    (0x108, ent 2 5 [(16, 1, 15)], comp 5 16 true, fun s _ => decide (s.chip.movers 5 = [5])),
    (0x108, ent 2 5 [], fun s => at_ 1 (comp 5 16 true s), fun s c => decide (c.aux ≠ 0 ∧ s.chip.moves = [])),
    (0x108, ent 2 5 [], fun s => chip (fun c => { c with moves := [(5, (3, 1 + 2 * 0 + 0))] }) (at_ 1 (comp 5 16 true s)), fun s c =>
      decide (c.aux ≠ 0) && s.chip.moves.any (fun m => m.2.2 = 1 + (2 * c.id + 0))),
    (0x10B, ent 2 5 [], fun s => bound5 (comp 5 0 true s), fun s _ => (s.chip.boundTo 5).isSome),
    (0x107, ent 2 5 [], id, fun s c => (s.chip.record c.target).isNone),
    (0x108, ent 2 5 [], id, fun s c => (s.chip.record c.target).isNone),
    (0x108, ent 2 5 [], comp 5 0 true, fun s c => (s.chip.record c.target).map (·.flag fPinned) = some false && decide (c.aux = 0 ∧ s.chip.fld SCH_BAL SCH_BAL_MODE 0 = 0)),
    (0x108, ent 2 5 [(16, 1, 16)], comp 5 16 true, fun s c => (s.chip.record c.target).map (·.flag fPinned) = some true && decide (c.par 16 1 = 16)),
    (0x109, ent 2 5 [(16, 2, 6)], family 1, fun s c => (s.chip.record c.target).isSome && (s.chip.record 6).isNone),
    (0x109, ent 2 5 [(16, 2, 6)], fun s => comp 6 0 true (family 1 s), fun s c => (s.chip.record c.target).map (·.flag fCompound) = some true &&
      (s.chip.record 6).map (fun m => m.flag fHasParent) = some false),
    (0x109, ent 2 5 [(16, 2, 6)], fun s => recB 6 98 [5] (comp 6 4 true (family 1 s)), fun s c => (s.chip.record c.target).map (·.flag fCompound) = some true &&
      (s.chip.record 6).map (fun m => (m.flag fHasParent, m.parent)) = some (true, 5)),
    (0x10A, ent 2 5 [(16, 4, 63), (21, 1, 1)], fun s => recB 5 106 [0] (family 1 s), fun s c => (s.chip.record c.target).map (·.priv) = some 0 && decide (c.par 16 4 = 63)),
    (0x10A, ent 2 5 [(16, 4, 64), (21, 1, 3), (20, 1, 1)], family 1, fun s c => (s.chip.record c.target).map (·.flag fHasParent) = some false && decide (c.par 16 4 ≤ 2 ^ 32)),
    (0x10B, ent 2 5 [], id, fun s c => (s.chip.record c.target).isNone),
    (0x10B, ent 2 5 [], comp 5 0 true, fun s c => (s.chip.record c.target).map (fun r => (mGet? (s.chip.clu r.cluster).slots r.qslot).isNone) = some true &&
      (s.chip.boundTo c.target).isNone),
    (0x10C, ent 0 0x30000 [(16, 1, 4)], id, fun _ c => c.par 16 1 = 4), (0x10C, ent 0 0x30000 [(16, 1, 3)], id, fun _ c => c.par 16 1 = 3)]
theorem witness_CompartmentOpcodes : ∀ o ∈ compOffers, Offers o := offers (by decide +kernel)
theorem witness_CompartmentOpcodes_tree :
    (let ch := (comp 5 0x200 true up).chip
     ch.subtree 5 = [5] ∧ ch.movers 5 = [5] ∧ (ch.setFlag 5 fPaused true).ram = ch.ram ∧ (ch.record 5).map (fun r => r.flag fPaused) = some true) ∧
    (family 1 up).chip.movers 5 = [] ∧ (∀ i ∈ (comp 5 0 true up).chip.subtree 5, (comp 5 0 true up).chip.boundTo i = none) ∧
    (bound5 (comp 5 0 true up)).chip.subtree 5 = [5] ∧ (bound5 (comp 5 0 true up)).chip.boundTo 5 ≠ none ∧
    (recB 6 98 [5] (comp 6 4 true (family 1 up))).chip.subtree 5 = [5, 6] := by decide +kernel
/-! Signatures and hashes. The neutral point as key and commitment, with scalar 0, verifies over every message, so a witness
can carry bytes that Config leaves open; the vectors are those of FIPS 180-4 and RFC 8032, section 7.1. -/

/-- The neutral point in any scaling. -/
def Neutral (p : EdPt) : Prop := p.x = 0 ∧ p.t = 0 ∧ p.y = p.z

theorem edSub_self (a : Nat) : edSub a a = 0 := by
  have h : a % edP < edP := Nat.mod_lt _ (by decide)
  have h2 : a + edP - a % edP = edP * (a / edP + 1) := by
    have := Nat.div_add_mod a edP
    rw [Nat.mul_add]; omega
  simp [edSub, h2]

theorem edSub_zero (a : Nat) : edSub a 0 = a % edP := by simp [edSub]

theorem Neutral.add {p q : EdPt} (hp : Neutral p) (hq : Neutral q) : Neutral (edAdd p q) := by
  obtain ⟨a, b, c⟩ := hp
  obtain ⟨d, e, f⟩ := hq
  have h1 : edSub p.z 0 * edSub q.z 0 % edP = (p.z + 0) * (q.z + 0) % edP := by
    simp [edSub_zero]
  simp only [Neutral, edAdd, a, b, c, d, e, f, h1, edSub_self]
  refine ⟨by simp, by simp, ?_⟩
  simp only [Nat.zero_mul, Nat.zero_mod, Nat.mul_zero, edSub_zero, Nat.add_zero]
  have h3 : (p.z * q.z % edP + p.z * q.z % edP) % edP = p.z * 2 * q.z % edP := by
    rw [← Nat.add_mod, ← Nat.two_mul, Nat.mul_comm p.z 2, Nat.mul_assoc]
  rw [h3, Nat.mod_mod]

theorem Neutral.mul {p : EdPt} (hp : Neutral p) (f n : Nat) : Neutral (edMul f n p) := by
  induction f generalizing n p with
  | zero => exact ⟨rfl, rfl, rfl⟩
  | succ f ih =>
    simp only [edMul]
    split
    · exact (ih (hp.add hp) _).add hp
    · exact ih (hp.add hp) _

/-- The encoding of the neutral point. -/
def idKey : List Byte := 1 :: List.replicate 31 0

/-- A signature with it. -/
def idSig : List Byte := idKey ++ List.replicate 32 0

theorem edVerify_neutral (m : List Byte) : edVerify idKey m idSig = true := by
  have h1 : edDecode (sliceB idKey 0 32) = some edZero := by decide +kernel
  have h2 : edDecode (sliceB idSig 0 32) = some edZero := by decide +kernel
  have h3 : leNat (sliceB idSig 32 32) = 0 := by decide +kernel
  have h4 : edMul 256 (8 * 0) edB = edZero := by decide +kernel
  have hz : Neutral edZero := ⟨rfl, rfl, rfl⟩
  unfold edVerify
  simp only [h1, h2, h3, h4]
  rw [if_neg (by decide)]
  obtain ⟨a, _, c⟩ := (hz.mul 4 8).add ((hz.mul 256 (leNat (sha512 (sliceB idSig 0 32 ++ sliceB idKey 0 32 ++ m)) % edL)).mul 4 8)
  revert a c
  generalize edAdd _ _ = q
  intro a c
  simp [edEq, a, c, edZero, edSub_self]

theorem edVerify_high {sig : List Byte} (h : edL ≤ leNat (sliceB sig 32 32)) (k m : List Byte) : edVerify k m sig = false := by
  unfold edVerify; simp only []; rw [if_pos h]

theorem shaRound_length (c : ShaCfg) (s : List Nat) (k : Nat) : (shaRound c s k).length = s.length := by
  unfold shaRound; split <;> simp

theorem shaBlock_length (c : ShaCfg) (k s : List Nat) (b : List Byte) : (shaBlock c k s b).length = s.length := by
  have h : ∀ (l : List (Nat × Nat)) (t : List Nat), (l.foldl (fun s e => shaRound c s (e.1 + e.2)) t).length = t.length := by
    intro l
    induction l with
    | nil => intro t; rfl
    | cons e r ih => intro t; rw [List.foldl_cons, ih, shaRound_length]
  simp [shaBlock, h]

theorem shaBlocks_length (c : ShaCfg) (k : List Nat) (n : Nat) (s : List Nat) (b : List Byte) :
    (shaBlocks c k n s b).length = s.length := by
  induction n generalizing s b with
  | zero => rfl
  | succ n ih => simp [shaBlocks, ih, shaBlock_length]

theorem leBytes_length (n v : Nat) : (leBytes n v).length = n := by
  induction n generalizing v with
  | zero => rfl
  | succ n ih => simp [leBytes, ih]

theorem sha256_length (m : List Byte) : (sha256 m).length = 32 := by
  have h : ∀ l : List Nat, (l.flatMap (beBytes 4)).length = 4 * l.length := by
    intro l
    induction l with
    | nil => rfl
    | cons e r ih => simp [List.flatMap_cons, ih, beBytes, leBytes_length]; omega
  show ((shaBlocks _ _ _ h256 _).flatMap (beBytes 4)).length = 32
  rw [h, shaBlocks_length]; rfl

theorem test_sha256 : beNat (sha256 [0x61, 0x62, 0x63]) = 0xba7816bf8f01cfea414140de5dae2223b00361a396177a9cb410ff61f20015ad := by decide +kernel
theorem test_ed25519 : beNat (edPublic (beBytes 32 0x9d61b19deffd5a60ba844af492ec2cc44449c5697b326919703bac031cae7f60)) =
    0xd75a980182b10ab7d54bfed3c964073a0ee172f3daa62325af021a68f707511a := by decide +kernel
theorem test_ed25519_sign : edVerify (beBytes 32 0xd75a980182b10ab7d54bfed3c964073a0ee172f3daa62325af021a68f707511a) []
    (beBytes 64 0xe5564300c360ac729086e2cc806e828a84877f1eb8e5d974d873e065224901555fb8821590a33bacc61e39701cf9b46bd25bf5f0595bbe24655141438e7a100b) = true := by
  decide +kernel
/-- Page 0x10000 of half 0, and the 63 after it, belong to tenant 0. -/
def owned (s : State) : State := chip (fun c => c.setOwner 0 16 4 (2 ^ 15)) (space s)

def memOffers : List Offer := [
    (0x200, ent 0 0 [(16, 2, 0xFFFF), (18, 1, 3), (19, 1, 12), (20, 4, 1)], id, fun _ c => c.par 18 1 = 3),
    (0x200, ent 0 0 [(16, 2, 0xFFFF), (18, 1, 2), (19, 1, 30), (20, 4, 1)], id, fun s c => decide (c.par 19 1 = 30 ∧ 0x10000 % 2 ^ 30 ≠ 0) && s.chip.inDram 0 0 4096 &&
      (lineList 0 4096).all (fun a => s.chip.ram.colour a = 0)),
    (0x200, ent 0 0 [(18, 1, 15), (19, 1, 12), (20, 4, 1)], space, fun s c => s.chip.tenantOk 0 0 && decide (c.par 18 1 = 15) && s.chip.inDram 0 0x10000 4096 &&
      (lineList 0x10000 4096).all (fun a => s.chip.ram.colour a = 0)),
    (0x201, ent 0 0 [(20, 4, 0)], id, fun _ c => c.par 20 4 = 0),
    (0x201, ent 0 0 [(20, 4, 4), (24, 8, 0x10000)], owned, fun s c => s.chip.inDram 0 0x10000 (4 * 4096) && s.chip.pagesOf 0 0 (c.par 24 8) 4),
    (0x202, ent 2 6 [(16, 1, 8)], id, fun _ c => c.par 16 1 = 8),
    (0x202, ent 2 6 [(16, 1, 7)], id, fun s c => (s.chip.record c.target).isNone && (blkOf (sliceB (sliceB c.entry 24 32) 0 256) false 0).isNone),
    (0x202, ent 2 5 [(16, 1, 7), (24, 8, 15), (40, 8, 0x10000)], fun s => comp 5 0 true (owned s), fun s c =>
      match s.chip.record c.target, blkOf (sliceB (sliceB c.entry 24 32) 0 256) false 0 with
      | some r, some b => s.chip.outputOk (some r.tenant) b && !tb (s.chip.tenantFld 0 r.tenant 0 8) 1
      | _, _ => false),
    (0x202, ent 2 5 [(16, 1, 0), (24, 8, 15), (40, 8, 0x20000)], fun s => comp 5 0 true (owned s), fun s c =>
      match s.chip.record c.target, blkOf (sliceB (sliceB c.entry 24 32) 0 256) false 0 with
      | some r, some b => !s.chip.outputOk (some r.tenant) b && !tb (s.chip.tenantFld 0 r.tenant 0 8) 1
      | _, _ => false),
    (0x203, [], id, fun s _ => !both s), (0x203, ent 0 0 [(16, 2, 4096)], wickOn, fun s c => both s && c.par 16 2 = 4096),
    (0x203, ent 0 0 [(16, 2, 4095), (18, 1, 2), (19, 1, 1)], wickOn, fun s c => both s && decide (c.par 16 2 = 4095 ∧ c.par 18 1 = 2)),
    (0x204, [], id, fun s _ => !both s), (0x204, ent 0 0 [(32, 8, 16)], fun s => wickOn (space s), fun s c => both s && s.chip.tenantOk 0 0 && decide (s.chip.tenantFld 0 0 32 8 < c.par 32 8)),
    (0x204, ent 0 0 [(24, 8, 0)], fun s => wickOn (space s), fun s c => both s && s.chip.tenantOk 0 0 && decide (c.par 24 8 = 0 ∧ c.par 32 8 = 0 ∧ s.chip.tenantFld 0 0 24 8 = 0)),
    (0x205, [], chip (fun c => { c with sweepQ := [0] }), fun s c => decide (c.aux ≠ 1) && s.chip.sweepPending 0),
    (0x205, [], id, fun s c => decide (c.aux ≠ 1) && !s.chip.sweepPending 0 && !s.chip.tenantOk 0 0),
    (0x205, [], space, fun s c => decide (c.aux ≠ 1 ∧ 0 ∈ (s.chip.sweepEnqueue 0).sweepNext.sweepQ) && !s.chip.sweepPending 0 && s.chip.tenantOk 0 0)]
theorem witness_MemoryOpcodes : ∀ o ∈ memOffers, Offers o := offers (by decide +kernel)
def memOffers3 : List Offer := [
    (0x201, ent 0 0 [(20, 4, 4), (24, 8, 0x10000)], fun s => at_ 1 (owned s), fun s c => Chip.tenantQuiet 0 0 s.chip && decide (c.aux = 1)),
    (0x201, [], fun s => at_ 1 (chip (fun c => { c with tasks := [(0, { tskM [] with ops := [anOp 0] })] }) (owned s)), fun s c => !Chip.tenantQuiet 0 0 s.chip && decide (c.aux = 1)),
    (0x201, ent 0 0 [(16, 2, 0xFFFF), (20, 4, 1), (24, 8, 0x20000)], fun s => chip (fun c => c.paint 0x20000 4096 2) (owned s), fun s c =>
      decide (c.par 16 2 = 0xFFFF ∧ c.aux ≠ 1) && s.chip.pagesOf 0 0xFFFF 0x20000 1),
    (0x202, ent 2 5 [(16, 1, 7), (24, 8, 15), (40, 8, 0x10000)], fun s => at_ 1 (comp 5 0 true (owned s)), fun s c =>
      decide (c.aux ≠ 0) && (s.chip.record c.target).isSome && Chip.tenantQuiet 0 0 s.chip),
    (0x202, ent 2 6 [(16, 1, 7)], at_ 1, fun s c => decide (c.aux ≠ 0) && (s.chip.record c.target).isNone),
    (0x203, ent 0 0 [(16, 2, 4095), (18, 1, 2), (19, 1, 1)], fun s => farDid 0 (wickOn s), fun s c => !s.chip.usesTlb 0 (fun _ => true) && decide (c.aux ≠ 0)),
    (0x203, ent 0 0 [(16, 2, 4095), (19, 1, 2)], fun s => farDid 0 (wickOn s), fun s c => !s.chip.usesTlb 0 (fun x => x = 4095) && tb (c.par 19 1) 1),
    (0x203, [], fun s => farDid 0x105 (wickOn s), fun s c => !s.chip.usesTlb 0 (fun x => x = 0) && decide (c.aux ≠ 0)),
    (0x203, [], fun s => farDid 0 (wickOn (chip (fun c => { c with tasks := [(0, { tskM [] with ops := [anOp 0] })] }) s)), fun s c =>
      s.chip.usesTlb 0 (fun x => x = 0) && decide (c.aux ≠ 0)),
    (0x204, [], fun s => at_ 1 (wickOn (space s)), fun s c => s.chip.tenantOk 0 0 && decide (c.aux ≠ 0 ∧ c.part = none)),
    (0x204, [], fun s => farDid 0 (wickOn (space s)), fun s c => s.chip.tenantOk 0 0 && decide (c.aux ≠ 0 ∧ (c.part.bind id).map (·.1) = some 0)),
    (0x205, [], at_ 1, fun s c => decide (c.aux = 1 ∧ 0 ∉ s.chip.sweepQ))]
theorem witness_MemoryOpcodes3 : ∀ o ∈ memOffers3, Offers o := offers (by decide +kernel)
def memOffers2 : List Offer := [
    (0x205, [], fun s => wickOn (space s), fun s c => decide (c.aux ≠ 1 ∧ s.chip.sweepQ = []) && !s.chip.sweepPending 0 && s.chip.tenantOk 0 0 && s.chip.sweepFree),
    (0x205, [], chip (fun ch => { ch.updCmd 0 0 (fun c => { c with aux := 1 }) with sweepQ := [0] }), fun s c => decide (c.aux = 1 ∧ 0 ∈ s.chip.sweepQ)),
    (0x206, ent 0 0 [(18, 2, 7)], chip (fun c => { c with adq := ⟨[⟨7, 0, 0, false, true⟩], []⟩ }), fun s c => decide (c.par 16 1 = 0 ∧ ∃ r ∈ tGet s.chip.adq 0, r.id = c.par 18 2)),
    (0x206, ent 0 0 [(18, 2, 8)], id, fun s c => decide (c.par 16 1 = 0 ∧ tGet s.chip.adq 0 = [])),
    (0x206, ent 0 0 [(16, 1, 1), (18, 2, 5)], comp 5 0x200 true, fun s c => decide (c.par 16 1 = 1) && (s.chip.record 5).map (·.flag fPaused) = some true),
    (0x206, ent 0 0 [(16, 1, 2)], id, fun _ c => c.par 16 1 = 2),
    (0x207, ent 0 0 [(24, 8, 32), (52, 4, 64)], id, fun s c => decide (s.vig.lc ≠ 3 ∧ c.par 24 8 % 64 ≠ 0)),
    (0x207, ent 0 0 [(24, 8, 0x10000), (52, 4, 64)], lcAt 3, fun s c => c.bufOk 64 && s.chip.memLine 0x10000 && decide (s.vig.lc = 3 ∧ s.chip.ram.colour 0x10000 ≠ 2)),
    (0x207, ent 0 0 [(24, 8, 0x10000), (52, 4, 64)], chip (fun c => { c with ram := c.ram.poisonLine 0x10000 }), fun s c =>
      c.bufOk 64 && s.chip.memLine 0x10000 && s.chip.lineBad 0x10000 && decide (s.vig.lc ≠ 3)),
    (0x207, ent 0 0 [(24, 8, 0x10000), (52, 4, 4096)], id, fun s c => c.bufOk 64 && (lineList 0x10000 4096).all (fun x => s.chip.memLine x && !s.chip.lineBad x)),
    (0x208, ent 0 0 [(24, 8, 0x10000), (52, 4, 64)], id, fun s c => c.bufOk 64 && s.chip.memLine 0x10000 && !s.chip.lineBad 0x10000 && decide (s.chip.ram.colour 0x10000 = 0)),
    (0x208, ent 0 0 [(24, 8, 0x10000), (52, 4, 64)], fun s => lcAt 3 (chip (fun c => c.paint 0x10000 64 2) s), fun s c =>
      c.bufOk 64 && s.chip.memLine 0x10000 && !s.chip.lineBad 0x10000 && decide (s.chip.ram.colour 0x10000 = 2 ∧ hbPort 0x10000 = none))]
theorem witness_MemoryOpcodes2 : ∀ o ∈ memOffers2, Offers o := offers (by decide +kernel)
theorem witness_MemoryOpcodes_free : (owned up).chip.s1Reaches 0 0x10000 (4 * 4096) = false := by decide +kernel
theorem witness_MemoryOpcodes_used : (chip (fun c => (c.paint (c.s1Addr 5) 64 1).fwWrite (c.s1Addr 5) (leBytes 8 15 ++ leBytes 8 0 ++ leBytes 8 0x10000))
    (comp 5 0 true (owned up))).chip.s1Reaches 0 0x10000 (4 * 4096) = true := by decide +kernel

/-- A flow key with its length. -/
def keyCtl (valid kl : Nat) : List (Nat × Nat × Nat) := [(56, 8, valid + kl * 32)]

/-- A compartment whose events a slot may receive: compartment 5 with QGEN 2 ^ 32 - 1. -/
def queueOf : State → State := fun s => recB 5 120 [0xFF, 0xFF, 0xFF, 0xFF] (comp 5 0 true s)

def flowOffers : List Offer := [
    (0x300, [], vig (fun v => { v with pair := { v.pair with role := 3 } }), fun s _ => !s.vig.forwards),
    (0x300, ent 0 0 (keyCtl 1 41), id, fun s c => s.vig.forwards && decide (bf (c.par 56 8) 5 6 = 41)),
    (0x300, ent 0 0 ((55, 1, 9) :: keyCtl 1 40), id, fun s c => s.vig.forwards && decide (bf (c.par 56 8) 5 6 = 40 ∧ tb (c.par 56 8) 0 = true ∧ c.aux ≠ 1)),
    (0x300, ent 0 0 ((55, 1, 9) :: keyCtl 1 39), id, fun s c => s.vig.forwards && decide (bf (c.par 56 8) 5 6 = 39 ∧ (sliceB c.entry 16 40).getD 39 0 ≠ 0)),
    (0x301, ent 0 0 (keyCtl 0 0), id, fun s c => s.vig.forwards && decide (bf (c.par 56 8) 5 6 = 0 ∧ c.aux ≠ 1 ∧ sliceB c.entry 16 40 = List.replicate 40 0)),
    (0x302, ent 0 0 (keyCtl 0 63), id, fun _ c => decide (bf (c.par 56 8) 5 6 = 63)), (0x302, ent 0 0 (keyCtl 0 40), id, fun _ c => decide (bf (c.par 56 8) 5 6 = 40 ∧ c.aux ≠ 1)),
    (0x304, ent 0 0 [(16, 2, 4096)], id, fun _ c => decide (c.par 16 2 = 4096 ∧ c.aux ≠ 1)), (0x304, ent 0 0 [(16, 2, 4095)], id, fun _ c => decide (c.par 16 2 = 4095 ∧ c.aux ≠ 1)),
    (0x304, ent 0 0 [(16, 2, 0xFFFF)], at_ 1, fun _ c => c.aux = 1),
    (0x300, ent 0 0 ((55, 1, 9) :: keyCtl 1 40), at_ 1, fun s c => s.vig.forwards && decide (bf (c.par 56 8) 5 6 = 40 ∧ tb (c.par 56 8) 0 = true ∧ c.aux = 1)),
    (0x305, ent 0 0 [(16, 2, 4096), (52, 4, 64)], id, fun _ c => c.par 16 2 = 4096),
    (0x305, ent 0 0 [(16, 2, 4095), (52, 4, 64)], id, fun s c => c.bufOk 64 && !s.chip.tplNamed 0 4095),
    (0x306, ent 0 0 [(18, 2, 1), (20, 1, 1)], id, fun _ c => tb (c.par 20 1) 0 && decide (c.par 18 2 ≠ 0)),
    (0x306, ent 0 0 [(16, 2, 4096), (20, 1, 1)], id, fun _ c => tb (c.par 20 1) 0 && decide (c.par 16 2 = 4096)),
    (0x306, ent 0 0 [(16, 2, 4095), (20, 1, 1)], id, fun _ c => tb (c.par 20 1) 0 && decide (c.par 16 2 = 4095)),
    (0x306, ent 0 0 [(18, 2, 5)], id, fun s c => !tb (c.par 20 1) 0 && (s.chip.frontOf 9 5).isNone),
    (0x306, ent 0 0 [(16, 2, 4095), (18, 2, 5)], queueOf, fun s c => !tb (c.par 20 1) 0 && decide (s.chip.frontOf 9 5 = some 5) &&
      (s.chip.record 5).map (fun r => (r.qgen, r.id)) = some (2 ^ 32 - 1, 5)),
    (0x307, ent 0 0 [(16, 4, 65536), (52, 4, 128)], id, fun _ c => c.par 16 4 = 65536), (0x307, ent 0 0 [(16, 4, 65535), (52, 4, 128)], id, fun _ c => c.bufOk 128),
    (0x308, ent 0 0 [(16, 1, 63), (17, 1, 2), (52, 4, 128)], id, fun _ c => c.par 16 1 + c.par 17 1 = 65)]
theorem witness_FlowOpcodes : ∀ o ∈ flowOffers, Offers o := offers (by decide +kernel)
def flowOffers2 : List Offer := [
    (0x308, ent 0 0 [(16, 1, 63), (17, 1, 1), (52, 4, 64)], id, fun s c => c.bufOk 64 && !tb (c.par 18 1) 0 && decide ((tGet s.chip.flow 0).bank < 2)),
    (0x309, ent 0 0 [(16, 1, 16)], id, fun _ c => c.par 16 1 = 16), (0x309, ent 0 0 [(16, 1, 15), (20, 4, 2 ^ 32 - 1)], id, fun _ c => c.par 16 1 = 15),
    (0x30A, [], id, fun s c => !both s && decide (c.aux = 0)), (0x30A, [], wickOn, fun s c => both s && decide (c.aux = 0)),
    (0x30A, [], fun s => at_ 1 (wickOn s), fun _ c => decide (c.aux ≠ 0 ∧ c.part = none)),
    (0x30A, [], fun s => farDid 0 (wickOn s), fun _ c => decide (c.aux ≠ 0 ∧ (c.part.bind id).map (·.1) = some 0)),
    (0x30B, ent 0 0 [(16, 1, 7), (17, 1, 64)], id, fun _ c => c.par 17 1 = 64), (0x30B, ent 0 0 [(16, 1, 7), (17, 1, 63)], id, fun _ c => c.par 16 1 = 7),
    (0x30C, ent 0 0 [(16, 1, 32)], id, fun s _ => !s.chip.tableUsed 0),
    (0x30C, ent 0 0 [(16, 1, 9)], id, fun s c => !s.chip.tableUsed 0 && decide (c.par 16 1 = 9)),
    (0x30C, ent 0 0 [(16, 1, 10), (20, 4, 2 ^ 17 - 1)], id, fun s c => !s.chip.tableUsed 0 && !s.chip.inDram 0 (c.par 20 4 * 2 ^ 23) (256 * 2 ^ 10)),
    (0x30C, ent 0 0 [(16, 1, 31), (20, 4, 1)], id, fun s c => !s.chip.tableUsed 0 && s.chip.inDram 0 (c.par 20 4 * 2 ^ 23) (256 * 2 ^ 21)),
    (0x30D, ent 0 0 [(20, 4, 96)], id, fun _ c => c.par 20 4 &&& (c.par 20 4 - 1) ≠ 0),
    (0x30D, ent 0 0 [(16, 1, 1), (18, 1, 63), (20, 4, 65536)], id, fun _ c => decide (c.par 20 4 = 65536 ∧ c.par 20 4 &&& (c.par 20 4 - 1) = 0)),
    (0x30D, [], id, fun _ c => c.par 20 4 = 0),
    (0x30E, [], vig (fun v => { v with pair := { v.pair with role := 3 } }), fun s _ => !s.vig.forwards),
    (0x30E, ent 0 0 [(52, 4, 59)], id, fun s c => s.vig.forwards && decide (c.dlen = 59)),
    (0x30E, ent 0 0 [(17, 1, 7), (52, 4, 60)], id, fun s c => s.vig.forwards && c.bufOk 60 && (s.chip.allocRun 0 60 (s.chip.fld FLW_PB FLW_PB_RX_RESERVE 0) [0]).isSome),
    (0x30E, ent 0 0 [(52, 4, 9212)], chip (fun c => c.setReg FLW_PB 0 [] (2 ^ 64 - 1)), fun s c => s.vig.forwards && decide (c.dlen = 9212) &&
      (s.chip.allocRun 0 9212 (s.chip.fld FLW_PB FLW_PB_RX_RESERVE 0) [0]).isNone),
    (0x30E, ent 0 0 [(16, 1, 1), (52, 4, 60)], id, fun s c => s.vig.forwards && decide (c.par 16 1 = 1) && (s.chip.receive s.vig 0 0 (List.replicate 60 0) 0).isSome),
    (0x30E, ent 0 0 [(16, 1, 1), (52, 4, 60)], fun s => chip (fun c => c.setReg FLW_PB 0 [] (2 ^ 64 - 1)) (flowOn s), fun s c => s.vig.forwards && decide (c.par 16 1 = 1) &&
      (s.chip.receive s.vig 0 0 (List.replicate 60 0) 0).isNone)]
theorem witness_FlowOpcodes2 : ∀ o ∈ flowOffers2, Offers o := offers (by decide +kernel)
def sysOffers : List Offer := [
    (0x400, ent 0 0 [(16, 2, 4096), (52, 4, 200)], id, fun _ c => c.par 16 2 = 4096), (0x400, ent 0 0 [(16, 2, 4095), (52, 4, 200)], id, fun _ c => c.bufOk 200),
    (0x401, ent 0 0 [(16, 2, 4095), (18, 1, 8)], id, fun _ c => c.par 18 1 = 8), (0x401, ent 0 0 [(16, 2, 4095), (18, 1, 7)], id, fun _ c => c.par 18 1 = 7),
    (0x402, [], vig (fun v => { v with tstate := 1 }), fun s _ => s.vig.tstate = 1),
    (0x402, ent 0 0 [(16, 8, 1000000)], id, fun s c => decide (s.vig.tstate ≠ 1 ∧ c.par 16 8 ≤ s.vig.dt + 1000000)),
    (0x402, ent 0 0 [(16, 8, 1000001)], id, fun s c => decide (s.vig.tstate ≠ 1 ∧ s.vig.dt + 1000000 < c.par 16 8)),
    (0x403, [], id, fun s c => decide (s.vig.blocks = [] ∧ c.dptr % 64 = 0)), (0x403, ent 0 0 [(56, 8, 1)], id, fun _ c => c.dptr % 64 ≠ 0),
    (0x403, ent 0 0 [(52, 4, 2)], vig (fun v => { v with blocks := [⟨1, 2, [7, 7, 7], false, false⟩] }), fun s c => s.vig.blocks.length = 1 && !c.bufOk 3),
    (0x403, ent 0 0 [(52, 4, 3)], vig (fun v => { v with blocks := [⟨1, 2, [7, 7, 7], false, false⟩] }), fun s c => s.vig.blocks.length = 1 && c.bufOk 3),
    (0x404, [], vig (fun v => { v with signMode := 1 }), fun s _ => s.vig.signMode = 1), (0x404, [], id, fun s _ => s.vig.signMode ≠ 1),
    (0x405, [], id, fun s c => (s.vig.cs.find? (fun e => e.1 = c.par 16 8 + 1)).isNone),
    (0x405, ent 0 0 [(16, 8, 6)], vig (fun v => { v with cs := [(7, [1], 0)] }), fun s c => (s.vig.cs.find? (fun e => e.1 = c.par 16 8 + 1)).isSome && !c.bufOk 64),
    (0x405, ent 0 0 [(16, 8, 6), (52, 4, 64)], vig (fun v => { v with cs := [(7, [1], 0)] }), fun s c =>
      (s.vig.cs.find? (fun e => e.1 = c.par 16 8 + 1)).isSome && c.bufOk 64 && s.vig.hostKey.isNone),
    (0x405, ent 0 0 [(16, 8, 6), (52, 4, 64)], vig (fun v => { v with cs := [(7, [1], 0)], hostKey := some idKey }), fun s c =>
      (s.vig.cs.find? (fun e => e.1 = c.par 16 8 + 1)).map (fun e => edVerify idKey e.2.1 (sliceB idSig 0 64)) = some true && c.bufOk 64),
    (0x406, [], id, plain), (0x407, [], id, fun s _ => s.vig.anchor.isNone)]
theorem witness_SystemOpcodes : ∀ o ∈ sysOffers, Offers o := offers (by decide +kernel)
/-- The pair island changed. -/
def pr (f : Pair → Pair) : State → State := vig (fun v => { v with pair := f v.pair })
def sysOffers2 : List Offer := [
    (0x500, [], pr (fun p => { p with role := 5 }), fun s _ => s.vig.pair.role ≠ 0), (0x500, ent 0 0 [(20, 1, 2)], id, fun s c => s.vig.pair.role = 0 && c.par 20 1 = 2),
    (0x500, ent 0 0 [(20, 1, 1), (21, 1, 1)], id, fun s c => s.vig.pair.role = 0 && c.par 21 1 = 1),
    (0x501, [], pr (fun p => { p with role := 4 }), fun s _ => s.vig.pair.role = 4), (0x501, [], pr (fun p => { p with role := 3 }), fun s _ => s.vig.pair.role = 3),
    (0x502, [], pr (fun p => { p with role := 4 }), fun s c => s.vig.pair.role = 4 && !c.force),
    (0x502, ent 8 0 [], pr (fun p => { p with role := 4 }), fun s c => s.vig.pair.role = 4 && c.force), (0x502, [], pr (fun p => { p with role := 3 }), fun s _ => s.vig.pair.role = 3),
    (0x503, [], id, fun s _ => s.vig.pair.role = 0), (0x503, [], pr (fun p => { p with role := 1 }), fun s _ => s.vig.pair.role = 1),
    (0x503, [], pr (fun p => { p with role := 2 }), fun s _ => s.vig.pair.role = 2),
    (0x504, [], pr (fun p => { p with role := 2, peerRole := 3 }), fun s _ => s.vig.pair.peerRole = 3),
    (0x504, [], pr (fun p => { p with role := 2, peerRole := 5 }), fun s _ => s.vig.pair.role = 2 && s.vig.pair.peerRole = 5 && s.vig.pair.step = 0),
    (0x504, [], pr (fun p => { p with role := 2, peerRole := 4, step := 2 }), fun s _ => s.vig.pair.role = 2 && s.vig.pair.step ≠ 0),
    (0x505, [], id, plain), (0x506, [], pr (fun p => { p with role := 4 }), fun s _ => s.vig.pair.role = 4),
    (0x506, [], pr (fun p => { p with role := 3 }), fun s c => s.vig.pair.role = 3 && s.vig.pair.cfgTag = c.par 16 4),
    (0x506, ent 0 0 [(16, 4, 9)], pr (fun p => { p with role := 3 }), fun s c => s.vig.pair.role = 3 && s.vig.pair.cfgTag ≠ c.par 16 4)]
theorem witness_SystemOpcodes2 : ∀ o ∈ sysOffers2, Offers o := offers (by decide +kernel)

/-- A mode field of both halves set to 1. -/
def hostMode (f : Fld) : State → State := chip (fun c => (c.setFld BG_MODE f 0 [] 1).setFld BG_MODE f 1 [] 1)

/-- Wick down. -/
def wickOff : State → State := chip (fun c => c.updWick 0 (fun p => { p with down := true }))

def modeOffers : List Offer := [
    (0x600, ent 0 0 [(16, 2, 0x3FF), (18, 2, 0x3FF)], wickOff, fun s c => !s.chip.otherHalf 0 && c.par 16 2 ≠ 0x100), (0x600, ent 0 0 [(16, 2, 0x3FF), (18, 2, 0x3FF)], wickOn, fun s _ => s.chip.otherHalf 0),
    (0x600, ent 0 0 [(16, 2, 0x3FF)], fun s => at_ 1 (wickOn s), fun _ c => decide (c.aux ≠ 0 ∧ c.part = none)),
    (0x600, ent 0 0 [(16, 2, 0x3FF)], fun s => farDid 0 (wickOn s), fun _ c => decide (c.aux ≠ 0 ∧ (c.part.bind id).map (·.1) = some 0)),
    (0x600, ent 0 0 [(16, 2, 0x100)], id, fun _ c => c.par 16 2 = 0x100), (0x601, [], id, plain),
    (0x602, [], id, fun s c => c.par 16 1 < 2 && s.chip.fld BG_MODE BG_MODE_SCRUB 0 = 0), (0x602, ent 0 0 [(16, 1, 2)], id, fun _ c => c.par 16 1 = 2),
    (0x602, ent 0 0 [(16, 1, 1)], fun s => wickOff (hostMode BG_MODE_SCRUB s), fun s c => c.par 16 1 = 1 && !s.chip.otherHalf 0 && s.chip.fld BG_MODE BG_MODE_SCRUB 1 ≠ 0),
    (0x602, ent 0 0 [(16, 1, 1)], fun s => wickOn (hostMode BG_MODE_SCRUB s), fun s c => c.par 16 1 = 1 && s.chip.otherHalf 0 && s.chip.fld BG_MODE BG_MODE_SCRUB 1 ≠ 0),
    (0x603, ent 0 0x30000 [], id, fun s _ => s.chip.fld BG_MODE BG_MODE_CLOCK 0 = 0),
    (0x603, ent 0 0x30000 [(16, 2, 1000)], hostMode BG_MODE_CLOCK, fun s c => s.chip.fld BG_MODE BG_MODE_CLOCK 0 ≠ 0 && c.par 16 2 < 1008),
    (0x603, ent 0 0x30000 [(16, 2, 1008)], hostMode BG_MODE_CLOCK, fun s c => s.chip.fld BG_MODE BG_MODE_CLOCK 0 ≠ 0 && c.par 16 2 = 1008),
    (0x604, ent 0 0 [(16, 1, 1)], wickOff, fun s c => c.par 16 1 = 1 && !s.chip.otherHalf 0), (0x604, ent 0 0 [(17, 1, 4)], id, fun _ c => c.par 16 1 = 0 && c.par 17 1 = 4),
    (0x604, ent 0 0 [(17, 1, 3)], id, fun s _ => ((tGet s.chip.bg 0).chan 3).due.isNone),
    (0x604, ent 0 0 [(17, 1, 3)], chip (fun c => c.updChan 0 3 (fun x => { x with due := some 0 })), fun s _ => ((tGet s.chip.bg 0).chan 3).due.isSome),
    (0x605, ent 0 0 [(20, 4, 65536)], id, fun _ c => c.par 20 4 = 65536), (0x605, ent 0 0 [(16, 1, 1), (20, 4, 65535)], id, fun _ c => c.par 20 4 = 65535),
    (0x606, ent 0 0 [(16, 1, 1)], wickOff, fun s c => c.par 16 1 = 1 && !s.chip.otherHalf 0), (0x606, ent 0 0 [(16, 1, 2)], id, fun _ c => c.par 16 1 = 2),
    (0x606, [], id, fun _ c => !c.bufOk 4096), (0x606, ent 0 0 [(52, 4, 4096)], id, fun s c => c.bufOk 4096 && (tGet s.chip.bg 0).page = []),
    (0x606, ent 0 0 [(52, 4, 4096)], chip (fun c => c.updBg 0 (fun b => { b with page := [1] })), fun s c => c.bufOk 4096 && (tGet s.chip.bg 0).page ≠ [])]
theorem witness_ModeOpcodes : ∀ o ∈ modeOffers, Offers o := offers (by decide +kernel)
theorem witness_ModeOpcodes_ceiling : 1008 ≤ Config.ceilingMHz := by unfold Config.ceilingMHz; split <;> decide

/-- Half 0's background services changed. -/
def bgd (f : Bg → Bg) : State := chip (fun c => c.updBg 0 f) up
/-- Its channel 0 changed. -/
def chn (f : Chan → Chan) : State := vig (fun v => { v with clk := 10 ^ 10 }) (chip (fun c => c.updChan 0 0 f) up)

theorem witness_BackgroundServices :
    (let ch := up.chip
     up.chip.half.h0.inReset = false ∧ tGet ch.ram.fitted 0 ≠ 0 ∧ (tGet ch.bg 0).trim < ch.ram.dramTop 0 ∧ ch.ram.dramTop 0 < 2 ^ 40 ∧
       ch.ram.summarised 0 = false ∧ (tGet ch.bg 0).trimPs ≤ 1000 * up.vig.clk ∧ ch.chanHeld up.vig 0 = false ∧
       (tGet (bgd (fun b => { b with trimPs := 1 })).chip.bg 0).trimPs > 1000 * up.vig.clk ∧ ((tGet ch.bg 0).chan 0).due = none ∧ ((tGet ch.bg 0).chan 0).fails < 3) ∧
    (let b := tGet (vig (fun v => { v with dt := 60000000000 }) up).chip.bg 0
     b.ceAt < 60000000000 / 60000000000) ∧
    (514 * 4096 - 1 < 514 * 4096 ∧ up.chip.ram.region (bufAt 0 0) = .pbuf) ∧
    (let x := (tGet (chn (fun x => { x with due := some 0 })).chip.bg 0).chan 0
     x.due = some 0 ∧ x.steps = 0 ∧ up.chip.fld BG_MODE BG_MODE_RETRAIN 0 = 0 ∧ (tGet (chn id).chip.bg 0).chans.all (fun e => !e.2.running) = true ∧
       (hostMode BG_MODE_RETRAIN (chn (fun x => { x with due := some 0 }))).chip.fld BG_MODE BG_MODE_RETRAIN 0 = 1) ∧
    (let s := chip (fun c => c.setFld BG_CAL BG_CAL_FORCE_S 0 [] 10) (chn (fun x => { x with due := some 0 }))
     s.chip.fld BG_CAL BG_CAL_FORCE_S 0 = 10 ∧ 0 + 10 * 1000000000 ≤ s.vig.clk) ∧
    (let x := (tGet (chn (fun x => { x with due := some 0, running := true, stepEnd := 10 ^ 10, fails := 2 })).chip.bg 0).chan 0
     x.running = true ∧ x.stepEnd ≤ 10 ^ 10 ∧ 2 ≤ x.fails) := by decide +kernel

/-- Cluster 15 after its clock calibration. -/
def calm : State := chip (fun c => c.updClu 15 (fun k => { k with calib := false })) up

theorem topStep_ge : 63 ≤ topStep := by unfold topStep Config.ceilingMHz; split <;> decide

theorem witness_BackgroundServices_clock :
    (let s := vig (fun v => { v with clk := 10000 }) calm
     (s.chip.clu 15).inReset = false ∧ (s.chip.clu 15).calib = false ∧ (s.chip.isl 15).lastStep + 10000 ≤ s.vig.clk ∧ (s.chip.isl 15).hold ≤ s.vig.clk ∧
       (tGet s.chip.bg 0).avsFault = false ∧ gridStep (s.chip.clu 15).freq < s.chip.capStep 15) ∧
    (let s := chip (fun c => ((c.setReg BG_CLKC 0 [0] 1008).updClu 0 (fun k => { k with freq := 1024 })).setFld BG_MODE BG_MODE_CLOCK 0 [] 1) up
     gridStep (s.chip.clu 0).freq ≠ 0 ∧ s.chip.capStep 0 < gridStep (s.chip.clu 0).freq) ∧
    (let s := chip (fun c => c.updClu 0 (fun k => { k with calib := true })) up
     (s.chip.clu 0).calib = true ∧ (s.chip.isl 0).calibEnd ≤ s.vig.clk) := by
  refine ⟨⟨by decide +kernel, by decide +kernel, by decide +kernel, by decide +kernel, by decide +kernel, ?_⟩, ⟨by decide +kernel, ?_⟩, by decide +kernel⟩
  · have h1 : calm.chip.fld BG_MODE BG_MODE_CLOCK 0 = 0 := by decide +kernel
    have h2 : (calm.chip.isl 15).cool = 0 := by decide +kernel
    have h3 : gridStep (calm.chip.clu 15).freq = 0 := by decide +kernel
    have := topStep_ge
    show gridStep (calm.chip.clu 15).freq < calm.chip.capStep 15
    rw [h3]
    simp only [Chip.capStep, h2, Nat.reduceDiv, h1]
    simp only [Nat.zero_ne_one, if_false, Nat.sub_zero, Nat.min_self]
    omega
  · refine Nat.lt_of_le_of_lt (Nat.min_le_left _ _) ?_
    rw [if_pos (by decide +kernel)]
    refine Nat.lt_of_le_of_lt (m := 1) ?_ (by decide +kernel)
    have h : ∀ c, c = 2400 ∨ c = 2000 → gridStep (min c (max 1008 (1008 - 1008 % 16))) ≤ 1 := by
      rintro c (rfl | rfl) <;> decide
    have hc : Config.ceilingMHz = 2400 ∨ Config.ceilingMHz = 2000 := by unfold Config.ceilingMHz; split <;> simp
    have hr : (chip (fun c => ((c.setReg BG_CLKC 0 [0] 1008).updClu 0 (fun k => { k with freq := 1024 })).setFld BG_MODE BG_MODE_CLOCK 0 [] 1) up).chip.fld
        BG_CLKC BG_CLKC_CAP_MHZ (0 / 16) [0 % 16] = 1008 := by decide +kernel
    unfold Chip.capMHz
    simp only [hr]
    exact h _ hc

theorem witness_BackgroundServices_rest :
    (let b := tGet (bgd (fun b => { b with temps := [1000] })).chip.bg 0
     b.hottest = some 1000 ∧ up.chip.twarn 0 < 1000) ∧
    (let b := tGet (bgd (fun b => { b with temps := [0] })).chip.bg 0
     b.hottest = some 0 ∧ (0 : Int) < up.chip.twarn 0 - 40) ∧
    (let s := vig (fun v => { v with clk := 1000000 }) (bgd (fun b => { b with avsFault := true }))
     (tGet s.chip.bg 0).avsFault = true ∧ (tGet s.chip.bg 0).avsAt + 1000000 ≤ s.vig.clk) ∧
    ((tGet up.chip.bg 0).capAt + 100000 ≤ 100000 ∧ (List.replicate 8 (1024 : Int)).length = 8) := by decide +kernel
theorem witness_BackgroundServices_tagc :
    let c := (chip (fun c => { c with tagc := [(tagKey 0x3000, [⟨3, false⟩])] }) up).chip
    c.ram.region 0x3000 = .dram ∧ (mGet c.tagc (tagKey 0x3000) []).any (fun l => decide (l.page = 0x3000 / 4096)) = true := by decide +kernel
theorem test_patrol_ue : out (exec (.trimmerPatrol 0 2) up) (fun s => (s.chip.ram.poisoned 0, (tGet s.chip.bg 0).trim)) = some (true, 64) := by decide +kernel
/-- The demand of a half's clusters lies between 700 and 850 mV. -/
theorem demand_range (ch : Chip) (v : Vig) (h : Nat) : 700 ≤ ch.demandMv v h ∧ ch.demandMv v h ≤ 850 := by
  have e : ∀ (f : Nat → Nat) (l : List Nat) (m : Nat), (∀ i, f i ≤ 850) → 700 ≤ m → m ≤ 850 →
      700 ≤ l.foldl (fun m i => max m (f i)) m ∧ l.foldl (fun m i => max m (f i)) m ≤ 850 := by
    intro f l
    induction l with
    | nil => intro m _ a b; exact ⟨a, b⟩
    | cons i l ih => intro m hf a b; exact ih _ hf (Nat.le_trans a (Nat.le_max_left ..)) (Nat.max_le.mpr ⟨b, hf i⟩)
  exact e _ _ 700 (fun i => Nat.min_le_left _ _) (Nat.le_refl _) (by decide)
theorem witness_BackgroundServices_volts :
    (let s := bgd (fun b => { b with vdd := 855 })
     (tGet s.chip.bg 0).avsFault = false ∧ s.chip.demandMv s.vig 0 ≤ (tGet s.chip.bg 0).vdd - 5 ∧ (tGet s.chip.bg 0).vdd - 5 = 850) ∧
    (let s := bgd (fun b => { b with vdd := 695 })
     (tGet s.chip.bg 0).vdd < s.chip.demandMv s.vig 0 ∧ (tGet s.chip.bg 0).vdd + 5 = 700) ∧
    (∀ n, needMv n ≤ (tGet (bgd (fun b => { b with vdd := 850 })).chip.bg 0).vdd) ∧
    (∀ n, (tGet (bgd (fun b => { b with vdd := 699 })).chip.bg 0).vdd < needMv n) :=
  ⟨⟨by decide +kernel, (demand_range _ _ 0).2, by decide +kernel⟩, ⟨Nat.lt_of_lt_of_le (by decide) (demand_range _ _ 0).1, by decide +kernel⟩,
    fun n => Nat.min_le_left _ _, fun n => by show 699 < min 850 (700 + 5 * Config.marginSteps n); omega⟩
theorem test_avs_retry : out (exec (.avsbusRetry 0 true) (vig (fun v => { v with clk := 1000000 }) (bgd (fun b => { b with avsFault := true }))))
    (fun s => (tGet s.chip.bg 0).avsFault) = some false := by decide +kernel
/-! The background engines, resets and boot. -/

/-- Half 0's self-test enabled and its DRAM initialised; the next slice is `n`, of period 1 ms. -/
def stOn (n : Nat) (f : Bg → Bg) : State := vig (fun v => { v with clk := 10 ^ 9 }) (chip (fun c =>
  (((c.setFld BG_ST BG_ST_ENABLE 0 [] 1).setFld BG_ST BG_ST_PERIOD_MS 0 [] 1).setFld DDR_STAT DDR_STAT_INIT_DONE 0 [] 1).updBg 0
    (fun b => f { b with nextSlice := n })) up)

/-- A sweep of tenant 0 under way, its visits at the pages. -/
def sweeping (v0 v1 : Visit) (s : State) : State := chip (fun c => { c with sweep := some ⟨0, v0, v1⟩ }) s

theorem witness_SweepsAndSlices :
    (let ch := (chip (fun c => c.setTenant 0 0 48 8 (2 ^ 60)) (space up)).chip
     max 1 (ch.fld BG_SNF BG_SNF_THRESH_MB 0) * 2 ^ 20 ≤ ch.tenantFld 0 0 48 8 ∧ ch.tenantOk 0 0 = true ∧ ch.fld BG_MODE BG_MODE_SWEEP 0 = 0 ∧
       ch.sweepPending 0 = false) ∧
    (let ch := (space up).chip
     ch.tenantFld 0 0 48 8 = 0 ∧ ch.tenantFld 0 0 56 8 = 0 ∧ (0 : Nat) < max 1 (ch.fld BG_SNF BG_SNF_THRESH_MB 0) * 2 ^ 20) ∧
    ((wickOn up).chip.sweep = none ∧ (wickOn up).chip.wick.h0.up = true ∧ (wickOn up).chip.wick.h0.down = false) ∧
    (let s := sweeping ⟨0, false, false⟩ ⟨0, false, false⟩ (chip (fun c => { c with ram := c.ram.wrCap 0x10000 (capM 0) }) (owned up))
     leastFrom 0 (s.chip.tagged 0 (fun a => s.chip.pageOwner a = some 0)) = some 0x10000) ∧
    (let s := sweeping ⟨0x10010, false, false⟩ ⟨0, false, false⟩ (chip (fun c => { c with ram := c.ram.wrCap 0x10000 (capM 0) }) (owned up))
     leastFrom 0x10010 (s.chip.tagged 0 (fun a => s.chip.pageOwner a = some 0)) = none) ∧
    ((wickOn up).chip.wickUp 0 = true ∧ (⟨0, true, false⟩ : Visit).done = true) ∧
    (let s := vig (fun v => { v with boundary := 1, dt := 60000000000 + 1000000 }) up
     (tGet s.chip.bg 0).pageMin < s.vig.boundary ∧ s.vig.boundary * 60000000000 + 1000000 ≤ s.vig.dt) := by decide +kernel
theorem witness_SweepsAndSlices_areas :
    let s := sweeping ⟨2 ^ 41, false, false⟩ ⟨0, true, false⟩ (space up)
    leastFrom 0 (s.chip.tagged 0 (fun a => (s.chip.areasOf 0 0).any (fun r => r.1 ≤ a && decide (a < r.2)))) = none := by
  decide +kernel
theorem witness_SweepsAndSlices_slices :
    (let s := stOn 255 id
     let b := tGet s.chip.bg 0
     b.slice = none ∧ s.chip.fld BG_ST BG_ST_ENABLE 0 = 1 ∧ s.chip.fld DDR_STAT DDR_STAT_INIT_DONE 0 = 1 ∧ b.upcoming = 255 ∧
       b.sliceAt + max 1 (s.chip.fld BG_ST BG_ST_PERIOD_MS 0) * 1000000 ≤ s.vig.clk ∧ s.chip.sliceBlocked 0 255 = false ∧
       s.chip.sliceDrained 0 255 = true) ∧
    (let s := stOn 256 id
     (tGet s.chip.bg 0).upcoming = 256 ∧ s.chip.sliceBlocked 0 256 = false) ∧
    ((chip (fun c => c.updCore 1 (fun k => { k with drained := true })) up).chip.sliceBlocked 0 1 = true) ∧
    (let s := chip (fun c => { c with tasks := [(0, tskM [])] }) (stOn 1 (fun b => { b with slice := some ⟨0, 0, false⟩ }))
     s.chip.sliceDrained 0 0 = false ∧ 0 + 50000 ≤ s.vig.clk) ∧
    (let s := stOn 1 (fun b => { b with slice := some ⟨0, 10 ^ 9 - 40000, true⟩, lastFail := some 0 })
     (10 ^ 9 - 40000 + 40000 ≤ s.vig.clk ∧ (tGet s.chip.bg 0).lastFail = some 0)) := by decide +kernel
theorem test_slice_fails_twice : out (exec (.sliceTestEnd 0 false) (stOn 1 (fun b => { b with slice := some ⟨0, 0, true⟩, lastFail := some 0 })))
    (fun s => ((tGet s.chip.bg 0).bad, (s.chip.core 0).due.map (·.1))) = some ([0], some 2) := by decide +kernel

theorem witness_SweepsAndSlices_pace :
    (let s := bgd (fun b => { b with snuffPs := 1 })
     ¬(((0 : Nat) ≠ 0 ∧ (0 - 1) / 64 = paLocal 0x10000 / 64) ∨ (tGet s.chip.bg 0).snuffPs ≤ 1000 * s.vig.clk)) ∧
    ((0xFFF1 : Nat) ≠ 0 ∧ (0xFFF1 - 1) / 64 = paLocal 0xFFC0 / 64) ∧ (tGet up.chip.bg 0).snuffPs ≤ 1000 * up.vig.clk ∧ up.chip.chanHeld up.vig 0xFFC0 = false ∧
    (let s := sweeping ⟨0, true, false⟩ ⟨0, true, false⟩ (chip (fun c => { c with tasks := [(0, { tskM [] with pairOpen := true })] }) (space (comp 0 0 true (wickOn up))))
     let mid := fun (e : Nat × Task) => (((List.range 32).filter (fun c => !(s.chip.clu c).inReset && s.chip.hostsTenant 0 c)).contains (tClu e.1) &&
        !coreSvc (tCore e.1) && e.2.busy)
     s.chip.wickUp 0 = true ∧ s.chip.tasks.any mid = true ∧ [(0, tskM [])].any mid = false) ∧
    ((stOn 1 id).chip.bandWritten 0 320 = true ∧ (stOn 1 id).chip.bandWritten 0 256 = false ∧ (stOn 1 id).chip.bandWritten 0 2559 = false) ∧
    (let s := vig (fun v => { v with clk := 0 }) (stOn 1 id)
     ¬((tGet s.chip.bg 0).sliceAt + max 1 (s.chip.fld BG_ST BG_ST_PERIOD_MS 0) * 1000000 ≤ s.vig.clk)) ∧
    (let s := chip (fun c => { c with sweepQ := [5], sweep := none }) (wickOn up)
     s.chip.sweep = none ∧ s.chip.wick.h0.up = true ∧ s.chip.wickUp 0 = true) := by decide +kernel

/-- Half 0 changed. -/
def half0 (f : Half → Half) (s : State) : State := chip (fun c => c.updHalf 0 f) s

theorem witness_Resets :
    (let s := half0 (fun x => { x with due := some 3 }) up
     (tGet s.chip.half 0).due = some 3 ∧ s.vig.resetN = false ∧ (tGet s.chip.half 0).inReset = false ∧ (tGet s.chip.wick 1).replay = [] ∧
       (tGet s.chip.wick 1).txq = []) ∧
    (tGet (half0 (fun x => { x with due := some 3, inReset := true }) up).chip.half 0).inReset = true ∧
    (tGet (half0 (fun x => { x with svcDue := true }) up).chip.half 0).svcDue = true ∧
    (let s := chip (fun c => c.updClu 15 (fun k => { k with due := some (0, 0), inReset := false })) up
     (s.chip.clu 15).due = some (0, 0) ∧ (s.chip.clu 15).inReset = false ∧ s.chip.cluIdle 15 = true ∧ s.chip.moves = []) ∧
    (chip (fun c => { c with tasks := [(0, tskM [])] }) up).chip.cluIdle 0 = false ∧
    (let s := chip (fun c => c.updCore 511 (fun k => { k with due := some (2, 0), inReset := false })) up
     (s.chip.core 511).due = some (2, 0) ∧ (s.chip.core 511).inReset = false ∧ (s.chip.clu (coreClu 511)).inReset = false ∧ (s.chip.core 511).sb = []) ∧
    (State.reset.vig.resetN = true ∧ (tGet State.reset.chip.half 1).inReset = true ∧ (tGet State.reset.chip.half 1).held = false ∧ State.reset.vig.trip = false ∧
       State.reset.vig.keyLate = false ∧
       ({ State.reset.vig with entries := 2, flash := [(0, 0x58), (1, 0x4C), (2, 0x41), (3, 0x4E), (4, 1), (5, 0), (6, 0), (7, 0)] } : Vig).keyLate = true) ∧
    (let s := chip (fun c => c.updClu 15 (fun k => { k with inReset := true })) up
     (s.chip.clu 15).inReset = true ∧ (tGet s.chip.half 0).boot ≠ 0) ∧
    ((chip (fun c => c.updCore 511 (fun k => { k with inReset := true })) up).chip.core 511).inReset = true ∧
    (tGet (half0 (fun x => { x with svcReset := true }) up).chip.half 0).svcReset = true := by decide +kernel
theorem test_cluster_reset : out (exec (.clusterReset 0 []) (chip (fun c => { (c.updClu 0 (fun k => { k with due := some (0, 0) })) with
      ram := (c.paint 0x8040000000 64 6).ram.wr 0x8040000000 7 }) up)) (fun s => ((s.chip.clu 0).inReset, s.chip.ram.vis 0x8040000000)) =
    some (true, 0) := by decide +kernel

theorem witness_BootAndWatchdogs :
    (let s := half0 (fun x => { x with boot := 0 }) up
     s.chip.fld DDR_STAT DDR_STAT_INIT_DONE 0 = 0 ∧ s.chip.fld DDR_STAT DDR_STAT_CHFAIL 0 = 0 ∧ (tGet s.chip.half 0).boot = 0 ∧
       (tGet s.chip.half 0).svcReset = false) ∧
    (let s := stOn 1 id
     s.chip.fld DDR_STAT DDR_STAT_INIT_DONE 0 = 1 ∧ s.chip.fld HALF_WIPE HALF_WIPE_TAGDONE 0 = 0) ∧
    (let s := chip (fun c => c.setFld HALF_WIPE HALF_WIPE_TAGDONE 0 [] 1) up
     s.chip.fld HALF_WIPE HALF_WIPE_TAGDONE 0 = 1 ∧ (tGet s.chip.half 0).zeroNext < s.chip.ram.dramTop 0 ∧ s.chip.ram.colour 0 = 0 ∧ s.chip.chanHeld s.vig 0 = false ∧
       (owned up).chip.ram.colour 0x2000 ≠ 0) ∧
    (let s := half0 (fun x => { x with zeroNext := 2 ^ 37 }) up
     0 < s.chip.ram.dramTop 0 ∧ s.chip.ram.dramTop 0 ≤ (tGet s.chip.half 0).zeroNext) ∧
    (let s := half0 (fun x => { x with boot := 1 }) (stOn 1 id)
     (tGet s.chip.half 0).boot = 1 ∧ (tGet s.chip.half 0).lcReset = false) ∧
    (let s := vig (fun v => { v with clk := 10 ^ 9 }) (chip (fun c => { c with tasks := [(0, tskM [])], readyAt := [(0, 0)] }) up)
     mGet? s.chip.readyAt 0 = some 0 ∧ (s.chip.core 0).inReset = false ∧ (s.chip.core 0).due = none ∧ (s.chip.clu 0).inReset = false ∧
       s.chip.readyTasks 0 [] = [0] ∧ s.chip.readyTasks 0 [0] = [] ∧ max 0 (s.chip.core 0).lastIssue + max 1 (s.chip.fld CLU_WDOG CLU_WDOG_CORE_US 0 [0]) * 1000 ≤ s.vig.clk) ∧
    (let s := vig (fun v => { v with clk := 10 ^ 9 }) (chip (fun c => c.updClu 15 (fun k => { k with noAns := some 5 })) up)
     (s.chip.clu 15).probeAt + 10000 ≤ s.vig.clk ∧ (s.chip.clu 15).noAns = some 5 ∧ (s.chip.clu 15).due = none ∧
       5 + 1000 * max 20 (s.chip.fld HALF_WDOG HALF_WDOG_CLU_US 0) ≤ s.vig.clk) ∧
    (let s := half0 (fun x => { x with swFirst := some (10 ^ 9) }) (vig (fun v => { v with clk := 2 * 10 ^ 9 }) up)
     (tGet s.chip.half 0).svcDue = false ∧ (tGet s.chip.half 0).due = none ∧
       (tGet s.chip.half 0).kick + max 1 (s.chip.fld HALF_SWDOG HALF_SWDOG_PERIOD_MS 0) * 1000000 ≤ s.vig.clk ∧ s.vig.clk ≤ 10 ^ 9 + 1000000000) ∧
    (let s := vig (fun v => { v with clk := 10000 }) (bgd (fun b => { b with hot := some 0 }))
     s.vig.trip = false ∧ s.vig.resetN = false ∧ (tGet s.chip.bg 0).hot = some 0) := by decide +kernel
theorem witness_BootAndWatchdogs_image :
    (vig (fun v => { v with dbgKeys := [(0xFFFF, idKey)] }) up).vig.imageOk [1, 2, 3] idSig = true ∧
    up.vig.imageOk [1, 2, 3] (List.replicate 64 0xFF) = false := by
  constructor
  · simp [Vig.imageOk, vig, up, mGet?, edVerify_neutral]
  · have h : edL ≤ leNat (sliceB (List.replicate 64 (0xFF : Byte)) 32 32) := by decide +kernel
    simp only [Vig.imageOk, edVerify_high h]
    decide +kernel
theorem test_swdog : out (exec (.swdogExpiry 0) (half0 (fun x => { x with swFirst := some (10 ^ 9) }) (vig (fun v => { v with clk := 2 * 10 ^ 9 }) up)))
    (fun s => (tGet s.chip.half 0).due) = some (some 4) := by decide +kernel
/-! The Taper port. -/

/-- A machine in life-cycle state `n` with task 0 halted, and a full session over it when `k` is 1, one of tenant 0 when 2. -/
def halt (n k : Nat) (f : Task → Task) : State := vig (fun v => { v with lc := n, session := if k = 0 then none else some ⟨k, 0, 31, 10⟩ })
  (run (fun x => f { x with halted := true }) [])

/-- The path of task `t` of core 0 of the primary's half 0, as LEN 5, and of core 0, as LEN 4. -/
def tpath (t : Nat) : List Byte := leBytes 8 (5 * 2 ^ 16 + t * 2 ^ 10)
def cpath : List Byte := leBytes 8 (4 * 2 ^ 16)

/-- Whether the port takes a request. -/
def asked (s : State) (op : Nat) (p : List Byte) : Bool :=
  !s.vig.resetN && s.vig.held.isNone && taperFits op p && taperMay op s.vig

theorem asks {s : State} {op seq : Nat} {p : List Byte} (h : asked s op p = true) : Asked s op seq p := by
  simp only [asked, Bool.and_eq_true, Bool.not_eq_true', Option.isNone_iff_eq_none] at h
  exact ⟨h.1.1.1, .inl h.1.1.2, h.1.2, h.2⟩

/-- A debug token of tenant 5's key that lapses at 9, its key the neutral point, for the challenge of zeros. -/
def tokenHead : List Byte := [0x58, 0x44, 0x54, 0x4B, 5, 0, 31, 0] ++ leBytes 8 9
def tokenTail : List Byte := List.replicate 16 0 ++ idSig
def token : List Byte := (tokenHead ++ sha256 (edPublic (keyBytes 0))) ++ tokenTail

/-- The device that made that challenge and holds that key. -/
def challenged : Vig := { up.vig with challenge := some (List.replicate 16 0), dbgKeys := [(5, idKey)] }

theorem sliceB_left {a b : List Byte} {o n : Nat} (h : o + n ≤ a.length) : sliceB (a ++ b) o n = sliceB a o n := by
  have h1 : n - (a.length + b.length - o) = n - (a.length - o) := by omega
  simp only [sliceB, List.length_append, h1]
  rw [List.drop_append_of_le_length (by omega), List.take_append_of_le_length (by rw [List.length_drop]; omega)]

theorem sliceB_right {a b : List Byte} {o n : Nat} : sliceB (a ++ b) (a.length + o) n = sliceB b o n := by
  have h1 : n - (a.length + b.length - (a.length + o)) = n - (b.length - o) := by omega
  simp only [sliceB, List.length_append, h1]
  rw [List.drop_append, List.drop_eq_nil_of_le (by omega), Nat.add_sub_cancel_left, List.nil_append]

theorem tokenHead_length : (tokenHead ++ sha256 (edPublic (keyBytes 0))).length = 48 := by
  rw [List.length_append, sha256_length]; rfl

theorem token_head {o n : Nat} (h : o + n ≤ 16) : sliceB token o n = sliceB tokenHead o n := by
  unfold token
  rw [List.append_assoc, sliceB_left (show o + n ≤ tokenHead.length from h)]

theorem token_tail {o n : Nat} : sliceB token (48 + o) n = sliceB tokenTail o n := by
  have := @sliceB_right (tokenHead ++ sha256 (edPublic (keyBytes 0))) tokenTail o n
  rwa [tokenHead_length] at this

theorem token_id : sliceB token 16 32 = sha256 (edPublic (keyBytes 0)) := by
  have h : ∀ l : List Byte, l.length = 32 → ∀ t, sliceB (l ++ t) 0 32 = l := by
    intro l hl t
    rw [sliceB_left (by omega)]
    simp [sliceB, hl, List.take_of_length_le (Nat.le_of_eq hl)]
  unfold token
  rw [List.append_assoc]
  have := @sliceB_right tokenHead (sha256 (edPublic (keyBytes 0)) ++ tokenTail) 0 32
  exact this.trans (h _ (sha256_length _) _)

theorem witness_TaperSessions_token : tokenOk challenged token = true ∧ taperFits 0x04 token = true := by
  constructor
  · have f : ∀ {o n}, o + n ≤ 16 → fieldB token o n = fieldB tokenHead o n := fun h => by simp only [fieldB, token_head h]
    have t1 := @token_tail 0 16
    have t2 := @token_tail 16 64
    have h1 : token.take 4 = [0x58, 0x44, 0x54, 0x4B] := by simp [token, tokenHead]
    have hk : mGet? challenged.dbgKeys 5 = some idKey := rfl
    have hs : sliceB tokenTail 16 64 = idSig := by decide +kernel
    have hv : challenged.lc = 1 := rfl
    have e1 : fieldB tokenHead 4 2 = 5 := by decide
    simp only [tokenOk, h1, f (show 4 + 2 ≤ 16 by decide), f (show 6 + 1 ≤ 16 by decide), f (show 7 + 1 ≤ 16 by decide),
      f (show 8 + 8 ≤ 16 by decide), token_id, t1, t2, hs, e1, hk, hv, edVerify_neutral]
    decide +kernel
  · show decide (token.length = 128) = true
    have : token.length = 48 + tokenTail.length := by unfold token; rw [List.length_append, tokenHead_length]
    rw [this]; decide

theorem witness_TaperSessions : ∀ e ∈ ([(0x01, []), (0x02, []), (0x03, []), (0x05, []), (0x10, cpath), (0x11, tpath 0), (0x12, tpath 0), (0x13, tpath 0),
      (0x14, tpath 0 ++ [0, 0]), (0x15, tpath 0 ++ leBytes 18 0), (0x16, tpath 0 ++ leBytes 10 0), (0x20, cpath ++ leBytes 10 0), (0x21, cpath ++ [0, 0]),
      (0x30, leBytes 8 0x1000 ++ leBytes 4 256), (0x31, leBytes 8 0x1000 ++ leBytes 4 8 ++ leBytes 8 7)] : List (Nat × List Byte)),
    Asked (halt 1 1 id) e.1 0 e.2 := by
  have h : ([(0x01, []), (0x02, []), (0x03, []), (0x05, []), (0x10, cpath), (0x11, tpath 0), (0x12, tpath 0), (0x13, tpath 0),
      (0x14, tpath 0 ++ [0, 0]), (0x15, tpath 0 ++ leBytes 18 0), (0x16, tpath 0 ++ leBytes 10 0), (0x20, cpath ++ leBytes 10 0), (0x21, cpath ++ [0, 0]),
      (0x30, leBytes 8 0x1000 ++ leBytes 4 256), (0x31, leBytes 8 0x1000 ++ leBytes 4 8 ++ leBytes 8 7)] : List (Nat × List Byte)).all
        (fun e => asked (halt 1 1 id) e.1 e.2) = true := by decide +kernel
  exact fun e he => asks (List.all_eq_true.mp h e he)

theorem witness_TaperSessions_rest :
    (taperFits 0x01 [0] = false ∧ taperMay 0x10 (halt 1 0 id).vig = false ∧ taperMay 0x03 (halt 4 0 id).vig = false ∧ taperMay 0x10 (halt 0 0 id).vig = true) ∧
    (taperPath up.vig up.chip (tpath 0) 4 5 = some (5 * 2 ^ 16) ∧ taperPath up.vig up.chip cpath 4 5 = some (4 * 2 ^ 16) ∧
      taperPath up.vig up.chip (tpath 63) 4 5 = none ∧ taperPath up.vig up.chip (leBytes 8 (3 * 2 ^ 16)) 4 5 = none) ∧
    (up.chip.coreBusy 0 = false ∧ (chip (fun c => c.updCore 0 (fun k => { k with testing := true })) up).chip.coreBusy 0 = true) ∧
    (let s := halt 3 2 (stat [(13, 2, 0)])
     (s.chip.task 0).halted = true ∧ s.vig.rights (s.chip.task 0) = true ∧ s.chip.opsDone 0 = true ∧ (withOp (anOp 0)).chip.opsDone 0 = false ∧
       (halt 3 2 id).vig.rights ((halt 3 2 id).chip.task 0) = false) ∧
    (let s := halt 1 1 (fun x => { x with halted := false, haltReq := true })
     let x := s.chip.task 0
     x.haltReq = true ∧ x.bound ≠ none ∧ x.dead = false ∧ s.vig.rights x = true ∧ s.chip.midPair 0 = false ∧
       (halt 1 1 (fun x => { x with pairOpen := true })).chip.midPair 0 = true) ∧
    (let x := (chip (fun c => { c with tasks := [(512 * 64, { tskM [] with dead := true, halted := true })] }) up).chip.task (512 * 64)
     x.dead = true ∧ coreSvc (tCore (512 * 64)) = true ∧ x.pcc ≠ Cap.null) ∧
    ((halt 1 1 id).vig.session.map (·.notafter) = some 10 ∧ (halt 1 1 id).vig.dt < 10) ∧
    (let b : List Byte := [0xA5, 0x7F, 0, 0, 9]
     let p := b ++ leBytes 2 (crcTod b)
     p.length = fieldB p 2 2 + 7 ∧ p.take 1 = [0xA5] ∧ crcTod (p.take (fieldB p 2 2 + 5)) = fieldB p (fieldB p 2 2 + 5) 2 ∧ fieldB p 1 1 ∉ taperOps) := by
  decide +kernel
theorem test_resume : out (exec (.taperResume 7 cpath) (halt 1 1 id)) (fun s => ((s.chip.task 0).halted, s.vig.taper.length)) = some (false, 7) := by decide +kernel

theorem witness_TaperAccess :
    (let s := halt 1 1 id
     (s.chip.flush 0).perTask (tCore 0) ≥ 30 ∧ mGet? (s.chip.flush 0).rsBad ((s.chip.flush 0).base 0) = none ∧
       (s.chip.flush 0).perTask (tCore 0) ≤ 0x1000 ∧ writePermitted ((s.chip.flush 0).task 0) 2 = false ∧
       writePermitted ((s.chip.flush 0).task 0) 18 = true) ∧
    (let s := chip (fun c => { c with rsBad := [(c.base 0, ())] }) (halt 1 1 id)
     mGet? (s.chip.flush 0).rsBad ((s.chip.flush 0).base 0) = some ()) ∧
    (dbgReg 0x90 = none ∧ (dbgReg 0x88).isSome = true ∧ (dbgReg 0).isSome = true ∧ taperPath up.vig up.chip cpath 4 4 = some (4 * 2 ^ 16)) ∧
    (dbgMay (halt 3 2 id).vig up.chip 0 0 DBG_IBP 0 (1 * 2 ^ 48) = false ∧ dbgMay (halt 3 2 id).vig up.chip 0 0 DBG_IBP 0 0 = true) ∧
    (let s := chip (fun c => c.paint 0x1000 256 2) (halt 1 1 id)
     let ps := lineParts ⟨0x1000, 256, false, 0⟩
     s.chip.taperGuard false ps = none ∧ taperLines s.vig s.chip 256 ps = none ∧ s.chip.taperGuard true ps = none ∧
       ∀ q ∈ ps, (tGet s.chip.half (paHalf q.1)).inReset = false) ∧
    (let s := chip (fun c => c.paint 0x1000 64 5) (halt 3 1 id)
     s.chip.taperGuard false [(0x1000, 8)] = none ∧ 5 ≤ s.chip.ram.lineCol 0x1000 ∧ (s.chip.ram.region 0x1000).isCsr = false) ∧
    (let s := chip (fun c => { c with ram := c.ram.poisonLine 0x1000 }) (halt 1 1 id)
     s.chip.taperGuard false [(0x1000, 8)] = none ∧ s.chip.lineBad 0x1000 = true) ∧
    (let s := chip (fun c => c.setReg GRD_KEY 0 [0x103] 0) (halt 1 1 id)
     (s.chip.taperGuard false [(0x1000, 8)]).isSome = true) ∧
    (let s := chip (fun c => c.updHalf 0 (fun x => { x with inReset := true })) (halt 1 1 id)
     ¬∀ q ∈ lineParts ⟨0x1000, 256, false, 0⟩, (tGet s.chip.half (paHalf q.1)).inReset = false) := by decide +kernel
theorem test_reg_write : out (exec (.regWrite 1 (tpath 0 ++ leBytes 2 3 ++ leBytes 16 77)) (halt 1 1 id)) (fun s => s.chip.rdEntry (s.chip.base 0 + 3)) =
    some ⟨false, 77⟩ := by decide +kernel

/-! The invariants, and the I3C subset. -/

theorem witness_IslandStaysLegal : State.reset.vig.Legal ∧ (vig (fun v => { v with lcNext := some 4, pair := { v.pair with ball := 2 } }) up).vig.Legal := by
  constructor <;> constructor <;> decide +kernel
theorem witness_DeviceTimeNeverDecreases : ∀ n r, up.pending ≠ .powerOnReset n :: r ∧ up.pending ≠ .resetN n :: r := by
  intro n r; constructor <;> nofun
theorem witness_I3cSubset :
    (let v := (vig (fun v => { v with i3c := { v.i3c with addr := 9 } }) up).vig
     v.i3c.addr ≠ 0 ∧ v.i3c.busy = false ∧ 1 ≤ v.lc ∧ v.lc ≤ 3) ∧
    (let c : Cmd := ⟨0, .i3c, 0, [0, 0] ++ ent 0 0 [], 0, 0, false, false, false, false, 0, none⟩
     c.entry.length = 64 ∧ (opInfo 0).map (fun i => (c.resOk i, c.targetOk up.vig up.chip i)) = some (true, true) ∧ i3cAllows c = true) ∧
    (let c : Cmd := ⟨0, .i3c, 0, [1, 0] ++ ent 0 0x20000 [], 0, 0, false, false, false, false, 0, none⟩
     c.entry.length = 64 ∧ (opInfo 1).map (fun i => (c.resOk i, c.targetOk up.vig up.chip i)) = some (true, true) ∧ i3cAllows c = false) := by
  decide +kernel

/-! Well-formedness: each kind of check refuses a term that breaks it, and accepts the last value in range. -/

/-- A term that breaks one check, with its neighbour that meets it. -/
def wfTerms : List (Instr × Instr) := [(.aluOp 32896 0, .aluOp 32895 0), (.storeDrain 514, .storeDrain 513), (.stm 32896 0 none ⟨false, none⟩, .stm 32895 0 none ⟨false, none⟩),
  (.ldm 32896 0 none ⟨false, none⟩, .ldm 0 0 none ⟨false, none⟩), (.blockElement 32896 true, .blockElement 0 true), (.eventArrival 66 0, .eventArrival 65 0), (.bind 32, .bind 31),
  (.wickReplayTimeout 2, .wickReplayTimeout 1), (.dmaTailWrite 0 4 0, .dmaTailWrite 0 3 0), (.dmaPiece 1 4 true false, .dmaPiece 1 3 true false), (.dmaPiece 2 3 false false, .dmaPiece 1 0 false false)]
theorem test_wf_more : (([(.translationWalkDone 0 16 0 0 0, .translationWalkDone 0 15 0 0 0), (.translationWalkDone 0 0 64 0 0, .translationWalkDone 31 0 63 2 0), (.translationWalkDone 0 0 0 3 0, .translationWalkDone 0 0 0 2 0),
  (.frameTransmitDone 0 8, .frameTransmitDone 0 7), (.policerConfigWrite 0 4096 0 true 0, .policerConfigWrite 0 4095 0 true 0),
  (.meterIncrementArrival 0 2 0 0, .meterIncrementArrival 0 1 0 0), (.yield 0 2, .yield 0 1), (.trimmerPatrol 0 3, .trimmerPatrol 0 2), (.sramScrub true 0 3, .sramScrub true 0 2),
  (.retrainDue 0 4 true, .retrainDue 0 3 true), (.sweepQueue 4096, .sweepQueue 4095), (.taperStatus 256 [], .taperStatus 255 []),
  (.junctionSensorRead 0 [], .junctionSensorRead 0 [0, 0, 0, 0, 0, 0, 0, 0])] : List (Instr × Instr)).all (fun e => !e.1.wf && e.2.wf)) = true := by decide +kernel
theorem test_wf : wfTerms.all (fun e => !e.1.wf && e.2.wf) = true := by decide +kernel

end Sys2Proof.Tests
end

section
/-! PROOFS. When a host command starts, waits, is sent to the other half, or is turned away (R425 to R428). -/

namespace Sys2Proof.Machine

/-! Commands of a half. -/

/-- The command found by its number carries it. -/
theorem Chip.cmd_id {ch : Chip} {h id : Nat} {c : Cmd} (hc : ch.cmd h id = some c) : c.id = id := by
  simpa using List.find?_some hc

/-- A change of one command that keeps its number is seen when that command is looked up. -/
theorem Chip.cmd_updCmd_self (ch : Chip) (h id : Nat) (f : Cmd → Cmd) (hf : ∀ c, (f c).id = c.id) :
    (ch.updCmd h id f).cmd h id = (ch.cmd h id).map f := by
  have keep : ((fun c : Cmd => decide (c.id = id)) ∘ fun c => if c.id = id then f c else c) = fun c => decide (c.id = id) := by
    funext c
    by_cases e : c.id = id <;> simp [e, hf]
  simp only [Chip.cmd, Chip.updCmd, Chip.updAdrus, tGet_tSet_self, List.find?_map, keep]
  cases hc : (tGet ch.adrus h).cmds.find? (fun c => decide (c.id = id)) with
  | none => rfl
  | some c => simp [Chip.cmd_id (h := h) hc]

/-- Two changes of one half's command block are one. -/
theorem Chip.updAdrus_updAdrus (ch : Chip) (h : Nat) (f g : Adrus → Adrus) :
    (ch.updAdrus h f).updAdrus h g = ch.updAdrus h (fun x => g (f x)) := by
  unfold Chip.updAdrus tSet tGet
  by_cases e : h = 0 <;> simp [e]

/-- A command that has not timed out and did not come from the other half ends with its completion waiting to be posted (R425). -/
theorem Chip.complete_own {ch : Chip} {h id : Nat} {c : Cmd} (hc : ch.cmd h id = some c) (ht : c.timedOut = false)
    (hs : c.src ≠ .far) (st : Nat) (res buf : List Byte) :
    ch.complete h id st res buf = ch.updAdrus h (fun x =>
      { x with cmds := x.cmds.filter (fun k => k.id ≠ c.id), compl := x.compl ++ [c.compl st res buf] }) := by
  have hid := Chip.cmd_id hc
  unfold Chip.complete
  simp only [hc, ht, Bool.false_eq_true, if_false]
  cases hsrc : c.src with
  | far => exact absurd hsrc hs
  | pair q => simp only [Chip.updAdrus_updAdrus, hid]
  | i3c => simp only [Chip.updAdrus_updAdrus, hid]

/-- Sending an entry to the other half touches the half's Wick port only. -/
@[simp] theorem Chip.mgmtAsk_adrus (v : Vig) (ch : Chip) (h id : Nat) (e : List Byte) :
    (Chip.mgmtAsk v ch h id e).adrus = ch.adrus := rfl

@[simp] theorem Chip.mgmtAsk_ram (v : Vig) (ch : Chip) (h id : Nat) (e : List Byte) :
    (Chip.mgmtAsk v ch h id e).ram = ch.ram := rfl

/-- A command that belongs on the other half did not come from there (R427). -/
theorem Chip.src_of_cmdFar {ch : Chip} {h : Nat} {c : Cmd} {i : OpInfo} (hf : ch.cmdFar h c i = true) : c.src ≠ .far := by
  intro e
  simp [Chip.cmdFar, e] at hf

/-- While Wick is up, a forwarded command is marked (R427). -/
theorem Chip.forward_marks {ch : Chip} {h id : Nat} {c : Cmd} (v : Vig) (hw : ch.wickUp h = true) (hc : ch.cmd h id = some c) :
    (Chip.forward ch v h id c).cmd h id = some { c with fwd := true } ∧ (Chip.forward ch v h id c).ram = ch.ram := by
  have hm := Chip.cmd_updCmd_self ch h id (fun c => { c with fwd := true }) (fun _ => rfl)
  rw [hc] at hm
  simp only [Chip.forward, hw, Bool.not_true, Bool.false_eq_true, if_false]
  exact ⟨hm, rfl⟩

/-! What the row of an opcode does with a command: one lemma for each of its cases. -/

/-- What a command of half `h` with opcode `op` meets before anything is asked of its own state: the half is out of reset, and its
Chandler ready unless the opcode is fast (R428). -/
structure Runnable (op h : Nat) (ch : Chip) (c : Cmd) : Prop where
  half : h < 2
  op_eq : c.op = op
  here : c.fwd = false
  up : (tGet ch.half h).inReset = false
  ready : ch.cmdReady h = true ∨ c.fast = true

variable {op h id : Nat} {f : OpFn} {v : Vig} {ch : Chip} {c : Cmd} {i : OpInfo}

/-- A row that names no command changes nothing. -/
theorem runOp_noCmd (hc : ch.cmd h id = none) : runOp op h id f (v, ch) = (v, ch) := by
  simp [runOp, hc]

/-- A row of an opcode that the table does not know changes nothing. -/
theorem runOp_unknown (hi : opInfo op = none) : runOp op h id f (v, ch) = (v, ch) := by
  cases hc : ch.cmd h id <;> simp [runOp, hc, hi]

/-- A row changes nothing of a command of another opcode, one already forwarded, or one of a half in reset. -/
theorem runOp_refuses (hc : ch.cmd h id = some c) (hr : c.op ≠ op ∨ c.fwd = true ∨ (tGet ch.half h).inReset = true) :
    runOp op h id f (v, ch) = (v, ch) := by
  cases hi : opInfo op with
  | none => exact runOp_unknown hi
  | some i =>
    simp only [runOp, hc, hi]
    exact if_pos (.inr (hr.imp_right (Or.imp_right .inl)))

/-- A runnable command is past the first test of its row. -/
theorem Runnable.passes (hr : Runnable op h ch c) (hi : opInfo op = some i) :
    ¬(h ≥ 2 ∨ c.op ≠ op ∨ c.fwd = true ∨ (tGet ch.half h).inReset = true ∨ (!(ch.cmdReady h || i.fast)) = true) := by
  obtain ⟨hh, ho, hf, hu, hready⟩ := hr
  have hfast : c.fast = i.fast := by simp [Cmd.fast, ho, hi]
  have able : (ch.cmdReady h || i.fast) = true := by simpa [hfast] using hready
  simp [hh, ho, hf, hu, able]

/-- A command that has started goes on. -/
theorem runOp_started (hr : Runnable op h ch c) (hi : opInfo op = some i) (hc : ch.cmd h id = some c) (hs : c.started = true) :
    runOp op h id f (v, ch) = f h c (v, ch) := by
  simp only [runOp, hc, hi]
  rw [if_neg (hr.passes hi), if_pos hs]

/-- A command that an earlier one keeps from starting waits (R422, R426). -/
theorem runOp_waits (hr : Runnable op h ch c) (hc : ch.cmd h id = some c) (hs : c.started = false)
    (hw : ch.canStart v h c = false) : runOp op h id f (v, ch) = (v, ch) := by
  cases hi : opInfo op with
  | none => exact runOp_unknown hi
  | some i =>
    simp only [runOp, hc, hi]
    rw [if_neg (hr.passes hi)]
    simp [hs, hw]

/-- A command that may start and belongs on this half starts here. -/
theorem runOp_starts (hr : Runnable op h ch c) (hi : opInfo op = some i) (hc : ch.cmd h id = some c) (hs : c.started = false)
    (hw : ch.canStart v h c = true) (hf : ch.cmdFar h c i = false) :
    runOp op h id f (v, ch) = f h { c with started := true } (v, ch.updCmd h id (fun c => { c with started := true })) := by
  simp only [runOp, hc, hi]
  rw [if_neg (hr.passes hi)]
  simp [hs, hw, hf]

/-- A command that may start and belongs on the other half is sent there (R427). -/
theorem runOp_forwards (hr : Runnable op h ch c) (hi : opInfo op = some i) (hc : ch.cmd h id = some c) (hs : c.started = false)
    (hw : ch.canStart v h c = true) (hf : ch.cmdFar h c i = true) :
    runOp op h id f (v, ch) = (v, Chip.forward ch v h id c) := by
  simp only [runOp, hc, hi]
  rw [if_neg (hr.passes hi)]
  simp [hs, hw, hf]

/-- Starting a command here is running its row on one that has started. -/
theorem runOp_starts_as_started (hr : Runnable op h ch c) (hi : opInfo op = some i) (hc : ch.cmd h id = some c)
    (hs : c.started = false) (hw : ch.canStart v h c = true) (hf : ch.cmdFar h c i = false) :
    runOp op h id f (v, ch) = runOp op h id f (v, ch.updCmd h id (fun c => { c with started := true })) := by
  have hm := Chip.cmd_updCmd_self ch h id (fun c => { c with started := true }) (fun _ => rfl)
  rw [hc] at hm
  have hr' : Runnable op h (ch.updCmd h id (fun c => { c with started := true })) { c with started := true } :=
    ⟨hr.half, hr.op_eq, hr.here, hr.up, hr.ready⟩
  rw [runOp_starts hr hi hc hs hw hf, runOp_started hr' hi hm rfl]

/-! The rows of the opcodes. -/

/-- The instruction of a pair (opcode, row) runs some meaning of that opcode, and does nothing else. -/
def RunsOp (h id : Nat) (r : Nat × (Nat → Nat → Instr)) : Prop :=
  ∃ f : OpFn, ∀ s, exec (r.2 h id) s = opRow r.1 h id f s

end Sys2Proof.Machine

open Sys2Proof Sys2Proof.Machine

/-- Settles O44: every row listed is the row of its opcode, and the statement's cases are those of `runOp`. -/
theorem commandStart : Obligations.CommandStart := by
  intro s h id n a b e f data op row hh hmem
  obtain ⟨m, hm⟩ : RunsOp h id (op, row) := by
    refine (?rows : ∀ r ∈ _, RunsOp h id r) _ hmem
    repeat refine List.forall_mem_cons.mpr ⟨⟨_, fun _ => rfl⟩, ?_⟩
    exact List.forall_mem_nil _
  replace hm : ∀ s : State, exec (row h id) s = opRow op h id m s := hm
  have same (hs : runOp op h id m (s.vig, s.chip) = (s.vig, s.chip)) : exec (row h id) s = .next s := by
    rw [hm, opRow, bothStep, hs]
  refine ⟨fun hc => same (runOp_noCmd hc), fun c hc => ⟨fun hr => same (runOp_refuses hc hr), ?_⟩⟩
  intro ho hf hs hu hready
  have hr : Runnable op h s.chip c := ⟨hh, ho, hf, hu, hready⟩
  refine ⟨fun hw => same (runOp_waits hr hc hs hw), fun hw i hi => ⟨fun hn => ?_, fun hn hup => ?_, fun hn hdown ht => ?_⟩⟩
  · rw [hm, hm, opRow, opRow, bothStep, bothStep, runOp_starts_as_started hr hi hc hs hw hn]
  · rw [hm, opRow, bothStep, runOp_forwards hr hi hc hs hw hn]
    exact ⟨_, rfl, Chip.forward_marks s.vig hup hc⟩
  · rw [hm, opRow, bothStep, runOp_forwards hr hi hc hs hw hn]
    simp only [Chip.forward, hdown, Bool.not_false, if_true]
    rw [Chip.complete_own hc ht (Chip.src_of_cmdFar hn)]
    rfl
end

section
/-! PROOFS. Reading and writing control registers (R8, R267): bit fields, stored registers, the register that an address names, and
what an access to it does. -/

namespace Sys2Proof.Machine

/-! Bit fields of natural numbers, bit by bit. -/

theorem testBit_bf (n lo w i : Nat) : (bf n lo w).testBit i = (decide (i < w) && n.testBit (lo + i)) := by
  simp [bf, Nat.testBit_mod_two_pow, Nat.testBit_shiftRight]

/-- A field replaced in a number: what lies above it, the new value, and what lies below. -/
theorem bfSet_eq (n lo w v : Nat) :
    bfSet n lo w v = 2 ^ lo * (2 ^ w * (n >>> (lo + w)) + v % 2 ^ w) + n % 2 ^ lo := by
  have hlow := Nat.div_add_mod n (2 ^ lo)
  have hmid := Nat.div_add_mod (n / 2 ^ lo) (2 ^ w)
  have hsplit : 2 ^ lo * (n / 2 ^ lo) =
      2 ^ lo * (2 ^ w * (n / 2 ^ lo / 2 ^ w)) + n / 2 ^ lo % 2 ^ w * 2 ^ lo := by
    rw [Nat.mul_comm (n / 2 ^ lo % 2 ^ w), ← Nat.mul_add, hmid]
  rw [bfSet, bf, Nat.shiftRight_eq_div_pow, Nat.shiftRight_eq_div_pow, Nat.pow_add, ← Nat.div_div_eq_div_mul, Nat.mul_add,
    Nat.mul_comm (2 ^ lo) (v % 2 ^ w)]
  omega

theorem testBit_bfSet (n lo w v i : Nat) :
    (bfSet n lo w v).testBit i = if lo ≤ i ∧ i < lo + w then v.testBit (i - lo) else n.testBit i := by
  rw [bfSet_eq, Nat.testBit_two_pow_mul_add _ (Nat.mod_lt _ (Nat.two_pow_pos lo)),
    Nat.testBit_two_pow_mul_add _ (Nat.mod_lt _ (Nat.two_pow_pos w))]
  simp only [Nat.testBit_mod_two_pow, Nat.testBit_shiftRight]
  by_cases h1 : i < lo
  · have h3 : ¬(lo ≤ i ∧ i < lo + w) := by omega
    rw [if_pos h1, if_neg h3]
    simp only [h1, decide_true, Bool.true_and]
  · by_cases h2 : i - lo < w
    · have h3 : lo ≤ i ∧ i < lo + w := by omega
      simp [h1, h2, h3]
    · have h3 : ¬(lo ≤ i ∧ i < lo + w) := by omega
      have h4 : lo + w + (i - lo - w) = i := by omega
      simp [h1, h2, h3, h4]

/-- The field that was replaced reads as its new value. -/
theorem bf_bfSet_self (n lo w v : Nat) : bf (bfSet n lo w v) lo w = v % 2 ^ w := by
  refine Nat.eq_of_testBit_eq fun i => ?_
  by_cases hi : i < w <;> simp [testBit_bf, testBit_bfSet, Nat.testBit_mod_two_pow, hi]

/-- A field apart from the one that was replaced reads as before. -/
theorem bf_bfSet_apart {n lo w v lo' w' : Nat} (h : lo' + w' ≤ lo ∨ lo + w ≤ lo') : bf (bfSet n lo w v) lo' w' = bf n lo' w' := by
  refine Nat.eq_of_testBit_eq fun i => ?_
  by_cases hi : i < w'
  · have hout : ¬(lo ≤ lo' + i ∧ lo' + i < lo + w) := by omega
    simp [testBit_bf, testBit_bfSet, hout]
  · simp [testBit_bf, hi]

/-- A field of a number cut to the 64 bits that a register holds. -/
theorem bf_mod_64 {n lo w : Nat} (h : lo + w ≤ 64) : bf (n % 2 ^ 64) lo w = bf n lo w := by
  refine Nat.eq_of_testBit_eq fun i => ?_
  by_cases hi : i < w
  · have hin : lo + i < 64 := by omega
    simp only [testBit_bf, Nat.testBit_mod_two_pow, hin, decide_true, Bool.true_and]
  · simp [testBit_bf, hi]

/-! Fields of stored registers. -/

theorem Chip.fld_setReg_self {d : RegD} {ix : List Nat} (hr : regRst d ix < 2 ^ 64) {f : Fld} (hf : f.lo + f.w ≤ 64)
    (ch : Chip) (h n : Nat) : (ch.setReg d h ix n).fld d f h ix = bf n f.lo f.w := by
  rw [Chip.fld, Chip.reg_setReg_self _ _ _ _ _ hr, bf_mod_64 hf]

theorem Chip.fld_setFld_self {d : RegD} {ix : List Nat} (hr : regRst d ix < 2 ^ 64) {f : Fld} (hf : f.lo + f.w ≤ 64)
    (ch : Chip) (h n : Nat) : (ch.setFld d f h ix n).fld d f h ix = n % 2 ^ f.w := by
  rw [Chip.setFld, Chip.fld_setReg_self hr hf, bf_bfSet_self]

theorem Chip.fld_setFld_apart {d : RegD} {ix : List Nat} (hr : regRst d ix < 2 ^ 64) {f g : Fld} (hf : f.lo + f.w ≤ 64)
    (hfg : f.lo + f.w ≤ g.lo ∨ g.lo + g.w ≤ f.lo) (ch : Chip) (h n : Nat) :
    (ch.setFld d g h ix n).fld d f h ix = ch.fld d f h ix := by
  rw [Chip.setFld, Chip.fld_setReg_self hr hf, bf_bfSet_apart hfg, Chip.fld]

/-! What a write does to the fields of a register, by access code (R8): `x` is written to the bits of `m`. -/

/-- The fields of a register are written one after the other. -/
theorem fldsWrite_cons_cons (f g : Fld) (r : List Fld) (n x m : Nat) :
    fldsWrite (f :: g :: r) n x m = fldsWrite (g :: r) (fldsWrite [f] n x m) x m := rfl

/-- A read-only field keeps its value. -/
theorem fldsWrite_ro {f : Fld} (hf : f.acc = .ro) (n x m : Nat) : fldsWrite [f] n x m = n := by
  simp [fldsWrite, hf]

theorem testBit_two_pow_sub_one_sub {w y : Nat} (h : y < 2 ^ w) (i : Nat) :
    (2 ^ w - 1 - y).testBit i = (decide (i < w) && !y.testBit i) := by
  rw [Nat.sub_sub, Nat.add_comm 1 y, Nat.testBit_two_pow_sub_succ h]

theorem bf_lt (n lo w : Nat) : bf n lo w < 2 ^ w := Nat.mod_lt _ (Nat.two_pow_pos w)

/-- A read-write field takes the written bits. -/
theorem testBit_fldsWrite_rw {f : Fld} (hf : f.acc = .rw) (n x m i : Nat) : (fldsWrite [f] n x m).testBit i =
    if f.lo ≤ i ∧ i < f.lo + f.w ∧ m.testBit i = true then x.testBit i else n.testBit i := by
  simp only [fldsWrite, hf, List.foldl_cons, List.foldl_nil, testBit_bfSet, Nat.testBit_or, Nat.testBit_and, testBit_bf,
    testBit_two_pow_sub_one_sub (bf_lt m f.lo f.w)]
  by_cases hi : f.lo ≤ i ∧ i < f.lo + f.w
  · obtain ⟨hlo, hhi⟩ := hi
    have hw : i - f.lo < f.w := by omega
    cases hm : m.testBit i <;> simp [hlo, hhi, hw, hm]
  · simp [hi, ← and_assoc]

/-- A write-1-to-clear field loses the bits that are written 1. -/
theorem testBit_fldsWrite_w1c {f : Fld} (hf : f.acc = .w1c) (n x m i : Nat) : (fldsWrite [f] n x m).testBit i =
    if f.lo ≤ i ∧ i < f.lo + f.w then n.testBit i && !(x.testBit i && m.testBit i) else n.testBit i := by
  have hy : bf x f.lo f.w &&& bf m f.lo f.w < 2 ^ f.w := Nat.and_lt_two_pow _ (bf_lt m f.lo f.w)
  simp only [fldsWrite, hf, List.foldl_cons, List.foldl_nil, testBit_bfSet, Nat.testBit_and, testBit_bf,
    testBit_two_pow_sub_one_sub hy]
  by_cases hi : f.lo ≤ i ∧ i < f.lo + f.w
  · obtain ⟨hlo, hhi⟩ := hi
    have hw : i - f.lo < f.w := by omega
    simp [hlo, hhi, hw]
  · simp [hi]

/-! The register that an address names. -/

/-- Whether an address lies in a control block does not depend on what memory holds. -/
theorem Ram.region_isCsr (m m' : Ram) (a : Nat) : (m.region a).isCsr = (m'.region a).isCsr := by
  simp only [Ram.region]
  repeat' split
  all_goals rfl

/-- The 4 bytes at `pa` are register `d` at index `ix` of half `h`, each told by its address; they lie in a control block and not in
the MSI-X table. -/
def RegD.toldAt (d : RegD) (h : Nat) (ix : List Nat) (pa : Nat) : Bool :=
  (List.range 4).all (fun i => regHit (paLocal (pa + i)) = some (d, ix, i)) && decide (d.bytes = 4) && decide (paHalf pa = h) &&
    (Ram.empty.region pa).isCsr && !(decide (0xC008008000 ≤ paLocal pa ∧ paLocal pa < 0xC008008400))

section
variable {d : RegD} {h : Nat} {ix : List Nat} {pa : Nat}

theorem RegD.toldAt_iff : d.toldAt h ix pa = true ↔ (∀ i < 4, regHit (paLocal (pa + i)) = some (d, ix, i)) ∧ d.bytes = 4 ∧
    paHalf pa = h ∧ (∀ m : Ram, (m.region pa).isCsr = true) ∧ ¬(0xC008008000 ≤ paLocal pa ∧ paLocal pa < 0xC008008400) := by
  have hcsr : (∀ m : Ram, (m.region pa).isCsr = true) ↔ (Ram.empty.region pa).isCsr = true :=
    ⟨fun hm => hm _, fun he m => (Ram.region_isCsr m Ram.empty _).trans he⟩
  simp only [RegD.toldAt, hcsr, Bool.and_eq_true, List.all_eq_true, List.mem_range, decide_eq_true_eq, Bool.not_eq_true',
    decide_eq_false_iff_not, and_assoc]

/-- The bytes of a register touch that register only. -/
theorem RegD.regsIn_of_told (hd : d.toldAt h ix pa = true) : regsIn pa 4 = [(pa, d, ix)] := by
  obtain ⟨hits, -⟩ := RegD.toldAt_iff.mp hd
  have hr : List.range 4 = [0, 1, 2, 3] := rfl
  have h0 := hits 0 (by decide)
  have h1 := hits 1 (by decide)
  have h2 := hits 2 (by decide)
  have h3 := hits 3 (by decide)
  simp only [regsIn, hr, List.filterMap_cons, List.filterMap_nil, h0, h1, h2, h3, Option.map_some, Nat.add_sub_cancel]
  simp [List.eraseDups_cons]

/-- Four bytes written over a register of four bytes write all its bits. -/
theorem regBits_leBytes (pa x : Nat) : regBits pa 4 pa (leBytes 4 x) = (x % 2 ^ 32, 2 ^ 32 - 1) := by
  have hr : List.range 4 = [0, 1, 2, 3] := rfl
  have hx : x % 256 + x / 256 % 256 * 256 + x / 256 / 256 % 256 * 65536 + x / 256 / 256 / 256 % 256 * 16777216 = x % 4294967296 := by
    omega
  simp only [regBits, hr, List.foldl_cons, List.foldl_nil, leBytes, List.length_cons, List.length_nil]
  simp [hx]

/-- REGISTER_WRITE of a register that takes an access writes the low 32 bits (R8). -/
theorem registerWrite_told (hd : d.toldAt h ix pa = true) (x : Nat) (mach : Bool) {s : Vig × Chip}
    (hup : s.2.csrUp pa = true) : registerWrite pa x mach s = regWrite h d ix (x % 2 ^ 32) (2 ^ 32 - 1) s := by
  obtain ⟨hits, hb, hh, hcsr, hmsix⟩ := RegD.toldAt_iff.mp hd
  have h0 : regHit (paLocal pa) = some (d, ix, 0) := hits 0 (by decide)
  have h1 := hits 1 (by decide)
  have h2 := hits 2 (by decide)
  have h3 := hits 3 (by decide)
  have hlen : (leBytes 4 x).length = 4 := rfl
  have hzip : (List.range 4).zip (leBytes 4 x) = [(0, BitVec.ofNat 8 x), (1, BitVec.ofNat 8 (x / 256)),
    (2, BitVec.ofNat 8 (x / 256 / 256)), (3, BitVec.ofNat 8 (x / 256 / 256 / 256))] := rfl
  have hn : (4 : Nat) ≠ 16 := by decide
  simp only [registerWrite, h0, hcsr, hup, Bool.not_true, Bool.false_eq_true, or_self, if_false, csrWrite, hb, hlen,
    RegD.regsIn_of_told hd, List.foldl_cons, List.foldl_nil, hzip, Nat.add_zero, h1, h2, h3, hmsix, regBits_leBytes, hn, hh]

/-- COUNTER_READ_CLEAR of a register that takes an access clears what reading it clears (R8). -/
theorem counterRead_told (hd : d.toldAt h ix pa = true) {s : Vig × Chip} (hup : s.2.csrUp pa = true) :
    counterRead pa s = regReadDone s h d ix := by
  obtain ⟨hits, hb, hh, hcsr, -⟩ := RegD.toldAt_iff.mp hd
  have h0 : regHit (paLocal pa) = some (d, ix, 0) := hits 0 (by decide)
  simp [counterRead, csrRead, h0, hb, hh, hcsr, hup, RegD.regsIn_of_told hd]

end

end Sys2Proof.Machine
end

section
/-! PROOFS. The registers of RegisterAccess (R8, R29, R267, R416, R550, R562): what an access to each of them does, and a half in
reset. -/

namespace Sys2Proof.Machine

/-! The three rows, as steps of the island and the rest. -/

theorem exec_registerWrite (pa x : Nat) (mach : Bool) (s : State) :
    exec (.registerWrite pa x mach) s = bothStep (fun v ch => registerWrite pa x mach (v, ch)) s := rfl

theorem exec_counterReadClear (pa : Nat) (s : State) :
    exec (.counterReadClear pa) s = bothStep (fun v ch => counterRead pa (v, ch)) s := rfl

theorem exec_ethQmodeWrite (h x : Nat) (s : State) : exec (.ethQmodeWrite h x) s =
    chipStep (fun v ch => if h < 2 ∧ !(tGet ch.half h).inReset then ethCfgWrite h x v ch else ch) s := rfl

section
variable {d : RegD} {h : Nat} {ix : List Nat} {pa : Nat} {s : State} {w : Vig} {g : Chip}

/-- REGISTER_WRITE of a register that takes an access leaves what the write of the register leaves. -/
theorem exec_registerWrite_told (hd : d.toldAt h ix pa = true) (hup : s.chip.csrUp pa = true) {x : Nat}
    (hw : regWrite h d ix (x % 2 ^ 32) (2 ^ 32 - 1) (s.vig, s.chip) = (w, g)) (mach : Bool) :
    exec (.registerWrite pa x mach) s = .next { s with vig := w, chip := g } := by
  rw [exec_registerWrite, bothStep, registerWrite_told hd x mach (s := (s.vig, s.chip)) hup, hw]

/-- COUNTER_READ_CLEAR of a register that takes an access leaves what the read of the register leaves. -/
theorem exec_counterReadClear_told (hd : d.toldAt h ix pa = true) (hup : s.chip.csrUp pa = true)
    (hr : regReadDone (s.vig, s.chip) h d ix = (w, g)) :
    exec (.counterReadClear pa) s = .next { s with vig := w, chip := g } := by
  rw [exec_counterReadClear, bothStep, counterRead_told hd (s := (s.vig, s.chip)) hup, hr]

/-- A register whose half is out of reset takes accesses. -/
theorem Chip.csrUp_of_told (hd : d.toldAt h ix pa = true) {ch : Chip} (hup : (tGet ch.half h).inReset = false) :
    ch.csrUp pa = true := by
  obtain ⟨-, -, hh, -⟩ := RegD.toldAt_iff.mp hd
  simp [Chip.csrUp, hh, hup]

/-- A register outside the Vigil island whose half is in reset takes none. -/
theorem Chip.csrUp_of_reset (hd : d.toldAt h ix pa = true) (hout : ¬(0xC00A000000 ≤ paLocal pa ∧ paLocal pa < 0xC00D000000))
    {ch : Chip} (hup : (tGet ch.half h).inReset = true) : ch.csrUp pa = false := by
  obtain ⟨-, -, hh, -⟩ := RegD.toldAt_iff.mp hd
  simp only [Chip.csrUp, hh, hup, Bool.not_true, Bool.false_or, ← Bool.decide_and, decide_eq_false hout]

end

/-- A write where no access is taken changes nothing. -/
theorem exec_registerWrite_closed {pa : Nat} {s : State} (hup : s.chip.csrUp pa = false) (x : Nat) (mach : Bool) :
    exec (.registerWrite pa x mach) s = .next s := by
  have hw : registerWrite pa x mach (s.vig, s.chip) = (s.vig, s.chip) := by
    unfold registerWrite
    split <;> simp [hup]
  rw [exec_registerWrite, bothStep, hw]

/-- A read where no access is taken changes nothing. -/
theorem exec_counterReadClear_closed {pa : Nat} {s : State} (hup : s.chip.csrUp pa = false) :
    exec (.counterReadClear pa) s = .next s := by
  have hr : counterRead pa (s.vig, s.chip) = (s.vig, s.chip) := by
    unfold counterRead
    split <;> simp [hup]
  rw [exec_counterReadClear, bothStep, hr]

/-- Where no register begins, an access changes nothing (R267). -/
theorem exec_access_unmapped {pa : Nat} (hn : regHit (paLocal pa) = none) (s : State) (x : Nat) (mach : Bool) :
    exec (.registerWrite pa x mach) s = .next s ∧ exec (.counterReadClear pa) s = .next s := by
  rw [exec_registerWrite, exec_counterReadClear]
  simp [bothStep, registerWrite, counterRead, hn]

/-! The registers of the statement, each told by its address. -/

theorem told_of_plain : ∀ d ∈ [WCK_TIMEOUT, WCK_ERR, WCK_PKT_DROPS, WCK_STATUS, FLW_RX_DROP, MIR_CFGTAG, MIR_TKTYPE, VIG_TSTAT],
    ∀ h < 2, d.toldAt h [] (d.at h []) = true := by decide +kernel

theorem told_SCH_IDLE : ∀ h < 2, ∀ c < 16, SCH_IDLE.toldAt h [c] (SCH_IDLE.at h [c]) = true := by decide +kernel

theorem outside_island : ∀ d ∈ [WCK_TIMEOUT, FLW_RX_DROP], ∀ h < 2,
    ¬(0xC00A000000 ≤ paLocal (d.at h []) ∧ paLocal (d.at h []) < 0xC00D000000) := by decide +kernel

/-- The Vigil island's registers take accesses while their half is in reset (R17). -/
theorem csrUp_VIG_TSTAT (ch : Chip) {h : Nat} (hh : h < 2) : ch.csrUp (VIG_TSTAT.at h []) = true := by
  have hin : ∀ h < 2, 0xC00A000000 ≤ paLocal (VIG_TSTAT.at h []) ∧ paLocal (VIG_TSTAT.at h []) < 0xC00D000000 := by
    decide +kernel
  simp [Chip.csrUp, hin h hh]

/-! Writes. -/

/-- These registers only store what is written. -/
theorem regWrite_stores {d : RegD} (hd : d ∈ [WCK_TIMEOUT, WCK_ERR, WCK_PKT_DROPS]) (h x m : Nat) (v : Vig) (ch : Chip) :
    regWrite h d [] x m (v, ch) = (v, ch.setReg d h [] (fldsWrite d.flds (ch.reg d h []) x m)) := by
  simp only [List.mem_cons, List.not_mem_nil, or_false] at hd
  obtain rfl | rfl | rfl := hd
  all_goals rfl

/-- Such a register, of a half out of reset, holds its fields as the write leaves them; nothing else changes. -/
theorem exec_registerWrite_stores {d : RegD} (hd : d ∈ [WCK_TIMEOUT, WCK_ERR, WCK_PKT_DROPS]) {h : Nat} (hh : h < 2) {s : State}
    (hup : (tGet s.chip.half h).inReset = false) (x : Nat) (mach : Bool) :
    exec (.registerWrite (d.at h []) x mach) s = .next { s with
      chip := s.chip.setReg d h [] (fldsWrite d.flds (s.chip.reg d h []) (x % 2 ^ 32) (2 ^ 32 - 1)) } := by
  have ht := told_of_plain d (List.mem_append_left [WCK_STATUS, FLW_RX_DROP, MIR_CFGTAG, MIR_TKTYPE, VIG_TSTAT] hd) h hh
  exact exec_registerWrite_told ht (Chip.csrUp_of_told ht hup) (regWrite_stores hd h _ _ _ _) mach

/-- Writing WCK_TIMEOUT sets its field. -/
theorem bf_fldsWrite_WCK_TIMEOUT (n x : Nat) :
    bf (fldsWrite WCK_TIMEOUT.flds n (x % 2 ^ 32) (2 ^ 32 - 1)) 0 10 = x % 1024 := by
  refine Nat.eq_of_testBit_eq fun i => ?_
  have hx : (x % 1024).testBit i = (decide (i < 10) && x.testBit i) := Nat.testBit_mod_two_pow x 10 i
  rw [testBit_bf, hx, WCK_TIMEOUT, testBit_fldsWrite_rw rfl]
  by_cases hi : i < 10
  · have hw : i < 32 := by omega
    simp only [WCK_TIMEOUT_TIMEOUT_US, Nat.testBit_two_pow_sub_one, Nat.testBit_mod_two_pow, hi, hw, Nat.zero_add, Nat.zero_le,
      decide_true, Bool.true_and, and_self, if_true]
  · simp [hi]

/-- Writing 1s to WCK_ERR clears those bits and no others. -/
theorem testBit_fldsWrite_WCK_ERR (n x : Nat) {i : Nat} (hi : i < 4) :
    (fldsWrite WCK_ERR.flds n (x % 2 ^ 32) (2 ^ 32 - 1)).testBit i = (n.testBit i && !x.testBit i) := by
  have hw : i < 32 := by omega
  simp only [WCK_ERR, fldsWrite_cons_cons, testBit_fldsWrite_w1c (f := WCK_ERR_CRC_SEEN) rfl, testBit_fldsWrite_w1c (f := WCK_ERR_TIMEOUT_SEEN) rfl,
    testBit_fldsWrite_w1c (f := WCK_ERR_PKT_DROP) rfl, testBit_fldsWrite_w1c (f := WCK_ERR_DOWN_SEEN) rfl,
    Nat.testBit_two_pow_sub_one, Nat.testBit_mod_two_pow, hw, decide_true, Bool.true_and, Bool.and_true]
  obtain rfl | rfl | rfl | rfl : i = 0 ∨ i = 1 ∨ i = 2 ∨ i = 3 := by omega
  all_goals simp [WCK_ERR_CRC_SEEN, WCK_ERR_TIMEOUT_SEEN, WCK_ERR_PKT_DROP, WCK_ERR_DOWN_SEEN]

/-- Writing MIR_CFGTAG outside STANDBY sets the pair's configuration tag (R416). -/
theorem regWrite_MIR_CFGTAG (h x : Nat) {v : Vig} (hv : v.pair.role ≠ 3) (ch : Chip) :
    regWrite h MIR_CFGTAG [] (x % 2 ^ 32) (2 ^ 32 - 1) (v, ch) =
      ({ v with pair := { v.pair with cfgTag := x % 2 ^ 32 } }, ch) := by
  have hval : fldsWrite MIR_CFGTAG.flds v.pair.cfgTag (x % 2 ^ 32) (2 ^ 32 - 1) % 2 ^ 32 = x % 2 ^ 32 := by
    refine Nat.eq_of_testBit_eq fun i => ?_
    rw [Nat.testBit_mod_two_pow, MIR_CFGTAG, testBit_fldsWrite_rw rfl]
    by_cases hi : i < 32
    · simp only [MIR_CFGTAG_TAG, Nat.testBit_two_pow_sub_one, Nat.testBit_mod_two_pow, hi, Nat.zero_add, Nat.zero_le,
        decide_true, Bool.true_and, and_self, if_true]
    · simp only [Nat.testBit_mod_two_pow, hi, decide_false, Bool.false_and]
  have he : regWrite h MIR_CFGTAG [] (x % 2 ^ 32) (2 ^ 32 - 1) (v, ch) =
      setCfgTag (fldsWrite MIR_CFGTAG.flds v.pair.cfgTag (x % 2 ^ 32) (2 ^ 32 - 1)) (v, ch) := rfl
  rw [he, setCfgTag]
  simp only [hval, Vig.updPair]
  rw [if_neg (fun hc => hv hc.1)]

/-- Writing MIR_TKTYPE sets the pair's EtherType (R416). -/
theorem regWrite_MIR_TKTYPE (h x : Nat) (v : Vig) (ch : Chip) :
    regWrite h MIR_TKTYPE [] (x % 2 ^ 32) (2 ^ 32 - 1) (v, ch) =
      ({ v with pair := { v.pair with tkType := bfSet v.pair.tkType 0 16 (x % 2 ^ 16) } }, ch) := by
  have hval : fldsWrite MIR_TKTYPE.flds v.pair.tkType (x % 2 ^ 32) (2 ^ 32 - 1) = bfSet v.pair.tkType 0 16 (x % 2 ^ 16) := by
    refine Nat.eq_of_testBit_eq fun i => ?_
    rw [testBit_bfSet, MIR_TKTYPE, testBit_fldsWrite_rw rfl]
    by_cases hi : i < 16
    · have hw : i < 32 := by omega
      simp only [MIR_TKTYPE_ETHERTYPE, Nat.testBit_two_pow_sub_one, Nat.testBit_mod_two_pow, hi, hw, Nat.zero_add, Nat.zero_le,
        decide_true, Bool.true_and, and_self, if_true, Nat.sub_zero]
    · simp [MIR_TKTYPE_ETHERTYPE, hi]
  rw [← hval]
  rfl

/-! Reads. -/

theorem regReadDone_WCK_STATUS (h : Nat) (v : Vig) (ch : Chip) : regReadDone (v, ch) h WCK_STATUS [] =
    (v, (ch.setFld WCK_STATUS WCK_STATUS_LATE h [] 0).setFld WCK_STATUS WCK_STATUS_REPLAYS h [] 0) := rfl

theorem regReadDone_SCH_IDLE (h c : Nat) (v : Vig) (ch : Chip) :
    regReadDone (v, ch) h SCH_IDLE [c] = (v, ch.setFld SCH_IDLE SCH_IDLE_COUNT h [c] 0) := rfl

theorem regReadDone_FLW_RX_DROP (h : Nat) (v : Vig) (ch : Chip) :
    regReadDone (v, ch) h FLW_RX_DROP [] = (v, ch.setFld FLW_RX_DROP FLW_RX_DROP_COUNT h [] 0) := rfl

theorem regReadDone_VIG_TSTAT (h : Nat) (v : Vig) (ch : Chip) :
    regReadDone (v, ch) h VIG_TSTAT [] = ({ v with toderr := 0 }, ch) := rfl

/-! The Ethernet lanes. -/

/-- Releasing a run touches no byte of memory. -/
theorem Chip.releaseOf_cells (ch : Chip) (run : Option (Nat × Nat)) : (ch.releaseOf run).ram.cells = ch.ram.cells := by
  unfold Chip.releaseOf Chip.releaseRun
  split
  · split <;> rfl
  · rfl

/-- A change of a quad's mode touches no byte of memory. -/
theorem Chip.quadChange_cells (ch : Chip) (h q : Nat) : (ch.quadChange h q).ram.cells = ch.ram.cells := by
  unfold Chip.quadChange
  refine List.foldlRecOn (motive := fun c : Chip => c.ram.cells = ch.ram.cells) _ _ rfl fun c hc i _ => ?_
  simp only [Chip.setFld_ram, Chip.updFlow_ram]
  refine List.foldlRecOn (motive := fun c' : Chip => c'.ram.cells = ch.ram.cells) _ _ hc fun c' hc' e _ => ?_
  exact (Chip.releaseOf_cells c' e.run).trans hc'

/-- ETH_CFG of a line half stores the bits it has (R562). -/
theorem ethCfgWrite_line {h : Nat} (hh : h < 2) (x : Nat) {v : Vig} (hv : v.compute h = false) (ch : Chip) :
    (ethCfgWrite h x v ch).reg ETH_CFG h [] = x &&& 0xFFFF0F ∧ (ethCfgWrite h x v ch).ram.cells = ch.ram.cells := by
  have hlt : x &&& 0xFFFF0F < 2 ^ 64 := Nat.and_lt_two_pow x (by decide)
  have hn : ¬(h ≥ 2 ∨ v.compute h = true) := by simp [hv, hh]
  simp only [ethCfgWrite, if_neg hn]
  refine ⟨?_, ?_⟩
  · rw [Chip.reg_setReg_self _ _ _ _ _ (by decide), Nat.mod_eq_of_lt hlt]
  · split <;> split <;> simp only [Chip.setReg_ram, Chip.quadChange_cells]

/-- A compute half ignores ETH_CFG (R550). -/
theorem ethCfgWrite_compute {h : Nat} (x : Nat) {v : Vig} (hv : v.compute h = true) (ch : Chip) : ethCfgWrite h x v ch = ch := by
  simp [ethCfgWrite, hv]

/-- ETH_QMODE_WRITE on a half out of reset is a write of ETH_CFG. -/
theorem exec_ethQmodeWrite_up {h : Nat} (hh : h < 2) {s : State} (hup : (tGet s.chip.half h).inReset = false) (x : Nat) :
    exec (.ethQmodeWrite h x) s = .next { s with chip := ethCfgWrite h x s.vig s.chip } := by
  simp [exec_ethQmodeWrite, chipStep, hh, hup]

/-- ETH_QMODE_WRITE on a half in reset changes nothing. -/
theorem exec_ethQmodeWrite_reset {h : Nat} {s : State} (hrst : (tGet s.chip.half h).inReset = true) (x : Nat) :
    exec (.ethQmodeWrite h x) s = .next s := by
  simp [exec_ethQmodeWrite, chipStep, hrst]

end Sys2Proof.Machine

open Sys2Proof Sys2Proof.Machine

/-- Settles O42: the register of each access is told by its address, and what the access does is said once for each register. -/
theorem registerAccess : Obligations.RegisterAccess := by
  intro s h hh
  have told := fun d hd => told_of_plain d hd h hh
  refine ⟨fun hup x mach => ?_, fun hrst x mach => ?_, fun hup x mach => ?_, ?_,
    fun x mach pa hn => exec_access_unmapped hn s x mach⟩
  · have up := fun d hd => Chip.csrUp_of_told (told d hd) hup
    refine ⟨?timeout, ?err, ?drops, ?status, fun c hc => ?idle, ?rxDrop, fun hv => ?compute, fun hv => ?line⟩
    case timeout =>
      refine ⟨_, exec_registerWrite_stores (by simp) hh hup x mach, ?_, rfl, rfl, rfl⟩
      rw [Chip.fld_setReg_self (by decide) (by decide)]
      exact bf_fldsWrite_WCK_TIMEOUT _ x
    case err =>
      refine ⟨_, exec_registerWrite_stores (by simp) hh hup x mach, rfl, fun i hi => ?_⟩
      have hw : i < 64 := by omega
      rw [Chip.reg_setReg_self _ _ _ _ _ (by decide), tb, Nat.testBit_mod_two_pow, testBit_fldsWrite_WCK_ERR _ x hi]
      simp only [tb, hw, decide_true, Bool.true_and]
    case drops =>
      refine ⟨_, exec_registerWrite_stores (by simp) hh hup x mach, rfl, ?_⟩
      rw [Chip.fld_setReg_self (by decide) (by decide), WCK_PKT_DROPS, fldsWrite_ro rfl]
      rfl
    case status =>
      refine ⟨_, exec_counterReadClear_told (told _ (by simp)) (up _ (by simp)) (regReadDone_WCK_STATUS h _ _), rfl, ?_, ?_⟩
      · rw [Chip.fld_setFld_apart (by decide) (by decide) (by decide), Chip.fld_setFld_self (by decide) (by decide), Nat.zero_mod]
      · rw [Chip.fld_setFld_self (by decide) (by decide), Nat.zero_mod]
    case idle =>
      have ht := told_SCH_IDLE h hh c hc
      have hr : regRst SCH_IDLE [c] = 0 := rfl
      refine ⟨_, exec_counterReadClear_told ht (Chip.csrUp_of_told ht hup) (regReadDone_SCH_IDLE h c _ _), ?_, rfl⟩
      rw [Chip.fld_setFld_self (by omega) (by decide), Nat.zero_mod]
    case rxDrop =>
      refine ⟨_, exec_counterReadClear_told (told _ (by simp)) (up _ (by simp)) (regReadDone_FLW_RX_DROP h _ _), ?_, rfl⟩
      rw [Chip.fld_setFld_self (by decide) (by decide), Nat.zero_mod]
    case compute => rw [exec_ethQmodeWrite_up hh hup, ethCfgWrite_compute x hv]
    case line => exact ⟨_, exec_ethQmodeWrite_up hh hup x, ethCfgWrite_line hh x hv s.chip⟩
  · have closed := fun d ht hd => Chip.csrUp_of_reset (told d ht) (outside_island d hd h hh) hrst
    exact ⟨exec_registerWrite_closed (closed _ (by simp) (by simp)) x mach,
      exec_counterReadClear_closed (closed _ (by simp) (by simp)), exec_ethQmodeWrite_reset hrst x⟩
  · have up := fun d hd => Chip.csrUp_of_told (told d hd) hup
    exact ⟨fun hrole => exec_registerWrite_told (told _ (by simp)) (up _ (by simp)) (regWrite_MIR_CFGTAG h x hrole _) mach,
      exec_registerWrite_told (told _ (by simp)) (up _ (by simp)) (regWrite_MIR_TKTYPE h x _ _) mach⟩
  · exact exec_counterReadClear_told (told _ (by simp)) (csrUp_VIG_TSTAT s.chip hh) (regReadDone_VIG_TSTAT h _ _)
end

section
/-! PROOFS. Taking an exception outside the trap window (R219 to R221): fields of STATUS, charging cycles, the handler level, and the
entry; and the validity of a return (R225). -/

namespace Sys2Proof.Machine

/-! Fields of STATUS (R107). -/

/-- Every bit of STATUS after one of its fields was replaced. -/
theorem Task.testBit_putStatus (x : Task) {lo w : Nat} (v i : Nat) (h : lo + w ≤ 32) :
    (x.putStatus lo w v).status.toNat.testBit i =
      if lo ≤ i ∧ i < lo + w then v.testBit (i - lo) else x.status.toNat.testBit i := by
  have cut : (x.putStatus lo w v).status.toNat = bfSet x.status.toNat lo w v % 2 ^ 32 := BitVec.toNat_ofNat _ _
  rw [cut, Nat.testBit_mod_two_pow, testBit_bfSet]
  by_cases hi : i < 32
  · simp [hi]
  · have above : x.status.toNat.testBit i = false :=
      Nat.testBit_lt_two_pow (Nat.lt_of_lt_of_le x.status.isLt (Nat.pow_le_pow_right (by decide) (by omega)))
    have out : ¬(lo ≤ i ∧ i < lo + w) := by omega
    simp [hi, above, out]

theorem Task.bf_putStatus_self (x : Task) {lo w : Nat} (v : Nat) (h : lo + w ≤ 32) :
    bf (x.putStatus lo w v).status.toNat lo w = v % 2 ^ w := by
  refine Nat.eq_of_testBit_eq fun i => ?_
  by_cases hi : i < w <;> simp [testBit_bf, Task.testBit_putStatus _ _ _ h, Nat.testBit_mod_two_pow, hi]

theorem Task.bf_putStatus_apart (x : Task) {lo w lo' w' : Nat} (v : Nat) (h : lo + w ≤ 32) (ha : lo' + w' ≤ lo ∨ lo + w ≤ lo') :
    bf (x.putStatus lo w v).status.toNat lo' w' = bf x.status.toNat lo' w' := by
  refine Nat.eq_of_testBit_eq fun i => ?_
  by_cases hi : i < w'
  · have out : ¬(lo ≤ lo' + i ∧ lo' + i < lo + w) := by omega
    simp [testBit_bf, Task.testBit_putStatus _ _ _ h, out]
  · simp [testBit_bf, hi]

/-! Charging cycles (R257). -/

/-- Of the charged task only the event count moves, and that of a service core's stays. -/
theorem Chip.task_charge_self (v : Vig) (ch : Chip) (t n : Nat) : (ch.charge v t n).task t =
    { ch.task t with evcount := if coreSvc (tCore t) then (ch.task t).evcount else (ch.task t).evcount + n } := by
  unfold Chip.charge Chip.chargeTo
  extract_lets k cycles metered counted loaded
  have htask : counted.task t = { ch.task t with evcount := (ch.task t).evcount + n } := Chip.task_updTask_self _ _ _
  split
  · rfl
  · split <;> exact htask

theorem Chip.task_charge_ne (v : Vig) (ch : Chip) {t u : Nat} (n : Nat) (h : u ≠ t) : (ch.charge v t n).task u = ch.task u := by
  unfold Chip.charge Chip.chargeTo
  extract_lets k cycles metered counted loaded
  have htask : counted.task u = ch.task u := Chip.task_updTask_ne _ _ _ _ h
  split
  · rfl
  · split <;> exact htask

/-- A charge leaves memory, the register store and the control registers. -/
theorem Chip.charge_frame (v : Vig) (ch : Chip) (t n : Nat) : (ch.charge v t n).ram = ch.ram ∧
    (ch.charge v t n).store = ch.store ∧ (ch.charge v t n).zero = ch.zero ∧ (ch.charge v t n).csr = ch.csr := by
  unfold Chip.charge Chip.chargeTo
  extract_lets k cycles metered counted loaded
  have hmeter : metered.ram = ch.ram ∧ metered.store = ch.store ∧ metered.zero = ch.zero ∧ metered.csr = ch.csr :=
    ⟨rfl, rfl, rfl, rfl⟩
  split
  · exact ⟨rfl, rfl, rfl, rfl⟩
  · split <;> exact hmeter

/-! The entry (R219 to R221). -/

/-- R219: what an exception saves in its task. -/
def Task.savesExc (x : Task) (e : Exc) : Task :=
  { x with
    estatus := x.status, epc := sealReturn x.priv e.pcc
    cause := mkCause e.code e.fpriv e.imprecise e.stage e.level e.multi
    faddr := BitVec.ofNat 64 e.faddr, fdata := BitVec.ofNat 64 e.fdata }

/-- R219, R221: STATUS in the trap window, at the handler level. -/
def Task.trapStatus (x : Task) (level : Nat) : Task :=
  (((x.putStatus 13 2 level).putStatus 15 1 1).putStatus 16 6 0).putStatus 22 1 0

/-- R220, R221: the task at the first instruction of its handler. -/
def Task.entersTrap (x : Task) (level : Nat) (pcc : Cap) : Task :=
  { x.trapStatus level with
    pcc := pcc, fq := [], ffault := none, lastOp := none, pairOpen := false, wait := .none, multi := none, fresh := true }

theorem Task.priv_trapStatus (x : Task) (level : Nat) : (x.trapStatus level).priv = level % 4 := by
  rw [Task.priv, Task.trapStatus, Task.bf_putStatus_apart _ _ (by decide) (by decide),
    Task.bf_putStatus_apart _ _ (by decide) (by decide), Task.bf_putStatus_apart _ _ (by decide) (by decide),
    Task.bf_putStatus_self _ _ (by decide), show 2 ^ 2 = 4 from rfl]

theorem Task.tw_trapStatus (x : Task) (level : Nat) : (x.trapStatus level).tw = true := by
  simp [Task.tw, tb, Task.trapStatus, Task.testBit_putStatus]

theorem Task.mpos_trapStatus (x : Task) (level : Nat) : (x.trapStatus level).mpos = 0 := by
  rw [Task.mpos, Task.trapStatus, Task.bf_putStatus_apart _ _ (by decide) (by decide), Task.bf_putStatus_self _ _ (by decide),
    Nat.zero_mod]

theorem Task.mpv_trapStatus (x : Task) (level : Nat) : (x.trapStatus level).mpv = false := by
  simp [Task.mpv, tb, Task.trapStatus, Task.testBit_putStatus]

/-- Outside PRIV, TW, MPOS and MPV the bits of STATUS stay. -/
theorem Task.getLsbD_trapStatus_apart (x : Task) (level : Nat) {b : Nat} (h : b < 13 ∨ 22 < b) :
    (x.trapStatus level).status.getLsbD b = x.status.getLsbD b := by
  have out {lo w : Nat} (hlo : 13 ≤ lo) (hw : lo + w ≤ 23) : ¬(lo ≤ b ∧ b < lo + w) := by omega
  simp only [BitVec.getLsbD, Task.trapStatus]
  iterate 4 rw [Task.testBit_putStatus _ _ _ (by decide), if_neg (out (by decide) (by decide))]

/-- R220: a trap entry that a task enters at `level` with vector address `pcc`. -/
def Cap.validEntry (entry pcc : Cap) (level : Nat) : Prop :=
  entry.tag = true ∧ entry.otype = 0 ∧ entry.has pExec = true ∧ (level = 0 ∨ entry.has pSystem = true) ∧ pcc.tag = true

/-- Outside the trap window a valid entry is taken: the task saves, enters, and is charged 4 cycles. -/
theorem Chip.takeExc_enters {c : Chip} {t : Nat} {e : Exc} (v : Vig) (htw : (c.task t).tw = false)
    (hentry : (c.trapEntry t (c.handlerLevel t e)).validEntry
      (cadv (c.trapEntry t (c.handlerLevel t e)) (0x40 * causeVector e.code)) (c.handlerLevel t e)) :
    c.takeExc v t e = ((c.updTask t (·.savesExc e)).updTask t (·.entersTrap (c.handlerLevel t e)
      (cadv (c.trapEntry t (c.handlerLevel t e)) (0x40 * causeVector e.code)))).charge v t 4 := by
  obtain ⟨htag, hseal, hexec, hsys, hpcc⟩ := hentry
  have good : (decide (c.handlerLevel t e ≠ 0) && !(c.trapEntry t (c.handlerLevel t e)).has pSystem) = false := by
    obtain h0 | h1 := hsys
    · simp [h0]
    · simp [h1]
  simp only [Chip.takeExc, htw, htag, hseal, hexec, hpcc, good]
  rfl

/-! The handler level (R219) and the validity of a return (R225). -/

theorem Chip.no_trapEntry_iff (c : Chip) (id : Nat) :
    (!((c.record id).map (·.trapent.tag)).getD false) = true ↔ ∀ r, c.record id = some r → r.trapent.tag = false := by
  cases c.record id <;> simp

/-- The handler level is the higher privilege, raised to Service for a Service cause and for a Tenant without a trap entry. -/
theorem Chip.handlerLevel_eq (c : Chip) (t : Nat) (e : Exc) : c.handlerLevel t e =
    max (max (c.task t).priv e.fpriv) (if causeService e.code = true ∨ (max (c.task t).priv e.fpriv = 0 ∧
      ∀ r, c.record (c.task t).comp = some r → r.trapent.tag = false) then 1 else 0) := by
  simp only [Chip.handlerLevel, ← Chip.no_trapEntry_iff, Bool.or_eq_true, Bool.and_eq_true, decide_eq_true_eq]

theorem validReturn_service (c : Cap) : validReturn 1 c = true ↔ c.tag = true ∧ c.has pSystem = true := by
  simp [validReturn]

theorem validReturn_machine (c : Cap) :
    validReturn 3 c = true ↔ c.tag = true ∧ c.has pSystem = true ∧ c.otype = 0xFFE := by
  simp [validReturn, and_assoc]

end Sys2Proof.Machine

open Sys2Proof Sys2Proof.Machine

/-- Settles O8: the entry saves, then enters, then is charged, and each part says what it leaves of the task. -/
theorem exceptionEntry : Obligations.ExceptionEntry := by
  intro v c t e x level entry pcc htw htag hseal hexec hsys hpcc c' y
  have hc : c' = ((c.updTask t (·.savesExc e)).updTask t (·.entersTrap level pcc)).charge v t 4 :=
    Chip.takeExc_enters v htw ⟨htag, hseal, hexec, hsys, hpcc⟩
  have hy : y = { (x.savesExc e).entersTrap level pcc with
      evcount := if coreSvc (tCore t) then x.evcount else x.evcount + 4 } := by
    simp only [y, hc, Chip.task_charge_self, Chip.task_updTask_self]
    rfl
  have others : ∀ u, u ≠ t → c'.task u = c.task u := fun u hu => by
    rw [hc, Chip.task_charge_ne _ _ _ hu, Chip.task_updTask_ne _ _ _ _ hu, Chip.task_updTask_ne _ _ _ _ hu]
  clear_value y
  subst hy
  obtain ⟨hram, hstore, hzero, hcsr⟩ : c'.ram = c.ram ∧ c'.store = c.store ∧ c'.zero = c.zero ∧ c'.csr = c.csr :=
    hc ▸ Chip.charge_frame _ _ _ _
  refine ⟨rfl, rfl, rfl, BitVec.toNat_ofNat _ _, BitVec.toNat_ofNat _ _, rfl, Task.priv_trapStatus _ _, Task.tw_trapStatus _ _,
    Task.mpos_trapStatus _ _, Task.mpv_trapStatus _ _, fun b _ hb => Task.getLsbD_trapStatus_apart _ _ hb, rfl, rfl, rfl, rfl,
    hram, hstore, hzero, hcsr, others⟩

/-- Settles O9: the level by whether the exception is Service's, the return by the privilege it asks for. -/
theorem handlerLevel : Obligations.HandlerLevel := by
  refine ⟨fun c t e _ => ?_, fun c => ⟨rfl, validReturn_service c, rfl, validReturn_machine c⟩⟩
  intro x own service
  have hown : max x.priv e.fpriv = own := by simp only [own]; split <;> omega
  have level : c.handlerLevel t e = max own (if service then 1 else 0) := by
    rw [Chip.handlerLevel_eq]
    simp only [show c.task t = x from rfl, hown]
    rfl
  constructor
  · intro hs
    rw [level, if_pos hs]
    split <;> omega
  · intro hs
    rw [level, if_neg hs, Nat.max_zero]
end
